-- ==== Sys2Proof/Word.lean ====
section
/-! DEFINITION. The word types, the index types and the fixed-size tables of the HC-40 model.
Bit vectors stand only for what the manual treats as bits: link bytes and fields, instants of the 32-bit ladder
clock, raw line levels, reason bytes. -/

namespace Sys2Proof

/-- One byte of a link frame (R181), or one reason byte (R186). -/
abbrev Byte := BitVec 8
/-- A two-byte payload field. -/
abbrev Word16 := BitVec 16
/-- A four-byte payload field. -/
abbrev Word32 := BitVec 32
/-- A ladder-clock value in ticks of 0.1 ms, modulo 2^32 (R1). -/
abbrev Instant := BitVec 32

/-- P0–P39. -/
abbrev PointIx := Fin 40
/-- T0–T40. -/
abbrev TrackIx := Fin 41
/-- S0–S63. -/
abbrev SlotIx := Fin 64
/-- Heads 0–81 (R5). -/
abbrev HeadIx := Fin 82
/-- F0–F255. -/
abbrev LineIx := Fin 256

/-- The two ways out of a point. -/
inductive Leg where
  | N
  | R
  deriving DecidableEq, Repr

/-- The lead, or the section of one point (R6). -/
inductive SectionId where
  | lead
  | point (p : PointIx)
  deriving DecidableEq, Repr

/-- A fixed number of like records. -/
abbrev Table (n : Nat) (α : Type) := Vector α n

namespace Table

/-- The record at an index. -/
def look {n : Nat} {α : Type} (t : Table n α) (i : Fin n) : α := t[i.val]

/-- The table with one record replaced. -/
def put {n : Nat} {α : Type} (t : Table n α) (i : Fin n) (x : α) : Table n α := t.set i.val x

/-- The table given by a rule for each index; it evaluates in the kernel. -/
def tab {n : Nat} {α : Type} (f : Fin n → α) : Table n α := ⟨((List.finRange n).map f).toArray, by simp⟩

/-- The table that holds one value everywhere. -/
def fill (n : Nat) {α : Type} (x : α) : Table n α := Vector.replicate n x

@[simp] theorem look_tab {n : Nat} {α : Type} (f : Fin n → α) (i : Fin n) : look (tab f) i = f i := by
  simp [look, tab]

@[simp] theorem look_fill {n : Nat} {α : Type} (x : α) (i : Fin n) : look (fill n x) i = x := by
  simp [look, fill]

theorem look_put {n : Nat} {α : Type} (t : Table n α) (i j : Fin n) (x : α) :
    look (put t i x) j = if i = j then x else look t j := by
  simp [look, put, Vector.getElem_set, Fin.ext_iff]

@[simp] theorem look_put_self {n : Nat} {α : Type} (t : Table n α) (i : Fin n) (x : α) : look (put t i x) i = x := by
  simp [look_put]

theorem look_put_of_ne {n : Nat} {α : Type} (t : Table n α) {i j : Fin n} (x : α) (h : i ≠ j) :
    look (put t i x) j = look t j := by
  simp [look_put, h]

/-- Two tables that agree at every index are equal. -/
theorem ext_look {n : Nat} {α : Type} {t u : Table n α} (h : ∀ i, look t i = look u i) : t = u := by
  apply Vector.ext
  intro i hi
  exact h ⟨i, hi⟩

end Table
end Sys2Proof
end

