-- ==== Sys2Proof/Syntax.lean ====
section
/-! DEFINITION. The commands of the HC-40: one constructor for each row of spec/opcode_table.json, in its order of
families. A host request carries its payload fields as they are coded in bytes (R184), so that a value outside a
field's coding can be sent; an event carries the index of the record it happens to. -/

namespace Sys2Proof

/-- The payload of SET POINT, in byte order (R184). -/
structure PointFields where
  point : Byte
  inUse : Byte
  isRoot : Byte
  nKind : Byte
  nIndex : Byte
  rKind : Byte
  rIndex : Byte
  dApp : Word16
  tThrow : Word16
  grade : Byte
  nFallback : Byte
  rFallback : Byte
  stall : Word16
  deriving DecidableEq, Repr

/-- The payload of SET YARD, in byte order (R184). -/
structure YardFields where
  spacing : Byte
  guard : Word16
  gIn : Word16
  gCpl : Word16
  leadStall : Word16
  slots : Byte
  reject : Byte
  defaultTrack : Byte
  deriving DecidableEq, Repr

/-- The commands. Each docstring names the rule that specifies the row. -/
inductive Instr where
  /-- HARDWARE_RESET with the levels of the straps ADR1 and ADR0 (R13, R180). -/
  | hardwareReset (adr1 adr0 : Bool)
  /-- FILTERED_TRANSITION: the filtered transition of one line, taken with those that R27 and R29 deliver with it (R25). -/
  | filteredTransition (line : LineIx)
  /-- BOTH_ACTIVE_TIMER_EXPIRY of one head (R36). -/
  | bothActiveTimerExpiry (head : HeadIx)
  /-- STALL_TIMER_EXPIRY of one section (R61). -/
  | stallTimerExpiry (sec : SectionId)
  /-- SHORT_CUT: the crest gap timer expires in ENTERING (R97). -/
  | shortCut
  /-- ABSORPTION_END: the crest gap timer expires in ABSORBING (R100). -/
  | absorptionEnd
  /-- THROW_TIMEOUT of a MOVING point (R136). -/
  | throwTimeout (p : PointIx)
  /-- RETURN_FAILED of a RETURNING point (R136). -/
  | returnFailed (p : PointIx)
  /-- DEADLINE_EXPIRY of a point's waiting entry (R133). -/
  | deadlineExpiry (p : PointIx)
  /-- REQUEST_DISCARDED: a write transfer whose bytes hold no good frame (R181). -/
  | requestDiscarded (bytes : List Byte)
  /-- SET_POINT (R9). -/
  | setPoint (f : PointFields)
  /-- SET_YARD (R12). -/
  | setYard (f : YardFields)
  /-- SET_LINE (R23). -/
  | setLine (line kind index level cls : Byte)
  /-- COMMISSION (R164). -/
  | commission
  /-- DECOMMISSION (R165). -/
  | decommission
  /-- START (R166). -/
  | start
  /-- STOP (R167). -/
  | stop
  /-- RESUME (R167). -/
  | resume
  /-- FINISH (R168). -/
  | finish
  /-- ENTER (R74, R75). -/
  | enter (number : Word16) (kind value axles : Byte)
  /-- HOLD (R76). -/
  | hold (number : Word16)
  /-- AMEND (R77). -/
  | amend (number : Word16) (selection kind value axles : Byte)
  /-- WITHDRAW (R83). -/
  | withdraw (number : Word16)
  /-- RETIRE (R84). -/
  | retire (number : Word16)
  /-- READ_CUT (R85). -/
  | readCut (kind : Byte) (value : Word16)
  /-- READ_PENDING (R86). -/
  | readPending (start : Byte)
  /-- SET_MAP (R112). -/
  | setMap (entry valid code span track : Byte)
  /-- SET_WINDOW (R109). -/
  | setWindow (window first last : Byte)
  /-- SET_TRACK (R120). -/
  | setTrack (track : Byte) (capacity : Word16)
  /-- SET_FILL (R121). -/
  | setFill (track : Byte) (value : Word32)
  /-- PULL (R121). -/
  | pull (track : Byte) (count : Word16)
  /-- READ_TRACK (R123). -/
  | readTrack (track : Byte)
  /-- READ_MAP (R124). -/
  | readMap (kind index : Byte)
  /-- THROW (R138). -/
  | throw (point leg : Byte)
  /-- BAR (R139). -/
  | bar (point : Byte)
  /-- UNBAR (R139). -/
  | unbar (point : Byte)
  /-- RESTORE (R140). -/
  | restore (point : Byte)
  /-- READ_POINT (R141). -/
  | readPoint (point : Byte)
  /-- RESET_SECTION (R62, R63). -/
  | resetSection (selector : Byte)
  /-- READ_SECTION (R64). -/
  | readSection (selector list start : Byte)
  /-- READ_HEAD (R38). -/
  | readHead (head : Byte)
  /-- READ_LINE (R30). -/
  | readLine (line : Byte)
  /-- READ_DEVICE (R172). -/
  | readDevice
  /-- READ_NOTICES (R177). -/
  | readNotices
  /-- ACK, with one byte for each reason named (R175, R184). -/
  | ack (cls index : Byte) (reasons : List Byte)
  /-- SET_ATTENTION (R179). -/
  | setAttention (e0 e1 e2 e3 e4 mask : Byte)
  /-- LADDER_CLOCK_TICK, with the raw levels of F0–F255 at the tick, bit i = F(i), 1 = HIGH (R1, R24). -/
  | ladderClockTick (raw : BitVec 256)
  deriving DecidableEq, Repr

end Sys2Proof
end

