-- ==== Sys2Proof/Decode.lean ====
section
/-! DEFINITION. The control link's frames (R181, R182, R184): the check byte, the request codes and their lengths, the
frame of each request command, and the command that a write transfer spells. Decoding is total: every list of bytes
spells one command, a request or REQUEST_DISCARDED. -/

namespace Sys2Proof

/-! ## The check byte (R182) -/

/-- One of the eight shifts of R182. -/
def crcShift (v : Byte) : Byte :=
  if v.msb then (v <<< 1) ^^^ 0x2F#8 else v <<< 1

/-- The check value after one more byte. -/
def crcByte (v b : Byte) : Byte :=
  crcShift (crcShift (crcShift (crcShift (crcShift (crcShift (crcShift (crcShift (v ^^^ b))))))))

/-- The check byte over a list of bytes: CRC-8, polynomial 0x2F, initial value 0xFF (R182). -/
def crc8 (bytes : List Byte) : Byte := bytes.foldl crcByte 0xFF#8

/-! ## Fields wider than a byte: least significant byte first (R181) -/

/-- The two bytes of a two-byte field. -/
def le16 (w : Word16) : List Byte := [w.extractLsb' 0 8, w.extractLsb' 8 8]

/-- The four bytes of a four-byte field. -/
def le32 (w : Word32) : List Byte :=
  [w.extractLsb' 0 8, w.extractLsb' 8 8, w.extractLsb' 16 8, w.extractLsb' 24 8]

/-- The field whose bytes are lo, hi. -/
def word16 (lo hi : Byte) : Word16 := hi ++ lo

/-- The field whose bytes are b0 to b3, least significant first. -/
def word32 (b0 b1 b2 b3 : Byte) : Word32 := (b3 ++ b2 ++ (b1 ++ b0) : BitVec 32)

/-! ## Request codes and lengths (R184) -/

/-- The request codes of R184 with the least and the greatest payload length allowed. -/
def requestTable : List (Byte × Nat × Nat) :=
  [(0x10, 16, 16), (0x11, 12, 12), (0x12, 5, 5), (0x18, 0, 0), (0x19, 0, 0), (0x1A, 0, 0), (0x1B, 0, 0),
   (0x1C, 0, 0), (0x1D, 0, 0), (0x20, 5, 5), (0x21, 2, 2), (0x22, 6, 6), (0x23, 2, 2), (0x24, 2, 2),
   (0x28, 3, 3), (0x29, 1, 1), (0x30, 5, 5), (0x31, 3, 3), (0x32, 3, 3), (0x33, 5, 5), (0x34, 3, 3),
   (0x38, 1, 1), (0x39, 2, 2), (0x40, 2, 2), (0x41, 1, 1), (0x42, 1, 1), (0x43, 1, 1), (0x48, 1, 1),
   (0x50, 1, 1), (0x58, 3, 3), (0x59, 1, 1), (0x5A, 1, 1), (0x60, 0, 0), (0x61, 0, 0), (0x62, 3, 9),
   (0x63, 6, 6)]

/-- The allowed lengths of a code; none for a code the table does not list. -/
def lengthsOf (code : Byte) : Option (Nat × Nat) :=
  (requestTable.find? (fun r => r.1 == code)).map (fun r => r.2)

/-- A code that R184 lists. -/
def codeListed (code : Byte) : Bool := (lengthsOf code).isSome

/-- A length allowed for the code (R184). -/
def lengthAllowed (code : Byte) (len : Nat) : Bool :=
  match lengthsOf code with
  | some (lo, hi) => decide (lo ≤ len) && decide (len ≤ hi)
  | none => false

/-- The request frame of a code and a payload (R181). -/
def requestFrame (code : Byte) (payload : List Byte) : List Byte :=
  let body := code :: BitVec.ofNat 8 payload.length :: payload
  body ++ [crc8 body]

/-! ## The commands as requests -/

/-- The request code of a command; none for an event. -/
def codeOf : Instr → Option Byte
  | .hardwareReset _ _ => none
  | .filteredTransition _ => none
  | .bothActiveTimerExpiry _ => none
  | .stallTimerExpiry _ => none
  | .shortCut => none
  | .absorptionEnd => none
  | .throwTimeout _ => none
  | .returnFailed _ => none
  | .deadlineExpiry _ => none
  | .requestDiscarded _ => none
  | .ladderClockTick _ => none
  | .setPoint _ => some 0x10
  | .setYard _ => some 0x11
  | .setLine _ _ _ _ _ => some 0x12
  | .commission => some 0x18
  | .decommission => some 0x19
  | .start => some 0x1A
  | .stop => some 0x1B
  | .resume => some 0x1C
  | .finish => some 0x1D
  | .enter _ _ _ _ => some 0x20
  | .hold _ => some 0x21
  | .amend _ _ _ _ _ => some 0x22
  | .withdraw _ => some 0x23
  | .retire _ => some 0x24
  | .readCut _ _ => some 0x28
  | .readPending _ => some 0x29
  | .setMap _ _ _ _ _ => some 0x30
  | .setWindow _ _ _ => some 0x31
  | .setTrack _ _ => some 0x32
  | .setFill _ _ => some 0x33
  | .pull _ _ => some 0x34
  | .readTrack _ => some 0x38
  | .readMap _ _ => some 0x39
  | .throw _ _ => some 0x40
  | .bar _ => some 0x41
  | .unbar _ => some 0x42
  | .restore _ => some 0x43
  | .readPoint _ => some 0x48
  | .resetSection _ => some 0x50
  | .readSection _ _ _ => some 0x58
  | .readHead _ => some 0x59
  | .readLine _ => some 0x5A
  | .readDevice => some 0x60
  | .readNotices => some 0x61
  | .ack _ _ _ => some 0x62
  | .setAttention _ _ _ _ _ _ => some 0x63

/-- The payload of SET POINT in byte order (R184). -/
def PointFields.bytes (f : PointFields) : List Byte :=
  [f.point, f.inUse, f.isRoot, f.nKind, f.nIndex, f.rKind, f.rIndex] ++ le16 f.dApp ++ le16 f.tThrow
    ++ [f.grade, f.nFallback, f.rFallback] ++ le16 f.stall

/-- The payload of SET YARD in byte order (R184). -/
def YardFields.bytes (f : YardFields) : List Byte :=
  [f.spacing] ++ le16 f.guard ++ le16 f.gIn ++ le16 f.gCpl ++ le16 f.leadStall
    ++ [f.slots, f.reject, f.defaultTrack]

/-- The payload of a request command in byte order (R184); empty for an event. -/
def payloadOf : Instr → List Byte
  | .hardwareReset _ _ => []
  | .filteredTransition _ => []
  | .bothActiveTimerExpiry _ => []
  | .stallTimerExpiry _ => []
  | .shortCut => []
  | .absorptionEnd => []
  | .throwTimeout _ => []
  | .returnFailed _ => []
  | .deadlineExpiry _ => []
  | .requestDiscarded _ => []
  | .ladderClockTick _ => []
  | .setPoint f => f.bytes
  | .setYard f => f.bytes
  | .setLine line kind index level cls => [line, kind, index, level, cls]
  | .commission => []
  | .decommission => []
  | .start => []
  | .stop => []
  | .resume => []
  | .finish => []
  | .enter number kind value axles => le16 number ++ [kind, value, axles]
  | .hold number => le16 number
  | .amend number selection kind value axles => le16 number ++ [selection, kind, value, axles]
  | .withdraw number => le16 number
  | .retire number => le16 number
  | .readCut kind value => kind :: le16 value
  | .readPending start => [start]
  | .setMap entry valid code span track => [entry, valid, code, span, track]
  | .setWindow window first last => [window, first, last]
  | .setTrack track capacity => track :: le16 capacity
  | .setFill track value => track :: le32 value
  | .pull track count => track :: le16 count
  | .readTrack track => [track]
  | .readMap kind index => [kind, index]
  | .throw point leg => [point, leg]
  | .bar point => [point]
  | .unbar point => [point]
  | .restore point => [point]
  | .readPoint point => [point]
  | .resetSection selector => [selector]
  | .readSection selector list start => [selector, list, start]
  | .readHead head => [head]
  | .readLine line => [line]
  | .readDevice => []
  | .readNotices => []
  | .ack cls index reasons => cls :: index :: reasons
  | .setAttention e0 e1 e2 e3 e4 mask => [e0, e1, e2, e3, e4, mask]

/-- The frame in which the host sends a request command; none for an event. -/
def frameOf (c : Instr) : Option (List Byte) :=
  (codeOf c).map (fun code => requestFrame code (payloadOf c))

/-! ## The command a transfer spells -/

/-- The request whose code and payload these are (R184). -/
def parseRequest (code : Byte) (payload : List Byte) : Option Instr :=
  if code = 0x10 then
    match payload with
    | [p, u, r, nk, ni, rk, ri, d0, d1, t0, t1, g, nf, rf, s0, s1] =>
      some (.setPoint { point := p, inUse := u, isRoot := r, nKind := nk, nIndex := ni, rKind := rk, rIndex := ri,
                        dApp := word16 d0 d1, tThrow := word16 t0 t1, grade := g, nFallback := nf,
                        rFallback := rf, stall := word16 s0 s1 })
    | _ => none
  else if code = 0x11 then
    match payload with
    | [s, g0, g1, i0, i1, c0, c1, l0, l1, n, r, d] =>
      some (.setYard { spacing := s, guard := word16 g0 g1, gIn := word16 i0 i1, gCpl := word16 c0 c1,
                       leadStall := word16 l0 l1, slots := n, reject := r, defaultTrack := d })
    | _ => none
  else if code = 0x12 then
    match payload with | [l, k, i, a, c] => some (.setLine l k i a c) | _ => none
  else if code = 0x18 then match payload with | [] => some .commission | _ => none
  else if code = 0x19 then match payload with | [] => some .decommission | _ => none
  else if code = 0x1A then match payload with | [] => some .start | _ => none
  else if code = 0x1B then match payload with | [] => some .stop | _ => none
  else if code = 0x1C then match payload with | [] => some .resume | _ => none
  else if code = 0x1D then match payload with | [] => some .finish | _ => none
  else if code = 0x20 then
    match payload with | [n0, n1, k, v, a] => some (.enter (word16 n0 n1) k v a) | _ => none
  else if code = 0x21 then match payload with | [n0, n1] => some (.hold (word16 n0 n1)) | _ => none
  else if code = 0x22 then
    match payload with | [n0, n1, s, k, v, a] => some (.amend (word16 n0 n1) s k v a) | _ => none
  else if code = 0x23 then match payload with | [n0, n1] => some (.withdraw (word16 n0 n1)) | _ => none
  else if code = 0x24 then match payload with | [n0, n1] => some (.retire (word16 n0 n1)) | _ => none
  else if code = 0x28 then match payload with | [k, v0, v1] => some (.readCut k (word16 v0 v1)) | _ => none
  else if code = 0x29 then match payload with | [s] => some (.readPending s) | _ => none
  else if code = 0x30 then match payload with | [e, v, c, k, t] => some (.setMap e v c k t) | _ => none
  else if code = 0x31 then match payload with | [w, f, l] => some (.setWindow w f l) | _ => none
  else if code = 0x32 then match payload with | [t, c0, c1] => some (.setTrack t (word16 c0 c1)) | _ => none
  else if code = 0x33 then
    match payload with | [t, v0, v1, v2, v3] => some (.setFill t (word32 v0 v1 v2 v3)) | _ => none
  else if code = 0x34 then match payload with | [t, n0, n1] => some (.pull t (word16 n0 n1)) | _ => none
  else if code = 0x38 then match payload with | [t] => some (.readTrack t) | _ => none
  else if code = 0x39 then match payload with | [k, i] => some (.readMap k i) | _ => none
  else if code = 0x40 then match payload with | [p, l] => some (.throw p l) | _ => none
  else if code = 0x41 then match payload with | [p] => some (.bar p) | _ => none
  else if code = 0x42 then match payload with | [p] => some (.unbar p) | _ => none
  else if code = 0x43 then match payload with | [p] => some (.restore p) | _ => none
  else if code = 0x48 then match payload with | [p] => some (.readPoint p) | _ => none
  else if code = 0x50 then match payload with | [s] => some (.resetSection s) | _ => none
  else if code = 0x58 then match payload with | [s, l, i] => some (.readSection s l i) | _ => none
  else if code = 0x59 then match payload with | [h] => some (.readHead h) | _ => none
  else if code = 0x5A then match payload with | [l] => some (.readLine l) | _ => none
  else if code = 0x60 then match payload with | [] => some .readDevice | _ => none
  else if code = 0x61 then match payload with | [] => some .readNotices | _ => none
  else if code = 0x62 then match payload with | c :: i :: rs => some (.ack c i rs) | _ => none
  else if code = 0x63 then
    match payload with | [a, b, c, d, e, m] => some (.setAttention a b c d e m) | _ => none
  else none

/-- The code and payload of a transfer whose frame is good: the code is listed, the length is allowed, every payload
byte and the check byte have come, and the check matches. Bytes after a good check byte are ignored (R181). -/
def goodFrame (bytes : List Byte) : Option (Byte × List Byte) :=
  match bytes with
  | code :: len :: rest =>
    let payload := rest.take len.toNat
    if lengthAllowed code len.toNat && decide (payload.length = len.toNat)
        && decide ((rest.drop len.toNat).head? = some (crc8 (code :: len :: payload))) then
      some (code, payload)
    else none
  | _ => none

/-- The command that the bytes of one write transfer spell. -/
def commandOfTransfer (bytes : List Byte) : Instr :=
  match goodFrame bytes with
  | some (code, payload) => (parseRequest code payload).getD (.requestDiscarded bytes)
  | none => .requestDiscarded bytes

/-- No row of spec/opcode_table.json gives bits, so no word of the table's numbering spells a command (log entry 30, DESIGN CHOICE). -/
def decodeTableWord (_nbits _w : Nat) : Option Instr := none

end Sys2Proof
end

