-- ==== Sys2Proof/Config.lean ====
section
/-! DEFINITION. The quantities the manual fixes for every part. The manual leaves no result value undefined, so there
is no free value here; what a yard configures is state (R8, R11, R22). -/

namespace Sys2Proof.Config

/-- The lower fixed speed bound v_min in mm/s (R11). -/
def vMin : Nat := 100
/-- The upper fixed speed bound v_max in mm/s (R11). -/
def vMax : Nat := 15000
/-- Half of the range of the ladder clock: instants are compared within it (00_scope.md, Instants). -/
def halfRange : Nat := 2 ^ 31
/-- Ticks of the ladder clock in one millisecond. -/
def ticksPerMs : Nat := 10
/-- Ticks of the ladder clock in one second (R60). -/
def ticksPerSecond : Nat := 10000
/-- How long a head may stay in DOWN_2, UP_2 or BOTH, in ticks (R36). -/
def bothActiveTicks : Nat := 20000
/-- Spacing of SLOW samples in ticks (R24). -/
def slowSpacing : Nat := 80
/-- The deepest a point may lie (R2, R18). -/
def maxDepth : Nat := 8
/-- The greatest axle count or raw count of a section (R39, R56). -/
def maxCount : Nat := 255
/-- The greatest fill of a track (R106, R118). -/
def maxFill : Nat := 65535
/-- The greatest interval a passage carries (R35). -/
def maxInterval : Nat := 65535
/-- Most numbers in one READ PENDING answer (R86). -/
def pendingChunk : Nat := 24
/-- Most entries in one READ SECTION answer (R64). -/
def sectionChunk : Nat := 4

end Sys2Proof.Config
end

