-- ==== Sys2Proof/Machine/State.lean ====
section
/-! DEFINITION. The state of the HC-40 as plain data, and the state after hardware reset. `Yard` gathers the records
that the ladder's events and most requests change; `Ladder` is the configuration they read (R8, R11). -/

namespace Sys2Proof.Machine

open Sys2Proof

/-! ## Configuration (chapter 1) -/

/-- What a leg names (R2). -/
inductive Target where
  | none
  | point (p : PointIx)
  | track (t : TrackIx)
  deriving DecidableEq, Repr

/-- The fields 2 to 10 of the configuration record of a point in use (R8). -/
structure PointConfig where
  isRoot : Bool
  normal : Target
  reverse : Target
  dApp : Nat
  tThrow : Nat
  grade : Nat
  nFallback : Option TrackIx
  rFallback : Option TrackIx
  stall : Nat
  deriving DecidableEq, Repr

/-- The yard constants (R11). -/
structure Constants where
  spacing : Nat
  guard : Nat
  gIn : Nat
  gCpl : Nat
  leadStall : Nat
  slots : Nat
  reject : Option TrackIx
  defaultTrack : Option TrackIx
  deriving DecidableEq, Repr

/-- The configuration of the ladder: a point record of `none` holds in use = no (R8). -/
structure Ladder where
  points : Table 40 (Option PointConfig)
  consts : Constants
  deriving DecidableEq, Repr

/-! ## Field lines and heads (chapter 2) -/

/-- The role of a line: role kind and role index (R22). -/
inductive Role where
  | unused
  | sensorA (h : HeadIx)
  | sensorB (h : HeadIx)
  | detectN (p : PointIx)
  | detectR (p : PointIx)
  | stop
  | freezeKey (k : Fin 4)
  deriving DecidableEq, Repr

/-- HIGH or LOW (R22). -/
inductive Level where
  | high
  | low
  deriving DecidableEq, Repr

/-- The filter classes (R22, R24). -/
inductive FilterClass where
  | fast
  | slow
  deriving DecidableEq, Repr

/-- One field line: its configuration record (R22) and its filter (R25, R30). A filtered level of `true` is ACTIVE;
`sampled` is the raw level at the most recent sample. The model's own are `everSampled`, that a sample has been taken since
hardware reset (log entry 24, DESIGN CHOICE), and `due`: a third disagreeing sample has been taken and its transition is not
yet delivered (log entry 4, DESIGN CHOICE). -/
structure Line where
  role : Role
  active : Level
  cls : FilterClass
  filtered : Bool
  agreement : Nat
  sampled : Level
  everSampled : Bool
  due : Bool
  deriving DecidableEq, Repr

/-- The decoder states of a head (R32). -/
inductive DecoderState where
  | off
  | settling
  | idle
  | down1
  | down2
  | down3
  | up1
  | up2
  | up3
  | both
  | held
  deriving DecidableEq, Repr

/-- The condition of a head (R32). -/
inductive Condition where
  | ok
  | faulty
  deriving DecidableEq, Repr

/-- The direction of a passage (R35). -/
inductive Direction where
  | downhill
  | uphill
  deriving DecidableEq, Repr

/-- What a passage carries besides its head (R35). `longAgo` is the model's own: 2^31 ticks have elapsed since its
instant when it is delivered (log entry 7, DEDUCED). -/
structure Passage where
  direction : Direction
  instant : Instant
  interval : Nat
  longAgo : Bool
  deriving DecidableEq, Repr

/-- What is recorded when a head becomes FAULTY (R36); the cause is SEQUENCE always. -/
structure HeadFault where
  instant : Instant
  state : DecoderState
  deriving DecidableEq, Repr

/-- One head (R32, R36, R38). `first` and `gap` belong to the sequence in progress and are 0 outside one
(log entry 22, DESIGN CHOICE). `longAgo` is the model's own: 2^31 ticks have elapsed since the first instant of the sequence
in progress (log entry 7, DEDUCED). -/
structure Head where
  state : DecoderState
  condition : Condition
  first : Instant
  longAgo : Bool
  gap : Instant
  timer : Option Instant
  fault : Option HeadFault
  last : Option Passage
  deriving DecidableEq, Repr

/-! ## Sections and approach queues (chapter 3) -/

/-- The states of a section (R39). -/
inductive SectionState where
  | clear
  | occupied
  | disturbed
  deriving DecidableEq, Repr

/-- The disturbance causes in the order of R39. -/
inductive DisturbCause where
  | startup
  | rollback
  | headFault
  | phantomExit
  | unexpectedAxle
  | enteredDisturbed
  | overcount
  | unlisted
  | lostCut
  deriving DecidableEq, Repr

/-- An occupant entry (R40). -/
structure Occupant where
  slot : SlotIx
  entered : Nat
  exited : Nat
  deriving DecidableEq, Repr

/-- A section record (R39). `count` is the raw count while DISTURBED (R56). -/
structure Section where
  state : SectionState
  count : Nat
  occupants : List Occupant
  stallTimer : Option Instant
  stallFlag : Bool
  stallLimit : Nat
  cause : Option DisturbCause
  deriving DecidableEq, Repr

/-- An approach queue entry (R42). `longAgo` is the model's own: 2^31 ticks have elapsed since the approach instant
(R145 reads it). -/
structure QueueEntry where
  slot : SlotIx
  instant : Instant
  interval : Nat
  longAgo : Bool
  deriving DecidableEq, Repr

/-! ## The cut table (chapter 4) -/

/-- A destination request (R67). -/
inductive Destination where
  | block (code : Byte)
  | track (t : TrackIx)
  deriving DecidableEq, Repr

/-- The states of a cut (R67). -/
inductive CutState where
  | pending
  | entering
  | rolling
  | arrived
  | lost
  deriving DecidableEq, Repr

/-- The resolution causes (R67). -/
inductive ResolutionCause where
  | trackClosed
  | trackFull
  | noBlock
  deriving DecidableEq, Repr

/-- The diversion causes (R67). -/
inductive DiversionCause where
  | late
  | caughtUp
  | pointUnavailable
  | frozen
  deriving DecidableEq, Repr

/-- An entry of the diversion list (R67). -/
structure Diversion where
  point : PointIx
  cause : DiversionCause
  before : TrackIx
  deriving DecidableEq, Repr

/-- One pair of a route (R4). -/
abbrev Pair := PointIx × Leg

/-- The fields a cut holds from ENTERING on (R67, R68). -/
structure Started where
  order : Word32
  resolved : TrackIx
  cause : Option ResolutionCause
  route : List Pair
  progress : Nat
  crestAxles : Nat
  inTrack : Nat
  speed : Option Nat
  diversions : List Diversion
  coupled : Option Word16
  short : Option Nat
  hazard : Bool
  deriving DecidableEq, Repr

/-- A cut record (R67). -/
structure Cut where
  number : Word16
  dest : Destination
  axles : Nat
  state : CutState
  started : Option Started
  actual : Option TrackIx
  deriving DecidableEq, Repr

/-- A live record of the cut table: a cut, or a hold marker that is REACHED or still PENDING (R65, R70). -/
inductive Record where
  | cut (c : Cut)
  | hold (number : Word16) (reached : Bool)
  deriving DecidableEq, Repr

/-! ## The crest unit (chapter 5) -/

/-- The entering cut's number, tally and target count (R88). -/
structure Entry where
  number : Word16
  tally : Nat
  target : Nat
  deriving DecidableEq, Repr

/-- The crest state with the fields present in it (R88). -/
inductive CrestState where
  | idle
  | entering (slot : SlotIx) (e : Entry)
  | absorbing (slot : Option SlotIx) (e : Entry)
  deriving DecidableEq, Repr

/-- The crest gap timer while running (R94). The model's own are `origin`, the instant it was started from
(log entry 8, DEDUCED), and `longAgo`: 2^31 ticks have elapsed since that instant (log entry 7, DEDUCED). -/
structure GapTimer where
  origin : Instant
  expiry : Instant
  longAgo : Bool
  deriving DecidableEq, Repr

/-- The previous cut and the last crest instant (R88). `longAgo` is the model's own: 2^31 ticks have elapsed since the
last crest instant (R95 reads it). -/
structure Previous where
  slot : SlotIx
  number : Word16
  instant : Instant
  longAgo : Bool
  deriving DecidableEq, Repr

/-- The crest unit (R88). -/
structure Crest where
  state : CrestState
  timer : Option GapTimer
  previous : Option Previous
  nextOrder : Word32
  deriving DecidableEq, Repr

/-! ## The destination unit (chapter 6) -/

/-- A track record (R106); in use, closed and feeding leg are derived. -/
structure Track where
  capacity : Nat
  fill : Nat
  reserved : Nat
  deriving DecidableEq, Repr

/-- A closure window as the host last set it (R108). -/
structure Window where
  first : Nat
  last : Nat
  deriving DecidableEq, Repr

/-- A valid block map entry (R110). -/
structure MapEntry where
  code : Nat
  span : Nat
  track : TrackIx
  deriving DecidableEq, Repr

/-! ## Point drive unit and throw planner (chapters 7 and 8) -/

/-- The fault causes in the order of R125. -/
inductive FaultCause where
  | throwFailed
  | detectionLost
  | unexpectedMove
  | enteredDuringThrow
  | legMismatch
  | sectionDisturbed
  | returnFailed
  | startupUnproved
  deriving DecidableEq, Repr

/-- The kinds of throw (R125, R131). -/
inductive ThrowKind where
  | deadline
  | manual
  deriving DecidableEq, Repr

/-- The state of a point with the fields present in it (R125). -/
inductive PointState where
  | proved (lie : Leg)
  | moving (target origin : Leg) (expiry : Instant) (kind : ThrowKind)
  | returning (origin : Leg) (expiry : Instant) (kind : ThrowKind)
  | faulty (lie : Leg) (cause : FaultCause)
  | lost (cause : FaultCause)
  deriving DecidableEq, Repr

/-- A point record (R125). -/
structure Point where
  state : PointState
  barred : Bool
  detectN : Bool
  detectR : Bool
  deriving DecidableEq, Repr

/-- What a waiting entry holds besides its point and target (R131). -/
inductive Claim where
  | deadline (at_ : Instant) (cut : SlotIx)
  | manual
  deriving DecidableEq, Repr

/-- An entry of the waiting list (R131). -/
structure Waiting where
  point : PointIx
  target : Leg
  claim : Claim
  deriving DecidableEq, Repr

/-- The planning states in the order of R142. -/
inductive PlanState where
  | idle
  | set
  | diverted
  | requested
  | waitingClear
  | waitingPoint
  deriving DecidableEq, Repr

/-- The last test of a planning record (R142). -/
structure Test where
  speed : Nat
  allowed : Nat
  arrival : Nat
  margin : Int
  deadline : Instant
  pass : Bool
  at_ : Instant
  deriving DecidableEq, Repr

/-- A planning record (R142). -/
structure Plan where
  state : PlanState
  head : Option SlotIx
  needed : Option Leg
  test : Option Test
  deriving DecidableEq, Repr

/-! ## Modes and notices (chapters 9 and 10) -/

/-- The operating modes (R162). -/
inductive Mode where
  | setup
  | standby
  | humping
  | halted
  deriving DecidableEq, Repr

/-- The mode controller (R162). The halt-cause set is a reason byte: bit n − 1 stands for the cause numbered n (R186). -/
structure ModeControl where
  mode : Mode
  halt : Byte
  disturbed : Nat
  lost : Nat
  stall : Nat
  stopFlag : Bool
  freezeFlag : Bool
  permit : Bool
  deriving DecidableEq, Repr

/-- A notice: its class and index (R173). -/
inductive NoticeKey where
  | cut (s : SlotIx)
  | point (p : PointIx)
  | lead
  | track (t : TrackIx)
  | device
  deriving DecidableEq, Repr

/-- The notice unit (R173, R178). Each reason set is a reason byte (R186); a flag is raised while its set is not empty. -/
structure Notices where
  cut : Table 64 Byte
  point : Table 40 Byte
  lead : Byte
  track : Table 41 Byte
  device : Byte
  enables : Table 5 Bool
  mask : Bool
  attn : Bool
  deriving DecidableEq, Repr

/-! ## The control link (chapter 11) -/

/-- The receive buffer (R180). `done` is the model's own: the check byte has been taken. -/
structure ReceiveBuffer where
  code : Option Byte
  length : Option Byte
  payload : List Byte
  check : Byte
  reject : Bool
  done : Bool
  deriving DecidableEq, Repr

/-- The response buffer; its length byte is the payload's length (R180, R183). -/
structure Response where
  status : Byte
  code : Byte
  payload : List Byte
  check : Byte
  deriving DecidableEq, Repr

/-- The link interface (R180). The read position counts the bytes of the response frame, 0 the status byte. -/
structure Link where
  receive : ReceiveBuffer
  response : Response
  readPosition : Nat
  deriving DecidableEq, Repr

/-! ## The whole -/

/-- The records that follow the cuts and the points, and the units that the host supervises. -/
structure Yard where
  lead : Option Section
  sections : Table 40 (Option Section)
  queues : Table 40 (List QueueEntry)
  slots : Table 64 (Option Record)
  pendingList : List SlotIx
  crest : Crest
  tracks : Table 41 Track
  windows : Table 4 Window
  blockMap : Table 32 (Option MapEntry)
  points : Table 40 (Option Point)
  drive : Table 80 Bool
  slotsInUse : Nat
  waiting : List Waiting
  plans : Table 40 (Option Plan)
  control : ModeControl
  notices : Notices
  deriving DecidableEq, Repr

/-- The state of the part and the queue of the commands that are waiting for it. There is no time but the
ladder clock (log entry 25, DEDUCED). -/
structure State where
  clock : Instant
  straps : BitVec 2
  raw : BitVec 256
  ladder : Ladder
  lines : Table 256 Line
  heads : Table 82 Head
  yard : Yard
  link : Link
  pending : List Instr
  deriving DecidableEq, Repr

/-- The reasons a step can stop with a fault. The manual gives the part none: every refused request is answered and
every failure is a state the part goes on from. No meaning raises one. -/
inductive Fault where
  deriving DecidableEq, Repr

/-- The reasons a step can be refused. -/
inductive Refusal where
  /-- Raised by exec's arm alone, for a command that has no meaning yet; safe, since the run stops there. No arm of this
  model raises it. -/
  | notModelled (mnemonic : String)
  deriving DecidableEq, Repr

/-! ## After hardware reset -/

/-- The yard constants after hardware reset (R11). -/
def Constants.reset : Constants :=
  { spacing := 120, guard := 300, gIn := 3000, gCpl := 600, leadStall := 120, slots := 2, reject := none,
    defaultTrack := none }

/-- The configuration after hardware reset (R13). -/
def Ladder.reset : Ladder := { points := Table.fill 40 none, consts := Constants.reset }

/-- A line after hardware reset (R22, R26); `sampled` by log entry 5, and no sample taken by log entry 24, DESIGN CHOICE. -/
def Line.reset : Line :=
  { role := .unused, active := .high, cls := .fast, filtered := false, agreement := 0, sampled := .low,
    everSampled := false, due := false }

/-- A head that is OFF (R32). -/
def Head.off : Head :=
  { state := .off, condition := .ok, first := 0, longAgo := false, gap := 0, timer := none, fault := none, last := none }

/-- The crest unit after hardware reset (R88). -/
def Crest.reset : Crest := { state := .idle, timer := none, previous := none, nextOrder := 1 }

/-- The mode controller after hardware reset (R162). -/
def ModeControl.reset : ModeControl :=
  { mode := .setup, halt := 0, disturbed := 0, lost := 0, stall := 0, stopFlag := false, freezeFlag := false,
    permit := false }

/-- The notice unit after hardware reset (R174, R178). -/
def Notices.reset : Notices :=
  { cut := Table.fill 64 0, point := Table.fill 40 0, lead := 0, track := Table.fill 41 0, device := 0,
    enables := Table.fill 5 true, mask := false, attn := false }

/-- The empty receive buffer; the check value starts at FF (R180, R182). -/
def ReceiveBuffer.empty : ReceiveBuffer :=
  { code := none, length := none, payload := [], check := 0xFF, reject := false, done := false }

/-- The NO_RESPONSE frame FF 00 00 00 (R180, R183). -/
def Response.reset : Response := { status := 0xFF, code := 0, payload := [], check := 0 }

/-- The link interface after hardware reset (R180). -/
def Link.reset : Link := { receive := ReceiveBuffer.empty, response := Response.reset, readPosition := 0 }

/-- The yard after hardware reset (R39, R42, R87, R88, R106, R108, R110, R126, R142, R162, R174). -/
def Yard.reset : Yard :=
  { lead := none, sections := Table.fill 40 none, queues := Table.fill 40 [], slots := Table.fill 64 none,
    pendingList := [], crest := Crest.reset,
    tracks := Table.fill 41 { capacity := 0, fill := 0, reserved := 0 },
    windows := Table.fill 4 { first := 1, last := 0 }, blockMap := Table.fill 32 none,
    points := Table.fill 40 none, drive := Table.fill 80 false, slotsInUse := 0, waiting := [],
    plans := Table.fill 40 none, control := ModeControl.reset, notices := Notices.reset }

/-- The machine right after hardware reset: both straps low and every raw level LOW (log entries 5 and 6, DESIGN CHOICE), no command
waiting. -/
def State.reset : State :=
  { clock := 0, straps := 0, raw := 0, ladder := Ladder.reset, lines := Table.fill 256 Line.reset,
    heads := Table.fill 82 Head.off, yard := Yard.reset, link := Link.reset, pending := [] }

end Sys2Proof.Machine
end

