-- ==== Sys2Proof/Machine/Ops.lean ====
section
/-! DEFINITION. Instants and their comparison, the environment an event reads, and the accessors and updates of the
records: every other file reads and writes them through these. -/

namespace Sys2Proof.Machine

open Sys2Proof

/-! ## Instants (00_scope.md, Instants) -/

/-- The ticks from one instant to another, modulo 2^32. -/
def ticksBetween (earlier later : Instant) : Nat := (later - earlier).toNat

/-- An instant is at or after another: less than half of the clock's range later. -/
def atOrAfter (a b : Instant) : Bool := decide (ticksBetween b a < Config.halfRange)

/-- An instant is later than another. -/
def laterThan (a b : Instant) : Bool := decide (1 ≤ ticksBetween b a) && atOrAfter a b

/-- The instant a number of ticks after another. -/
def after (t : Instant) (n : Nat) : Instant := t + BitVec.ofNat 32 n

/-- What an event of the yard reads and does not change: the present instant and the configuration. -/
structure Env where
  now : Instant
  ladder : Ladder
  deriving DecidableEq, Repr

/-- The environment of an event taken in a state. -/
def State.env (s : State) : Env := { now := s.clock, ladder := s.ladder }

/-! ## Legs -/

/-- The other leg of a point. -/
def otherLeg : Leg → Leg
  | .N => .R
  | .R => .N

/-! ## Sections and queues -/

/-- The record of a section, if it exists (R39). -/
def Yard.sectionOf (y : Yard) : SectionId → Option Section
  | .lead => y.lead
  | .point p => Table.look y.sections p

/-- Replace the record of a section. -/
def Yard.putSection (sid : SectionId) (x : Option Section) (y : Yard) : Yard :=
  match sid with
  | .lead => { y with lead := x }
  | .point p => { y with sections := Table.put y.sections p x }

/-- Change the record of a section, if it exists. -/
def Yard.modifySection (sid : SectionId) (f : Section → Section) (y : Yard) : Yard :=
  match y.sectionOf sid with
  | some x => y.putSection sid (some (f x))
  | none => y

/-- The state of a section; none where no record exists. -/
def Yard.sectionState (y : Yard) (sid : SectionId) : Option SectionState := (y.sectionOf sid).map (fun x => x.state)

/-- The section exists and is CLEAR. -/
def Yard.sectionClear (y : Yard) (sid : SectionId) : Bool := y.sectionState sid == some .clear

/-- The section exists and is DISTURBED. -/
def Yard.sectionDisturbed (y : Yard) (sid : SectionId) : Bool := y.sectionState sid == some .disturbed

/-- All section selectors: the lead, then the points in ascending index. -/
def allSections : List SectionId := SectionId.lead :: (List.finRange 40).map SectionId.point

/-- The approach queue of a point (R42). -/
def Yard.queueOf (y : Yard) (q : PointIx) : List QueueEntry := Table.look y.queues q

/-- Replace an approach queue. -/
def Yard.putQueue (q : PointIx) (l : List QueueEntry) (y : Yard) : Yard :=
  { y with queues := Table.put y.queues q l }

/-- The slot at the head of a point's approach queue. -/
def Yard.queueHead (y : Yard) (q : PointIx) : Option SlotIx := (y.queueOf q).head?.map (fun e => e.slot)

/-! ## The cut table -/

/-- The cut in a slot, if the slot holds one. -/
def Yard.cutAt (y : Yard) (i : SlotIx) : Option Cut :=
  match Table.look y.slots i with
  | some (.cut c) => some c
  | _ => none

/-- Replace what a slot holds. -/
def Yard.putSlot (i : SlotIx) (r : Option Record) (y : Yard) : Yard := { y with slots := Table.put y.slots i r }

/-- Change the cut in a slot, if the slot holds one. -/
def Yard.modifyCut (i : SlotIx) (f : Cut → Cut) (y : Yard) : Yard :=
  match y.cutAt i with
  | some c => y.putSlot i (some (.cut (f c)))
  | none => y

/-- Change the started fields of the cut in a slot, if it holds them. -/
def Yard.modifyStarted (i : SlotIx) (f : Started → Started) (y : Yard) : Yard :=
  y.modifyCut i (fun c => { c with started := c.started.map f })

/-- The started fields of the cut in a slot. -/
def Yard.startedAt (y : Yard) (i : SlotIx) : Option Started := (y.cutAt i).bind (fun c => c.started)

/-- The cut is on the ladder: ENTERING or ROLLING. -/
def Cut.onLadder (c : Cut) : Bool := c.state == .entering || c.state == .rolling

/-- The number of a record (R65). -/
def Record.number : Record → Word16
  | .cut c => c.number
  | .hold n _ => n

/-- The slot of the live record with a number (R65, R66). -/
def Yard.slotOfNumber (y : Yard) (n : Word16) : Option SlotIx :=
  (List.finRange 64).find? (fun i => ((Table.look y.slots i).map Record.number) == some n)

/-- The lowest-indexed free slot (R65). -/
def Yard.freeSlot (y : Yard) : Option SlotIx :=
  (List.finRange 64).find? (fun i => (Table.look y.slots i).isNone)

/-- Some cut is ENTERING or ROLLING (R165, R168). -/
def Yard.anyOnLadder (y : Yard) : Bool :=
  (List.finRange 64).any (fun i => ((y.cutAt i).map Cut.onLadder) == some true)

/-- The leg a cut's route names at a point. -/
def Started.legAt (x : Started) (p : PointIx) : Option Leg :=
  (x.route.find? (fun pr => pr.1 == p)).map (fun pr => pr.2)

/-- The position of a point in a cut's route: the root is 1 (R48). -/
def Started.positionOf (x : Started) (p : PointIx) : Option Nat :=
  (x.route.findIdx? (fun pr => pr.1 == p)).map (fun i => i + 1)

/-! ## Points, plans and the waiting list -/

/-- The record of a point, if it exists (R125). -/
def Yard.pointOf (y : Yard) (p : PointIx) : Option Point := Table.look y.points p

/-- The state of a point, if it has a record. -/
def Yard.pointStateOf (y : Yard) (p : PointIx) : Option PointState := (y.pointOf p).map (fun x => x.state)

/-- Change the record of a point, if it exists. -/
def Yard.modifyPoint (p : PointIx) (f : Point → Point) (y : Yard) : Yard :=
  match y.pointOf p with
  | some x => { y with points := Table.put y.points p (some (f x)) }
  | none => y

/-- Set the state of a point. -/
def Yard.setPointState (p : PointIx) (st : PointState) (y : Yard) : Yard :=
  y.modifyPoint p (fun x => { x with state := st })

/-- The point is MOVING or RETURNING. -/
def PointState.inMotion : PointState → Bool
  | .moving _ _ _ _ => true
  | .returning _ _ _ => true
  | _ => false

/-- The point is LOST. -/
def PointState.isLost : PointState → Bool
  | .lost _ => true
  | _ => false

/-- The leg a point at rest lies in: PROVED or FAULTY. -/
def PointState.lie : PointState → Option Leg
  | .proved l => some l
  | .faulty l _ => some l
  | _ => none

/-- The point is MOVING or RETURNING; false where it has no record. -/
def Yard.pointInMotion (y : Yard) (p : PointIx) : Bool := ((y.pointOf p).map (fun x => x.state.inMotion)) == some true

/-- The leg a point at rest lies in. -/
def Yard.pointLie (y : Yard) (p : PointIx) : Option Leg := (y.pointOf p).bind (fun x => x.state.lie)

/-- The planning record of a point, if it exists (R142). -/
def Yard.planOf (y : Yard) (q : PointIx) : Option Plan := Table.look y.plans q

/-- Change the planning record of a point, if it exists. -/
def Yard.modifyPlan (q : PointIx) (f : Plan → Plan) (y : Yard) : Yard :=
  match y.planOf q with
  | some x => { y with plans := Table.put y.plans q (some (f x)) }
  | none => y

/-- A planning record in IDLE, its other fields absent (R142). -/
def Plan.idle : Plan := { state := .idle, head := none, needed := none, test := none }

/-- A point's entry in the waiting list (R131). -/
def Yard.waitingOf (y : Yard) (p : PointIx) : Option Waiting := y.waiting.find? (fun w => w.point == p)

/-- Take a point's entry out of the waiting list. -/
def Yard.removeWaiting (p : PointIx) (y : Yard) : Yard :=
  { y with waiting := y.waiting.filter (fun w => !(w.point == p)) }

/-! ## Drive lines (R129) -/

/-- The drive line of a point toward a leg: D(2p) toward normal, D(2p+1) toward reverse. -/
def driveLine (p : PointIx) : Leg → Fin 80
  | .N => ⟨2 * p.val, by omega⟩
  | .R => ⟨2 * p.val + 1, by omega⟩

/-- De-energise both drive lines of a point. -/
def Yard.releaseDrive (p : PointIx) (y : Yard) : Yard :=
  { y with drive := Table.put (Table.put y.drive (driveLine p .N) false) (driveLine p .R) false }

/-- Energise a point's drive line toward a leg and de-energise the other. -/
def Yard.energise (p : PointIx) (l : Leg) (y : Yard) : Yard :=
  { y with drive := Table.put (Table.put y.drive (driveLine p (otherLeg l)) false) (driveLine p l) true }

end Sys2Proof.Machine
end

