-- ==== Sys2Proof/Machine/Flags.lean ====
section
/-! DEFINITION. Notices and the attention line (chapter 10), halt causes, counts and the hump permit (chapter 9). -/

namespace Sys2Proof.Machine

open Sys2Proof

/-! ## Reason bytes (R186) -/

/-- The bit that stands for the reason or cause numbered n. -/
def reasonBit (n : Nat) : Byte := 1#8 <<< (n - 1)

/-- The reasons of the CUT class and their numbers (R173). -/
inductive CutReason where
  | arrived
  | lost
  | hazard
  | diverted
  | coupled
  | short
  | rerouted
  deriving DecidableEq, Repr

/-- The number of a CUT reason (R173). -/
def cutReasonNumber : CutReason → Nat
  | .arrived => 1
  | .lost => 2
  | .hazard => 3
  | .diverted => 4
  | .coupled => 5
  | .short => 6
  | .rerouted => 7

/-- The reasons of the POINT class (R173). -/
inductive PointReason where
  | lost
  | faulty
  | manualCancelled
  | disturbed
  | stall
  deriving DecidableEq, Repr

/-- The number of a POINT reason (R173). -/
def pointReasonNumber : PointReason → Nat
  | .lost => 1
  | .faulty => 2
  | .manualCancelled => 3
  | .disturbed => 4
  | .stall => 5

/-- The reasons of the DEVICE class (R173). -/
inductive DeviceReason where
  | halted
  | holdReached
  | freezeOn
  | freezeOff
  deriving DecidableEq, Repr

/-- The number of a DEVICE reason (R173). -/
def deviceReasonNumber : DeviceReason → Nat
  | .halted => 1
  | .holdReached => 2
  | .freezeOn => 3
  | .freezeOff => 4

/-- How many reasons a class has (R173). -/
def NoticeKey.reasonCount : NoticeKey → Nat
  | .cut _ => 7
  | .point _ => 5
  | .lead => 2
  | .track _ => 1
  | .device => 4

/-- The reason set of a notice. -/
def Notices.reasons (n : Notices) : NoticeKey → Byte
  | .cut s => Table.look n.cut s
  | .point p => Table.look n.point p
  | .lead => n.lead
  | .track t => Table.look n.track t
  | .device => n.device

/-- Replace the reason set of a notice. -/
def Notices.putReasons (k : NoticeKey) (b : Byte) (n : Notices) : Notices :=
  match k with
  | .cut s => { n with cut := Table.put n.cut s b }
  | .point p => { n with point := Table.put n.point p b }
  | .lead => { n with lead := b }
  | .track t => { n with track := Table.put n.track t b }
  | .device => { n with device := b }

/-- Change the notice unit. -/
def Yard.modifyNotices (f : Notices → Notices) (y : Yard) : Yard := { y with notices := f y.notices }

/-- Raise the reason numbered n on a notice (R173): a reason already in the set changes nothing. -/
def Yard.raise (k : NoticeKey) (n : Nat) (y : Yard) : Yard :=
  y.modifyNotices (fun x => x.putReasons k (x.reasons k ||| reasonBit n))

/-- Empty the reason set of a notice (R174). -/
def Yard.clearNotice (k : NoticeKey) (y : Yard) : Yard := y.modifyNotices (fun x => x.putReasons k 0)

/-- Raise a reason on a cut's notice (R73). -/
def Yard.raiseCut (i : SlotIx) (r : CutReason) (y : Yard) : Yard := y.raise (.cut i) (cutReasonNumber r)

/-- Raise a reason on a point's notice. -/
def Yard.raisePoint (p : PointIx) (r : PointReason) (y : Yard) : Yard := y.raise (.point p) (pointReasonNumber r)

/-- Raise a reason on the device notice. -/
def Yard.raiseDevice (r : DeviceReason) (y : Yard) : Yard := y.raise .device (deviceReasonNumber r)

/-- Raise DISTURBED on a section's notice: the lead's, or the point's (R55). -/
def Yard.raiseDisturbed (sid : SectionId) (y : Yard) : Yard :=
  match sid with
  | .lead => y.raise .lead 1
  | .point p => y.raisePoint p .disturbed

/-- Raise STALL on a section's notice (R61). -/
def Yard.raiseStall (sid : SectionId) (y : Yard) : Yard :=
  match sid with
  | .lead => y.raise .lead 2
  | .point p => y.raisePoint p .stall

/-! ## The attention line (R178) -/

/-- The class holds a notice whose flag is raised. -/
def Notices.classRaised (n : Notices) (cls : Fin 5) : Bool :=
  match cls with
  | 0 => (List.finRange 64).any (fun i => Table.look n.cut i != 0)
  | 1 => (List.finRange 40).any (fun i => Table.look n.point i != 0)
  | 2 => n.lead != 0
  | 3 => (List.finRange 41).any (fun i => Table.look n.track i != 0)
  | 4 => n.device != 0

/-- ATTN is driven active: the mask is off and an enabled class holds a raised notice (R178). -/
def attnLaw (n : Notices) : Bool :=
  !n.mask && (List.finRange 5).any (fun c => Table.look n.enables c && n.classRaised c)

/-! ## Halt causes and counts (R163, R169) -/

/-- The halt causes (R169). -/
inductive HaltCause where
  | stopRequest
  | stopInput
  | disturbedSection
  | lostPoint
  | stalledSection
  | freeze
  deriving DecidableEq, Repr

/-- The number of a halt cause (R169). -/
def haltCauseNumber : HaltCause → Nat
  | .stopRequest => 1
  | .stopInput => 2
  | .disturbedSection => 3
  | .lostPoint => 4
  | .stalledSection => 5
  | .freeze => 6

/-- Change the mode controller. -/
def Yard.modifyControl (f : ModeControl → ModeControl) (y : Yard) : Yard := { y with control := f y.control }

/-- A halt cause is entered: in HUMPING it halts the hump and raises HALTED, in HALTED it joins the set, in STANDBY
and SETUP nothing is recorded (R169). -/
def Yard.enterCause (c : HaltCause) (y : Yard) : Yard :=
  match y.control.mode with
  | .humping =>
    (y.modifyControl (fun m => { m with halt := m.halt ||| reasonBit (haltCauseNumber c), mode := .halted })).raiseDevice
      .halted
  | .halted => y.modifyControl (fun m => { m with halt := m.halt ||| reasonBit (haltCauseNumber c) })
  | .standby => y
  | .setup => y

/-- The section tracker reports a section that becomes DISTURBED (R163); a rise from 0 enters DISTURBED_SECTION. -/
def Yard.reportDisturbed (y : Yard) : Yard :=
  let z := y.modifyControl (fun m => { m with disturbed := m.disturbed + 1 })
  if y.control.disturbed = 0 then z.enterCause .disturbedSection else z

/-- The point drive unit reports a point that becomes LOST (R163); a rise from 0 enters LOST_POINT. -/
def Yard.reportLost (y : Yard) : Yard :=
  let z := y.modifyControl (fun m => { m with lost := m.lost + 1 })
  if y.control.lost = 0 then z.enterCause .lostPoint else z

/-- The section tracker reports a stall flag that is set (R163); a rise from 0 enters STALLED_SECTION. -/
def Yard.reportStall (y : Yard) : Yard :=
  let z := y.modifyControl (fun m => { m with stall := m.stall + 1 })
  if y.control.stall = 0 then z.enterCause .stalledSection else z

/-- A section is reset from DISTURBED (R163). -/
def Yard.reportUndisturbed (y : Yard) : Yard := y.modifyControl (fun m => { m with disturbed := m.disturbed - 1 })

/-- A LOST point is restored (R163). -/
def Yard.reportRestored (y : Yard) : Yard := y.modifyControl (fun m => { m with lost := m.lost - 1 })

/-- A stall flag clears (R163). -/
def Yard.reportUnstalled (y : Yard) : Yard := y.modifyControl (fun m => { m with stall := m.stall - 1 })

/-- The stall flag of a section clears, if it is set, and the mode controller is told (R61). -/
def Yard.clearStallFlag (sid : SectionId) (y : Yard) : Yard :=
  match y.sectionOf sid with
  | some x =>
    if x.stallFlag then (y.putSection sid (some { x with stallFlag := false })).reportUnstalled else y
  | none => y

/-! ## Live conditions (R163) -/

/-- The condition that a halt cause names is live. STOP_REQUEST is no condition. -/
def ModeControl.live (m : ModeControl) : HaltCause → Bool
  | .stopRequest => false
  | .stopInput => m.stopFlag
  | .disturbedSection => decide (0 < m.disturbed)
  | .lostPoint => decide (0 < m.lost)
  | .stalledSection => decide (0 < m.stall)
  | .freeze => m.freezeFlag

/-- The first live condition in the order of R166. -/
def ModeControl.firstLive (m : ModeControl) : Option HaltCause :=
  [HaltCause.stopInput, .disturbedSection, .lostPoint, .stalledSection, .freeze].find? (fun c => m.live c)

/-! ## The hump permit (R171) -/

/-- The head of the pending list is a cut in state PENDING. -/
def Yard.headIsPendingCut (y : Yard) : Bool :=
  match y.pendingList.head? with
  | some i => ((y.cutAt i).map (fun c => c.state)) == some .pending
  | none => false

/-- PERMIT is asserted: HUMPING, a PENDING cut at the head of the list, freeze inactive (R171). -/
def permitLaw (y : Yard) : Bool :=
  (y.control.mode == .humping) && y.headIsPendingCut && !y.control.freezeFlag

/-- PERMIT and ATTN as they stand at the end of an event: each line changes in the event that changes its inputs
(R171, R178; log entry 19, DEDUCED). -/
def Yard.settle (y : Yard) : Yard :=
  { y with control := { y.control with permit := permitLaw y },
           notices := { y.notices with attn := attnLaw y.notices } }

/-- The state after an event that has turned its yard into y. -/
def State.withYard (s : State) (y : Yard) : State := { s with yard := y.settle }

end Sys2Proof.Machine
end

