-- ==== Sys2Proof/Machine/Ladder.lean ====
section
/-! DEFINITION. The ladder as configured (chapter 1): legs, tracks, routes, heads, sections, and the ladder check. -/

namespace Sys2Proof.Machine

open Sys2Proof

/-! ## Legs, feeding legs, routes (R2, R3, R4) -/

/-- The configuration of a point in use. -/
def Ladder.config (l : Ladder) (p : PointIx) : Option PointConfig := Table.look l.points p

/-- A point is in use (R2). -/
def Ladder.inUse (l : Ladder) (p : PointIx) : Bool := (l.config p).isSome

/-- The points in use, ascending. -/
def Ladder.pointsInUse (l : Ladder) : List PointIx := (List.finRange 40).filter (fun p => l.inUse p)

/-- The target of a leg by the configuration of its point. -/
def PointConfig.target (c : PointConfig) : Leg → Target
  | .N => c.normal
  | .R => c.reverse

/-- The fallback track of a leg. -/
def PointConfig.fallback (c : PointConfig) : Leg → Option TrackIx
  | .N => c.nFallback
  | .R => c.rFallback

/-- The target of a leg; none where the point is not in use. -/
def Ladder.target (l : Ladder) (p : PointIx) (leg : Leg) : Target :=
  match l.config p with
  | some c => c.target leg
  | none => .none

/-- The fallback track of a leg (R8). -/
def Ladder.fallback (l : Ladder) (p : PointIx) (leg : Leg) : Option TrackIx :=
  (l.config p).bind (fun c => c.fallback leg)

/-- The leg order P0/N, P0/R, P1/N and so on (R16). -/
def legOrder : List Pair := (List.finRange 40).flatMap (fun p => [(p, Leg.N), (p, Leg.R)])

/-- The first leg in the leg order that names a target (R3); no leg names the target none. -/
def Ladder.feeding (l : Ladder) (t : Target) : Option Pair :=
  if t = .none then none else legOrder.find? (fun pr => l.target pr.1 pr.2 == t)

/-- A track is in use (R3). -/
def Ladder.trackInUse (l : Ladder) (t : TrackIx) : Bool := (l.feeding (.track t)).isSome

/-- The point marked root, the first in ascending index (R2). -/
def Ladder.root (l : Ladder) : Option PointIx :=
  (List.finRange 40).find? (fun p => ((l.config p).map (fun c => c.isRoot)) == some true)

/-- The pairs from the root down to a leg, followed upward by feeding legs; at most `fuel` legs above it. -/
def Ladder.routeUp (l : Ladder) : Nat → Pair → List Pair → List Pair
  | 0, pr, below => pr :: below
  | n + 1, pr, below =>
    match l.feeding (.point pr.1) with
    | some up => l.routeUp n up (pr :: below)
    | none => pr :: below

/-- The route of a track in use: from the root to its feeding leg (R4). -/
def Ladder.routeOf (l : Ladder) (t : TrackIx) : List Pair :=
  match l.feeding (.track t) with
  | some pr => l.routeUp 40 pr []
  | none => []

/-- A track lies in the subtree of a leg: the leg is a pair of the track's route (R3, R4; log entry 27, DEDUCED). -/
def Ladder.inSubtree (l : Ladder) (p : PointIx) (leg : Leg) (t : TrackIx) : Bool := (l.routeOf t).contains (p, leg)

/-! ## Heads and sections (R5, R6, R7) -/

/-- The crest head C (R5). -/
def crestHead : HeadIx := 0
/-- The root entry head E (R5). -/
def entryHeadE : HeadIx := 1

/-- The head at the end of a leg: 2 + 2n and 3 + 2n (R5). -/
def legHead (p : PointIx) : Leg → HeadIx
  | .N => ⟨2 + 2 * p.val, by omega⟩
  | .R => ⟨3 + 2 * p.val, by omega⟩

/-- What a head is (R5). -/
inductive HeadPlace where
  | crest
  | entry
  | leg (p : PointIx) (l : Leg)
  deriving DecidableEq, Repr

/-- The place of a head (R5). -/
def headPlace (h : HeadIx) : HeadPlace :=
  if h.val = 0 then .crest
  else if h.val = 1 then .entry
  else .leg ⟨(h.val - 2) / 2, by omega⟩ (if h.val % 2 = 0 then .N else .R)

/-- A head is configured while the ladder uses it (R5). -/
def Ladder.headConfigured (l : Ladder) (h : HeadIx) : Bool :=
  match headPlace h with
  | .crest => !l.pointsInUse.isEmpty
  | .entry => !l.pointsInUse.isEmpty
  | .leg p _ => l.inUse p

/-- The entry head of a point's section (R6). -/
def Ladder.entryHead (l : Ladder) (p : PointIx) : HeadIx :=
  match l.feeding (.point p) with
  | some (up, leg) => legHead up leg
  | none => entryHeadE

/-- The section or track below a head (R44). -/
inductive Below where
  | area (sid : SectionId)
  | track (t : TrackIx)
  | nothing
  deriving DecidableEq, Repr

/-- The section above a head; none for C (R44). -/
def Ladder.sectionAbove (_l : Ladder) (h : HeadIx) : Option SectionId :=
  match headPlace h with
  | .crest => none
  | .entry => some .lead
  | .leg p _ => some (.point p)

/-- What lies below a head (R44). -/
def Ladder.below (l : Ladder) (h : HeadIx) : Below :=
  match headPlace h with
  | .crest => .area .lead
  | .entry =>
    match l.root with
    | some r => .area (.point r)
    | none => .nothing
  | .leg p leg =>
    match l.target p leg with
    | .point q => .area (.point q)
    | .track t => .track t
    | .none => .nothing

/-- The sections adjoining a head, the upper one first (R6). -/
def Ladder.adjoining (l : Ladder) (h : HeadIx) : List SectionId :=
  (l.sectionAbove h).toList ++
    (match l.below h with
     | .area sid => [sid]
     | .track _ => []
     | .nothing => [])

/-- The heads adjoining a section: C and E for the lead, the entry head and the two leg heads for a point (R62). C adjoins
the lead alone (R6, R36); what R104 says of the root's section is log entry 32 (DESIGN CHOICE), at `State.returnsToOk`. -/
def Ladder.headsOf (l : Ladder) : SectionId → List HeadIx
  | .lead => [crestHead, entryHeadE]
  | .point p => [l.entryHead p, legHead p .N, legHead p .R]

/-! ## The ladder check (R14 to R21) -/

/-- What a failure of a check carries: the index named, 255 for none, and the reason number (R14, R31). -/
abbrev CheckFailure := Nat × Nat

/-- Stage 1, the root (R15). -/
def Ladder.checkRoot (l : Ladder) : Option CheckFailure :=
  if l.pointsInUse.isEmpty then some (255, 1)
  else
    match l.pointsInUse.filter (fun p => ((l.config p).map (fun c => c.isRoot)) == some true) with
    | [] => some (255, 2)
    | [_] => none
    | _ :: second :: _ => some (second.val, 3)

/-- The legs of points in use before a leg in the leg order (R16). -/
def Ladder.legsBefore (l : Ladder) (pr : Pair) : List Pair :=
  (legOrder.takeWhile (fun x => !(x == pr))).filter (fun x => l.inUse x.1)

/-- The four tests of one leg of a point in use (R16). -/
def Ladder.checkLeg (l : Ladder) (pr : Pair) : Option CheckFailure :=
  let t := l.target pr.1 pr.2
  let named := (l.legsBefore pr).any (fun x => l.target x.1 x.2 == t)
  match t with
  | .none => some (pr.1.val, 4)
  | .point q =>
    if !l.inUse q then some (pr.1.val, 5)
    else if ((l.config q).map (fun c => c.isRoot)) == some true then some (pr.1.val, 6)
    else if named then some (pr.1.val, 7)
    else none
  | .track _ => if named then some (pr.1.val, 7) else none

/-- Stage 2, the legs (R16). -/
def Ladder.checkLegs (l : Ladder) : Option CheckFailure :=
  (legOrder.filter (fun pr => l.inUse pr.1)).findSome? (fun pr => l.checkLeg pr)

/-- Stage 3, the feeding (R17). -/
def Ladder.checkFed (l : Ladder) : Option CheckFailure :=
  (l.pointsInUse.find? (fun p =>
      !(((l.config p).map (fun c => c.isRoot)) == some true) && (l.feeding (.point p)).isNone)).map
    (fun p => (p.val, 8))

/-- The depth of a point, following feeding legs up to the root; none where the root is not met (R4, R18). -/
def Ladder.depthUp (l : Ladder) : Nat → PointIx → Option Nat
  | 0, _ => none
  | n + 1, p =>
    if ((l.config p).map (fun c => c.isRoot)) == some true then some 1
    else
      match l.feeding (.point p) with
      | some up => (l.depthUp n up.1).map (fun d => d + 1)
      | none => none

/-- The depth of a point (R4): no chain of distinct points is longer than 40. -/
def Ladder.depth (l : Ladder) (p : PointIx) : Option Nat := l.depthUp 40 p

/-- Stage 4, the tree (R18). -/
def Ladder.checkTree (l : Ladder) : Option CheckFailure :=
  match l.pointsInUse.find? (fun p => (l.depth p).isNone) with
  | some p => some (p.val, 9)
  | none =>
    (l.pointsInUse.find? (fun p => decide (Config.maxDepth < (l.depth p).getD 0))).map (fun p => (p.val, 10))

/-- Division rounded up. -/
def ceilDiv (a b : Nat) : Nat := (a + b - 1) / b

/-- The approach sufficiency check of a point (R20). -/
def approachSufficient (c : PointConfig) (k : Constants) : Bool :=
  decide (c.tThrow + k.guard ≤ (c.dApp * 10000) / ceilDiv (Config.vMax * (100 + c.grade)) 100)

/-- One fallback track of a point (R19). -/
def Ladder.checkFallback (l : Ladder) (p : PointIx) (leg : Leg) : Option CheckFailure :=
  match l.fallback p leg with
  | none => some (p.val, 11)
  | some t => if l.inSubtree p leg t then none else some (p.val, 12)

/-- The approach sufficiency check as a stage-5 test (R19). -/
def Ladder.checkApproach (l : Ladder) (p : PointIx) : Option CheckFailure :=
  match l.config p with
  | some c => if approachSufficient c l.consts then none else some (p.val, 13)
  | none => none

/-- Stage 5, the legs' fallback tracks and the approach distances (R19). -/
def Ladder.checkPoints (l : Ladder) : Option CheckFailure :=
  l.pointsInUse.findSome? (fun p =>
    (l.checkFallback p .N).orElse (fun _ => (l.checkFallback p .R).orElse (fun _ => l.checkApproach p)))

/-- Stage 6, the yard tracks (R21). -/
def Ladder.checkTracks (l : Ladder) : Option CheckFailure :=
  match l.consts.reject with
  | none => some (255, 14)
  | some r =>
    if !l.trackInUse r then some (255, 15)
    else
      match l.consts.defaultTrack with
      | some d => if l.trackInUse d then none else some (255, 16)
      | none => none

/-- The ladder check: the first failure of its six stages, none where it passes (R14). -/
def Ladder.check (l : Ladder) : Option CheckFailure :=
  l.checkRoot.orElse (fun _ => l.checkLegs.orElse (fun _ => l.checkFed.orElse (fun _ =>
    l.checkTree.orElse (fun _ => l.checkPoints.orElse (fun _ => l.checkTracks)))))

end Sys2Proof.Machine
end

