-- ==== Sys2Proof/Machine/Destination.lean ====
section
/-! DEFINITION. The destination unit (chapter 6): closure windows, block map, resolution, rerouting and accounts. -/

namespace Sys2Proof.Machine

open Sys2Proof

/-! ## Closure windows (R108) -/

/-- The highest track index in use. -/
def Ladder.highestTrack (l : Ladder) : Option TrackIx := ((List.finRange 41).filter (fun t => l.trackInUse t)).getLast?

/-- The effective last track of a window; none where no track is in use (R108, R124). -/
def Ladder.effectiveLast (l : Ladder) (w : Window) : Option Nat := l.highestTrack.map (fun h => min w.last h.val)

/-- A window is enabled: its effective last track is not below its first track (R108). -/
def Ladder.windowEnabled (l : Ladder) (w : Window) : Bool :=
  match l.effectiveLast w with
  | some last => decide (w.first ≤ last)
  | none => false

/-- An enabled window covers the track (R108). -/
def Ladder.windowCovers (l : Ladder) (w : Window) (t : TrackIx) : Bool :=
  match l.effectiveLast w with
  | some last => decide (w.first ≤ t.val) && decide (t.val ≤ last)
  | none => false

/-- At least one enabled window covers the track (R108). -/
def Yard.covered (y : Yard) (l : Ladder) (t : TrackIx) : Bool :=
  (List.finRange 4).any (fun i => l.windowCovers (Table.look y.windows i) t)

/-- The track is the reject track. -/
def Ladder.isReject (l : Ladder) (t : TrackIx) : Bool := l.consts.reject == some t

/-- A track is closed: covered, and not the reject track (R108). -/
def Yard.closed (y : Yard) (l : Ladder) (t : TrackIx) : Bool := y.covered l t && !l.isReject t

/-! ## The block map (R110, R111) -/

/-- A valid entry covers a block code (R110). -/
def MapEntry.covers (m : MapEntry) (code : Nat) : Bool := code / 2 ^ m.span == m.code / 2 ^ m.span

/-- The track of an entry that is not passed over (R111 step 1). -/
def Ladder.mapTrack (l : Ladder) (code : Nat) (m : Option MapEntry) : Option TrackIx :=
  match m with
  | some x => if x.covers code && l.trackInUse x.track then some x.track else none
  | none => none

/-- The reject track. A commissioned ladder has one (R21); before COMMISSION nothing asks for it (log entry 18, DESIGN CHOICE). -/
def Ladder.rejectTrack (l : Ladder) : TrackIx := l.consts.reject.getD 0

/-- The lookup of a block code: a track, and NO_BLOCK where it gives the reject track (R111). -/
def Yard.lookup (y : Yard) (l : Ladder) (code : Byte) : TrackIx × Option ResolutionCause :=
  match (List.finRange 32).findSome? (fun i => l.mapTrack code.toNat (Table.look y.blockMap i)) with
  | some t => (t, none)
  | none =>
    match l.consts.defaultTrack with
    | some d => (d, none)
    | none => (l.rejectTrack, some .noBlock)

/-! ## Tracks -/

/-- The record of a track. -/
def Yard.trackOf (y : Yard) (t : TrackIx) : Track := Table.look y.tracks t

/-- Change the record of a track. -/
def Yard.modifyTrack (t : TrackIx) (f : Track → Track) (y : Yard) : Yard :=
  { y with tracks := Table.put y.tracks t (f (y.trackOf t)) }

/-- Add axles to a track's reserved count (R107). -/
def Yard.reserve (t : TrackIx) (n : Nat) (y : Yard) : Yard := y.modifyTrack t (fun x => { x with reserved := x.reserved + n })

/-- Remove axles from a track's reserved count (R107). -/
def Yard.release (t : TrackIx) (n : Nat) (y : Yard) : Yard := y.modifyTrack t (fun x => { x with reserved := x.reserved - n })

/-- The room test: the track is the reject track, or has no limit, or the sum stays within the capacity (R113, R80).
`reserved` is the reserved count that the sum takes. -/
def Ladder.hasRoom (l : Ladder) (t : TrackIx) (x : Track) (reserved axles : Nat) : Bool :=
  l.isReject t || x.capacity == 0 || decide (x.fill + reserved + axles ≤ x.capacity)

/-! ## Resolution (R113) -/

/-- Steps 1 to 3 of the resolution: the track and the cause. -/
def Yard.resolution (y : Yard) (l : Ladder) (dest : Destination) (axles : Nat) : TrackIx × Option ResolutionCause :=
  let judged : TrackIx × Option ResolutionCause → TrackIx × Option ResolutionCause := fun r =>
    if y.closed l r.1 then (l.rejectTrack, some .trackClosed)
    else if l.hasRoom r.1 (y.trackOf r.1) (y.trackOf r.1).reserved axles then r
    else (l.rejectTrack, some .trackFull)
  match dest with
  | .block code => judged (y.lookup l code)
  | .track t => if l.trackInUse t then judged (t, none) else (l.rejectTrack, some .noBlock)

/-! ## Rerouting (R114) -/

/-- Reroute the cut in a slot to a track with the resolution cause the caller gives: its reservation, resolved track
and route move; its progress stays. Where the track is the one it is bound for, only the cause is set. -/
def Yard.reroute (e : Env) (i : SlotIx) (t : TrackIx) (cause : Option ResolutionCause) (y : Yard) : Yard :=
  match y.cutAt i with
  | some c =>
    match c.started with
    | some x =>
      if !c.onLadder then y
      else if t = x.resolved then y.modifyStarted i (fun z => { z with cause := cause })
      else
        ((y.release x.resolved c.axles).reserve t c.axles).modifyStarted i
          (fun z => { z with resolved := t, route := e.ladder.routeOf t, cause := cause })
    | none => y
  | none => y

/-! ## Arrival and loss (R118, R119) -/

/-- The arrival of axles in a track: fill, reserved count, OVERFILL (R118). -/
def Yard.account (l : Ladder) (t : TrackIx) (axles : Nat) (y : Yard) : Yard :=
  let fill := min ((y.trackOf t).fill + axles) Config.maxFill
  let z := (y.modifyTrack t (fun x => { x with fill := fill })).release t axles
  let x := z.trackOf t
  if !l.isReject t && decide (0 < x.capacity) && decide (x.capacity < x.fill) then z.raise (.track t) 1 else z

/-- The loss of a cut removes its axles from the reserved count of its resolved track (R119). -/
def Yard.releaseLost (c : Cut) (y : Yard) : Yard :=
  match c.started with
  | some x => y.release x.resolved c.axles
  | none => y

end Sys2Proof.Machine
end

