-- ==== Sys2Proof/Machine/Drive.lean ====
section
/-! DEFINITION. Diversion (R151, R152, R154), the waiting list (R131), the arbiter of the drive slots (R132, R133) and
the taking out of waiting entries (R134). -/

namespace Sys2Proof.Machine

open Sys2Proof

/-! ## Diversion -/

/-- Add an entry at the end of a diversion list, at most one for each point (R154). -/
def addDiversion (q : PointIx) (cause : DiversionCause) (before : TrackIx) (l : List Diversion) : List Diversion :=
  if l.any (fun d => d.point == q) then l else l ++ [{ point := q, cause := cause, before := before }]

/-- Steps 2 to 4 of a diversion: reroute the cut into a leg of a point, record it, raise DIVERTED (R115, R151). -/
def Yard.divertInto (e : Env) (i : SlotIx) (q : PointIx) (leg : Leg) (cause : DiversionCause) (y : Yard) : Yard :=
  match y.startedAt i, e.ladder.fallback q leg with
  | some x, some t =>
    ((y.reroute e i t none).modifyStarted i
      (fun z => { z with diversions := addDiversion q cause x.resolved z.diversions })).raiseCut i .diverted
  | _, _ => y

/-- An early diversion after its first step: the cut at the head of a point's queue is diverted into the leg the point
lies in, and the planning state becomes DIVERTED (R151). The point is at rest wherever this is asked. -/
def Yard.divertEarly (e : Env) (q : PointIx) (i : SlotIx) (cause : DiversionCause) (y : Yard) : Yard :=
  match y.pointLie q with
  | some m =>
    (y.divertInto e i q m cause).modifyPlan q
      (fun r => { r with state := .diverted, head := some i, needed := some m })
  | none => y

/-! ## The waiting list (R131) -/

/-- The place of a deadline in the order of R131: the distance from the present instant, which lies below 2^31, with 2^31
added. A deadline whose expiry is overdue (log entry 3, DESIGN CHOICE) lies less than 2^31 ticks behind the present instant
and comes before all that are ahead, the oldest first. -/
def deadlineRank (now deadline : Instant) : Nat := (deadline - now + BitVec.ofNat 32 Config.halfRange).toNat

/-- The first of two entries stands before the second: DEADLINE before MANUAL, the nearer deadline first, equal
deadlines by point index (R131). -/
def standsBefore (now : Instant) (a b : Waiting) : Bool :=
  match a.claim, b.claim with
  | .deadline da _, .deadline db _ =>
    let x := deadlineRank now da
    let z := deadlineRank now db
    decide (x < z) || (x == z && decide (a.point.val < b.point.val))
  | .deadline _ _, .manual => true
  | .manual, _ => false

/-- Place an entry where R131 orders it. -/
def insertWaiting (now : Instant) (w : Waiting) (l : List Waiting) : List Waiting :=
  l.takeWhile (fun x => !standsBefore now w x) ++ w :: l.dropWhile (fun x => !standsBefore now w x)

/-- Place an entry; a point that already has one leaves the list as it stands (R131). -/
def Yard.placeWaiting (e : Env) (w : Waiting) (y : Yard) : Yard :=
  if (y.waitingOf w.point).isSome then y else { y with waiting := insertWaiting e.now w y.waiting }

/-- The entry is a DEADLINE entry whose deadline has passed (R133). -/
def Waiting.expired (now : Instant) (w : Waiting) : Bool :=
  match w.claim with
  | .deadline d _ => laterThan now d
  | .manual => false

/-- The entry's point is at rest and not barred, and its section is CLEAR (R132). -/
def Yard.eligible (y : Yard) (w : Waiting) : Bool :=
  (y.pointLie w.point).isSome && !(((y.pointOf w.point).map (fun x => x.barred)) == some true)
    && y.sectionClear (.point w.point)

/-- The kind of a throw that an entry claims. -/
def Claim.kind : Claim → ThrowKind
  | .deadline _ _ => .deadline
  | .manual => .manual

/-- The ticks of a point's throw limit (R132). -/
def Env.throwTicks (e : Env) (p : PointIx) : Nat :=
  Config.ticksPerMs * ((e.ladder.config p).map (fun c => c.tThrow)).getD 0

/-- The planner's part of a grant: a DEADLINE entry's point is SET (R150). -/
def Yard.grantPlanned (w : Waiting) (y : Yard) : Yard :=
  match w.claim with
  | .deadline _ _ => y.modifyPlan w.point (fun r => { r with state := .set })
  | .manual => y

/-- Grant an entry that has left the list (R132). -/
def Yard.grant (e : Env) (w : Waiting) (y : Yard) : Yard :=
  match y.pointLie w.point with
  | some origin =>
    ((({ y with slotsInUse := y.slotsInUse + 1 }).setPointState w.point
        (.moving w.target origin (after e.now (e.throwTicks w.point)) w.claim.kind)).energise w.point w.target).grantPlanned w
  | none => y

/-- The planner is told of an expired entry that has left the list: the cut at the head of the point's queue is
diverted (R133, R150). -/
def Yard.expireEntry (e : Env) (w : Waiting) (cause : DiversionCause) (y : Yard) : Yard :=
  match y.queueHead w.point with
  | some i => y.divertEarly e w.point i cause
  | none => y

/-- The arbiter: while a slot is free and freeze is inactive it grants the first entry; an expired first entry is
removed; a first entry that is not eligible is not skipped over (R132, R133). -/
def Yard.arbiter (e : Env) : Nat → Yard → Yard
  | 0, y => y
  | n + 1, y =>
    if y.slotsInUse < e.ladder.consts.slots ∧ y.control.freezeFlag = false then
      match y.waiting with
      | [] => y
      | w :: rest =>
        if w.expired e.now then (({ y with waiting := rest }).expireEntry e w .late).arbiter e n
        else if y.eligible w then (({ y with waiting := rest }).grant e w).arbiter e n
        else y
    else y

/-- The arbiter acts (R132): it takes each entry of the list at most once. -/
def Yard.arbitrate (e : Env) (y : Yard) : Yard := y.arbiter e y.waiting.length

/-! ## Taking entries out -/

/-- What a point's waiting entry claims, if it has one. -/
def Yard.claimOf (y : Yard) (p : PointIx) : Option Claim := (y.waitingOf p).map (fun w => w.claim)

/-- Take out a point's entry, if it has one; the arbiter acts on the list that is left (R132). -/
def Yard.dropWaiting (e : Env) (p : PointIx) (y : Yard) : Yard :=
  if (y.waitingOf p).isSome then (y.removeWaiting p).arbitrate e else y

/-- Withdraw a point's DEADLINE entry, if it has one. -/
def Yard.withdrawDeadline (e : Env) (p : PointIx) (y : Yard) : Yard :=
  match y.claimOf p with
  | some (.deadline _ _) => y.dropWaiting e p
  | _ => y

/-- Withdraw a point's DEADLINE entry if it was made for the cut in a slot (R146, R147). -/
def Yard.withdrawFor (e : Env) (p : PointIx) (i : SlotIx) (y : Yard) : Yard :=
  match y.claimOf p with
  | some (.deadline _ c) => if c = i then y.dropWaiting e p else y
  | _ => y

/-- Cancel a point's MANUAL entry, if it has one, and raise MANUAL_CANCELLED (R128, R134). -/
def Yard.cancelManual (e : Env) (p : PointIx) (y : Yard) : Yard :=
  match y.claimOf p with
  | some .manual => ((y.removeWaiting p).raisePoint p .manualCancelled).arbitrate e
  | _ => y

/-- A point's section has ceased to be CLEAR: its DEADLINE entry is withdrawn and the planner waits for clear, its
MANUAL entry is cancelled (R134, R150). -/
def Yard.sectionNotClear (e : Env) (p : PointIx) (y : Yard) : Yard :=
  match y.claimOf p with
  | some (.deadline _ _) =>
    ((y.removeWaiting p).modifyPlan p (fun r => { r with state := .waitingClear })).arbitrate e
  | some .manual => y.cancelManual e p
  | none => y

end Sys2Proof.Machine
end

