-- ==== Sys2Proof/Machine/Planner.lean ====
section
/-! DEFINITION. The throw planner (chapter 8): the throw test and the evaluation of a point. -/

namespace Sys2Proof.Machine

open Sys2Proof

/-! ## The throw test (R143 to R145) -/

/-- The speed at the approach head, clamped to the fixed bounds (R143). -/
def approachSpeed (spacing interval : Nat) : Nat :=
  min (max (ceilDiv (spacing * 10000) interval) Config.vMin) Config.vMax

/-- The allowed speed v' (R144). -/
def allowedSpeed (speed grade : Nat) : Nat := ceilDiv (speed * (100 + grade)) 100

/-- The arrival time in milliseconds after the approach instant (R144). -/
def arrivalTime (dApp allowed : Nat) : Nat := dApp * 10000 / allowed

/-- The margin K in milliseconds (R144). -/
def margin (arrival tThrow guard : Nat) : Int := (arrival : Int) - (tThrow : Int) - (guard : Int)

/-- The ticks elapsed since an approach instant, taken as 2^31 where that many or more have elapsed (R145). -/
def elapsedTicks (approach now : Instant) (longAgo : Bool) : Nat :=
  if longAgo then Config.halfRange else min (ticksBetween approach now) Config.halfRange

/-- The deadline: the approach instant plus 10 × K ticks (R145). -/
def deadlineOf (approach : Instant) (k : Int) : Instant := approach + BitVec.ofInt 32 (10 * k)

/-- The throw test of a queue entry at a point (R143 to R145). -/
def throwTest (k : Constants) (c : PointConfig) (q : QueueEntry) (now : Instant) : Test :=
  let v := approachSpeed k.spacing q.interval
  let v' := allowedSpeed v c.grade
  let t := arrivalTime c.dApp v'
  let m := margin t c.tThrow k.guard
  { speed := v, allowed := v', arrival := t, margin := m, deadline := deadlineOf q.instant m,
    pass := decide ((ceilDiv (elapsedTicks q.instant now q.longAgo) Config.ticksPerMs : Int) ≤ m), at_ := now }

/-! ## Evaluation (R146, R148, R149) -/

/-- What the state of a point means for a cut that needs a leg (R148). -/
inductive Lie where
  /-- Case 2: the point lies in the leg or is moving toward it. -/
  | serves
  /-- Case 3: the point is LOST or RETURNING, or MOVING away. -/
  | unjudged
  /-- Cases 4 to 6: at rest in the other leg. -/
  | against
  deriving DecidableEq, Repr

/-- How a point in a state lies for a leg (R148). -/
def PointState.liesFor (st : PointState) (leg : Leg) : Lie :=
  match st with
  | .proved l => if l = leg then .serves else .against
  | .faulty l _ => if l = leg then .serves else .against
  | .moving l _ _ _ => if l = leg then .serves else .unjudged
  | .returning _ _ _ => .unjudged
  | .lost _ => .unjudged

/-- The point will not be thrown: barred or FAULTY (R149 case 4). -/
def Point.unavailable (x : Point) : Bool :=
  x.barred || (match x.state with | .faulty _ _ => true | _ => false)

/-- The cut's diversion list holds an entry for the point. -/
def Yard.divertedAt (y : Yard) (i : SlotIx) (q : PointIx) : Bool :=
  ((y.startedAt i).map (fun x => x.diversions.any (fun d => d.point == q))) == some true

/-- An early diversion with its first step (R151). -/
def Yard.divertAtHead (e : Env) (q : PointIx) (i : SlotIx) (cause : DiversionCause) (y : Yard) : Yard :=
  (y.withdrawFor e q i).divertEarly e q i cause

/-- Case 6: the throw test for the head of the queue, then a DEADLINE entry or a diversion LATE (R149). -/
def Yard.testHead (e : Env) (q : PointIx) (c : PointConfig) (h : QueueEntry) (leg : Leg) (y : Yard) : Yard :=
  let t := throwTest e.ladder.consts c h e.now
  let z := (y.modifyStarted h.slot (fun x => { x with speed := some t.allowed })).modifyPlan q
    (fun r => { r with test := some t })
  if t.pass then
    let w := z.modifyPlan q (fun r => { r with state := .requested })
    if (w.waitingOf q).isSome then w
    else (w.placeWaiting e { point := q, target := leg, claim := .deadline t.deadline h.slot }).arbitrate e
  else z.divertAtHead e q h.slot .late

/-- Cases 2 to 6 for the head of the queue and the leg it needs (R148, R149). -/
def Yard.judgeHead (e : Env) (q : PointIx) (c : PointConfig) (x : Point) (h : QueueEntry) (leg : Leg) (y : Yard) :
    Yard :=
  match x.state.liesFor leg with
  | .serves =>
    (y.withdrawDeadline e q).modifyPlan q
      (fun r => { r with state := if y.divertedAt h.slot q then .diverted else .set })
  | .unjudged => y.modifyPlan q (fun r => { r with state := .waitingPoint })
  | .against =>
    if x.unavailable then y.divertAtHead e q h.slot .pointUnavailable
    else if y.sectionClear (.point q) then y.testHead e q c h leg
    else y.modifyPlan q (fun r => { r with state := .waitingClear })

/-- The comparison that precedes an evaluation: where the queue's head is not the recorded head cut, the entry made for
the recorded cut is withdrawn and the last test removed (R146). -/
def Yard.renewHead (e : Env) (q : PointIx) (y : Yard) : Yard :=
  match y.planOf q with
  | some r =>
    if r.head = y.queueHead q then y
    else
      let z := match r.head with
        | some i => y.withdrawFor e q i
        | none => y
      z.modifyPlan q (fun p => { p with head := y.queueHead q, test := none })
  | none => y

/-- The evaluation of a point (R146, R148, R149); nothing happens where the point has no records. -/
def Yard.evaluate (e : Env) (q : PointIx) (y : Yard) : Yard :=
  let y := y.renewHead e q
  match (y.queueOf q).head? with
  | none => y.modifyPlan q (fun _ => Plan.idle)
  | some h =>
    match y.pointOf q, e.ladder.config q, (y.startedAt h.slot).bind (fun x => x.legAt q) with
    | some x, some c, some leg =>
      (y.modifyPlan q (fun r => { r with head := some h.slot, needed := some leg })).judgeHead e q c x h leg
    | _, _, _ => y

end Sys2Proof.Machine
end

