-- ==== Sys2Proof/Machine/PointControl.lean ====
section
/-! DEFINITION. The point drive unit's events (chapter 7): loss of a point, detection changes, the ends of a throw. -/

namespace Sys2Proof.Machine

open Sys2Proof

/-- De-energise a point's drive lines, free its slot and let the arbiter act (R128 step 1, R130). -/
def Yard.freeDrive (e : Env) (p : PointIx) (y : Yard) : Yard :=
  ({ y.releaseDrive p with slotsInUse := y.slotsInUse - 1 }).arbitrate e

/-- Remove the waiting entry of a point that is being lost: a DEADLINE entry is withdrawn, a MANUAL entry cancelled
(R128 step 2). -/
def Yard.dropLost (e : Env) (p : PointIx) (y : Yard) : Yard :=
  match y.claimOf p with
  | some (.deadline _ _) => y.dropWaiting e p
  | some .manual => y.cancelManual e p
  | none => y

/-- A point becomes LOST with a cause, in the six steps of R128; a point already LOST keeps its first cause. -/
def Yard.losePoint (e : Env) (p : PointIx) (cause : FaultCause) (y : Yard) : Yard :=
  match y.pointOf p with
  | some x =>
    if x.state.isLost then y
    else
      let a := if x.state.inMotion then y.freeDrive e p else y
      ((((a.dropLost e p).setPointState p (.lost cause)).raisePoint p .lost).reportLost).evaluate e p
  | none => y

/-- An axle enters the section of a point: a point in motion becomes LOST (R137). -/
def Yard.axleAtPoint (e : Env) (p : PointIx) (y : Yard) : Yard :=
  if y.pointInMotion p then y.losePoint e p .enteredDuringThrow else y

/-- A point's section becomes DISTURBED: a point in motion becomes LOST (R55, R137); the entry of a point at rest is
taken out (R134). -/
def Yard.sectionTold (e : Env) (sid : SectionId) (y : Yard) : Yard :=
  match sid with
  | .lead => y
  | .point q => if y.pointInMotion q then y.losePoint e q .sectionDisturbed else y.sectionNotClear e q

/-- The leg that a pair of detection levels proves (R125). -/
def provedLeg (detectN detectR : Bool) : Option Leg :=
  match detectN, detectR with
  | true, false => some .N
  | false, true => some .R
  | _, _ => none

/-- The completion of a throw in its target (R135). -/
def Yard.completeThrow (e : Env) (p : PointIx) (l : Leg) (y : Yard) : Yard :=
  ((y.setPointState p (.proved l)).freeDrive e p).evaluate e p

/-- The completion of a return in the origin (R136). -/
def Yard.completeReturn (e : Env) (p : PointIx) (l : Leg) (y : Yard) : Yard :=
  (((y.setPointState p (.faulty l .throwFailed)).freeDrive e p).raisePoint p .faulty).evaluate e p

/-- What a point in a state does on new detection (R127). Only a delivered change acts: a point that turns RETURNING while
its detection already proves the origin waits for the next change (log entry 29, DEDUCED). -/
def Yard.actOnDetection (e : Env) (p : PointIx) (st : PointState) (shown : Option Leg) (y : Yard) : Yard :=
  match st, shown with
  | .proved l, some m => if m = l then y else y.losePoint e p .unexpectedMove
  | .proved _, none => y.losePoint e p .detectionLost
  | .faulty l _, some m => if m = l then y else y.losePoint e p .unexpectedMove
  | .faulty _ _, none => y.losePoint e p .detectionLost
  | .moving l _ _ _, some m => if m = l then y.completeThrow e p l else y
  | .moving _ _ _ _, none => y
  | .returning l _ _, some m => if m = l then y.completeReturn e p l else y
  | .returning _ _ _, none => y
  | .lost _, _ => y

/-- A detection change of a point: the levels are stored, then acted on (R127). -/
def Yard.detectionChange (e : Env) (p : PointIx) (detectN detectR : Bool) (y : Yard) : Yard :=
  match y.pointOf p with
  | some x =>
    (y.modifyPoint p (fun z => { z with detectN := detectN, detectR := detectR })).actOnDetection e p x.state
      (provedLeg detectN detectR)
  | none => y

/-- The throw timer of a MOVING point expires: it returns to its origin (R136). -/
def Yard.throwTimeout (e : Env) (p : PointIx) (y : Yard) : Yard :=
  match y.pointStateOf p with
  | some (.moving _ origin expiry kind) =>
    if atOrAfter e.now expiry then
      (y.energise p origin).setPointState p (.returning origin (after expiry (e.throwTicks p)) kind)
    else y
  | _ => y

/-- The throw timer of a RETURNING point expires: it becomes LOST (R136). -/
def Yard.returnFailed (e : Env) (p : PointIx) (y : Yard) : Yard :=
  match y.pointStateOf p with
  | some (.returning _ expiry _) => if atOrAfter e.now expiry then y.losePoint e p .returnFailed else y
  | _ => y

/-- The cause of an expiry: FROZEN under freeze, LATE otherwise (R133). -/
def Yard.expiryCause (y : Yard) : DiversionCause := if y.control.freezeFlag then .frozen else .late

/-- The expiry of a point's DEADLINE entry: it leaves the list, the planner diverts the head, the arbiter acts (R133). -/
def Yard.deadlineExpiry (e : Env) (p : PointIx) (y : Yard) : Yard :=
  match y.waitingOf p with
  | some w =>
    if w.expired e.now then ((y.removeWaiting p).expireEntry e w y.expiryCause).arbitrate e else y
  | none => y

end Sys2Proof.Machine
end

