-- ==== Sys2Proof/Machine/Tracker.lean ====
section
/-! DEFINITION. The section tracker (chapter 3): queues, disturbance and loss, attribution of passages, stall timers. -/

namespace Sys2Proof.Machine

open Sys2Proof

/-! ## Approach queues (R42, R147) -/

/-- A cut stands in a point's approach queue. -/
def Yard.inQueue (y : Yard) (q : PointIx) (i : SlotIx) : Bool := (y.queueOf q).any (fun x => x.slot == i)

/-- A cut leaves a point's queue: the planner withdraws the entry made for its head cut and returns to IDLE (R147). -/
def Yard.departQueue (e : Env) (q : PointIx) (i : SlotIx) (y : Yard) : Yard :=
  let z := y.putQueue q ((y.queueOf q).filter (fun x => !(x.slot == i)))
  match z.planOf q with
  | some r => if r.head = some i then (z.withdrawFor e q i).modifyPlan q (fun _ => Plan.idle) else z
  | none => z

/-- A new head, where the queue has one, is evaluated if the cut that left was the head (R42, R146). -/
def Yard.evaluateNewHead (e : Env) (q : PointIx) (wasHead : Bool) (y : Yard) : Yard :=
  if wasHead && !(y.queueOf q).isEmpty then y.evaluate e q else y

/-- A cut leaves a point's queue with the effect of R42 on a new head. -/
def Yard.leaveQueue (e : Env) (q : PointIx) (i : SlotIx) (y : Yard) : Yard :=
  if y.inQueue q i then (y.departQueue e q i).evaluateNewHead e q (y.queueHead q == some i) else y

/-- A cut leaves whatever approach queue it stands in (R57 step 2). -/
def Yard.leaveQueues (e : Env) (i : SlotIx) (y : Yard) : Yard :=
  match (List.finRange 40).find? (fun q => y.inQueue q i) with
  | some q => y.leaveQueue e q i
  | none => y

/-- The entry of a cut in an approach queue: its slot with the instant and the interval of the passage that brought it
(R42). -/
def Passage.entryOf (pass : Passage) (i : SlotIx) : QueueEntry :=
  { slot := i, instant := pass.instant, interval := pass.interval, longAgo := pass.longAgo }

/-- A cut joins a point's queue with a passage: a MANUAL entry of the point is cancelled, and a cut that joins an empty queue
is evaluated (R42, R134). -/
def Yard.joinQueue (e : Env) (q : PointIx) (i : SlotIx) (pass : Passage) (y : Yard) : Yard :=
  let z := y.cancelManual e q
  let w := z.putQueue q (z.queueOf q ++ [pass.entryOf i])
  if (y.queueOf q).isEmpty then w.evaluate e q else w

/-! ## Counts, stall timers, CLEAR and OCCUPIED (R40, R41, R60) -/

/-- The raw count of a section rises by 1, held at 255 (R56). -/
def Yard.raiseRaw (sid : SectionId) (y : Yard) : Yard :=
  y.modifySection sid (fun x => { x with count := min (x.count + 1) Config.maxCount })

/-- The raw count of a section falls by 1, held at 0 (R56). -/
def Yard.lowerRaw (sid : SectionId) (y : Yard) : Yard := y.modifySection sid (fun x => { x with count := x.count - 1 })

/-- The instant at which a stall timer started now expires (R60). -/
def stallExpiry (e : Env) (x : Section) : Instant := after e.now (Config.ticksPerSecond * x.stallLimit)

/-- The section's axle count would pass 255 with one more axle (R49). -/
def Yard.sectionFull (y : Yard) (sid : SectionId) : Bool :=
  match y.sectionOf sid with
  | some x => decide (Config.maxCount ≤ x.count)
  | none => false

/-- The section's list holds an entry of the cut. -/
def Yard.lists (y : Yard) (sid : SectionId) (i : SlotIx) : Bool :=
  match y.sectionOf sid with
  | some x => x.occupants.any (fun o => o.slot == i)
  | none => false

/-- The section's list holds an entry of another cut (R152). -/
def Yard.listsOther (y : Yard) (sid : SectionId) (i : SlotIx) : Bool :=
  match y.sectionOf sid with
  | some x => x.occupants.any (fun o => !(o.slot == i))
  | none => false

/-- The axle count that an occupant list gives: the sum of entered minus exited (R40). -/
def axleCount (l : List Occupant) : Nat := (l.map (fun o => o.entered - o.exited)).sum

/-- A section with another occupant list, and the axle count of that list (R40). -/
def Section.relist (l : List Occupant) (x : Section) : Section := { x with occupants := l, count := axleCount l }

/-- A cut's leading axle is recorded in a section that is not DISTURBED: a new entry 1/0, the count rises, and a CLEAR
section becomes OCCUPIED with its stall timer started (R41, R48 step 3, R60). -/
def Yard.occupy (e : Env) (sid : SectionId) (i : SlotIx) (y : Yard) : Yard :=
  let z := y.modifySection sid (fun x =>
    { x.relist (x.occupants ++ [{ slot := i, entered := 1, exited := 0 }]) with
        state := .occupied,
        stallTimer := if x.state = .clear then some (stallExpiry e x) else x.stallTimer })
  match sid with
  | .lead => z
  | .point q => z.sectionNotClear e q

/-- An occupant list after one more axle of a cut has entered: its entry, the first of its slot, gains one (R49). -/
def enterMore (i : SlotIx) : List Occupant → List Occupant
  | [] => []
  | o :: l => if o.slot = i then { o with entered := o.entered + 1 } :: l else o :: enterMore i l

/-- A further axle of a cut is credited to its entry (R49). -/
def Yard.credit (sid : SectionId) (i : SlotIx) (y : Yard) : Yard :=
  y.modifySection sid (fun x => x.relist (enterMore i x.occupants))

/-- The last entry has left a section's list: it becomes CLEAR, its stall timer stops, its flag clears, and the planner
evaluates its point (R41). -/
def Yard.becomeClear (e : Env) (sid : SectionId) (y : Yard) : Yard :=
  let z := (y.clearStallFlag sid).modifySection sid (fun x => { x with state := .clear, stallTimer := none })
  match sid with
  | .lead => z
  | .point q => z.evaluate e q

/-- An exit leaves the section OCCUPIED: its stall timer restarts and a set flag clears (R44, R60, R61). -/
def Yard.restartStall (e : Env) (sid : SectionId) (y : Yard) : Yard :=
  (y.clearStallFlag sid).modifySection sid (fun x => { x with stallTimer := some (stallExpiry e x) })

/-! ## Disturbance and loss (R55, R57) -/

/-- A section becomes DISTURBED: state, cause, stall timer and flag, and its list emptied; the raw count starts from the
axle count (R55). -/
def Yard.markDisturbed (cause : DisturbCause) (sid : SectionId) (y : Yard) : Yard :=
  (y.clearStallFlag sid).modifySection sid (fun x =>
    { x with state := .disturbed, cause := some cause, stallTimer := none, occupants := [] })

/-- The section exists and is not DISTURBED. -/
def Yard.trusted (y : Yard) (sid : SectionId) : Bool :=
  match y.sectionState sid with
  | some .clear => true
  | some .occupied => true
  | some .disturbed => false
  | none => false

/-- The cuts listed in a section. -/
def Yard.listed (y : Yard) (sid : SectionId) : List SlotIx :=
  match y.sectionOf sid with
  | some x => x.occupants.map (fun o => o.slot)
  | none => []

/-- The effects of one section's disturbance after it is marked: its listed cuts become LOST, the point drive unit and
the mode controller are told, the notice is raised (R55), in the order of the list (log entry 16, DEDUCED). R55 gives the losses no order among
themselves: they come in the order of the occupant list, the oldest entry first (log entry 33, DESIGN CHOICE). `lose` is the
loss of a cut. -/
def Yard.afterDisturbed (lose : SlotIx → Yard → Yard) (e : Env) (sid : SectionId) (cuts : List SlotIx) (y : Yard) :
    Yard :=
  (((cuts.foldl (fun z i => lose i z) y).sectionTold e sid).reportDisturbed).raiseDisturbed sid

/-- Several sections become DISTURBED with one cause in one event: those not yet DISTURBED are all marked before the
effects of any of them run (R53, R54, R57; log entry 15, DESIGN CHOICE). -/
def Yard.disturbWith (lose : SlotIx → Yard → Yard) (e : Env) (cause : DisturbCause) (sids : List SectionId) (y : Yard) :
    Yard :=
  let fresh := (sids.filter (fun sid => y.trusted sid)).dedup
  let cuts := fresh.map (fun sid => (sid, y.listed sid))
  let marked := fresh.foldl (fun z sid => z.markDisturbed cause sid) y
  cuts.foldl (fun z r => z.afterDisturbed lose e r.1 r.2) marked

/-- Remove a cut's entry from a section's list, its count left as it stands (R57 step 3). -/
def Yard.removeOccupant (sid : SectionId) (i : SlotIx) (y : Yard) : Yard :=
  y.modifySection sid (fun x => { x with occupants := x.occupants.filter (fun o => !(o.slot == i)) })

/-- The loss of the entering cut turns the crest to ABSORBING (R98). -/
def Yard.absorbIfEntering (i : SlotIx) (y : Yard) : Yard :=
  match y.crest.state with
  | .entering j x => if j = i then { y with crest := { y.crest with state := .absorbing (some j) x } } else y
  | .idle => y
  | .absorbing _ _ => y

/-- The loss of a cut with the cascade bounded by a depth (R57): a cut that is not ENTERING or ROLLING is not changed. -/
def Yard.loseAt (e : Env) : Nat → SlotIx → Yard → Yard
  | 0, _, y => y
  | n + 1, i, y =>
    match y.cutAt i with
    | some c =>
      if c.onLadder then
        let a := (y.modifyCut i (fun z => { z with state := .lost })).leaveQueues e i
        let held := allSections.filter (fun sid => a.lists sid i)
        let b := held.foldl (fun z sid => z.removeOccupant sid i) a
        let d := b.disturbWith (fun j z => Yard.loseAt e n j z) e .lostCut held
        ((d.releaseLost c).raiseCut i .lost).absorbIfEntering i
      else y
    | none => y

/-- The depth that the cascade cannot pass: each level disturbs a section anew, and there are 41. -/
def cascadeDepth : Nat := 42

/-- A cut becomes LOST (R57). -/
def Yard.loseCut (e : Env) (i : SlotIx) (y : Yard) : Yard := y.loseAt e cascadeDepth i

/-- Sections become DISTURBED with a cause (R55). -/
def Yard.disturb (e : Env) (cause : DisturbCause) (sids : List SectionId) (y : Yard) : Yard :=
  y.disturbWith (fun i z => z.loseCut e i) e cause sids

/-! ## Marks on a cut -/

/-- Mark a cut HAZARD and raise the reason, if it was not already marked (R46, R153). -/
def Yard.markHazard (i : SlotIx) (y : Yard) : Yard :=
  match y.startedAt i with
  | some x => if x.hazard then y else (y.modifyStarted i (fun z => { z with hazard := true })).raiseCut i .hazard
  | none => y

/-- A ROLLING cut arrives at the end of its route (R51, R118); an ENTERING cut does not arrive (R72). -/
def Yard.arrive (e : Env) (i : SlotIx) (y : Yard) : Yard :=
  match y.cutAt i with
  | some c =>
    match c.started with
    | some x =>
      if c.state = .rolling then
        ((y.modifyCut i (fun z => { z with state := .arrived, actual := some x.resolved })).account e.ladder x.resolved
          c.axles).raiseCut i .arrived
      else y
    | none => y
  | none => y

/-- The cut has all its axles in its track. -/
def Yard.complete (y : Yard) (i : SlotIx) : Bool :=
  match y.cutAt i with
  | some c => (c.started.map (fun x => x.inTrack)) == some c.axles
  | none => false

/-! ## The exit step (R44, R45) -/

/-- The entry has an axle in the section (R44). -/
def Occupant.present (o : Occupant) : Bool := decide (o.exited < o.entered)

/-- An occupant list after one exit: the first entry with an axle in the section gains the exit, and leaves the list when
its exits reach its cut's axle count (R40, R44). -/
def exitFirst (axles : SlotIx → Nat) : List Occupant → List Occupant
  | [] => []
  | o :: l =>
    if o.present then
      if o.exited + 1 = axles o.slot then l else { o with exited := o.exited + 1 } :: l
    else o :: exitFirst axles l

/-- The axle count of the cut in a slot. -/
def Yard.axlesOf (y : Yard) (i : SlotIx) : Nat := ((y.cutAt i).map (fun c => c.axles)).getD 0

/-- The exit of an axle from a section: the cut it is attributed to and whether it is that cut's first axle to leave
(R44; log entry 21, DEDUCED), or no cut (R44, R45). -/
def Yard.takeOut (e : Env) (sid : SectionId) (y : Yard) : Option (SlotIx × Bool) × Yard :=
  match y.sectionOf sid with
  | none => (none, y)
  | some x =>
    if x.state = .disturbed then (none, y.lowerRaw sid)
    else
      match x.occupants.find? Occupant.present with
      | none => (none, y.disturb e .phantomExit [sid])
      | some o =>
        let left := exitFirst y.axlesOf x.occupants
        let z := y.putSection sid (some (x.relist left))
        (some (o.slot, o.exited == 0), if left.isEmpty then z.becomeClear e sid else z.restartStall e sid)

/-! ## The leg check (R46, R47) -/

/-- Remove from a cut's diversion list the points that are not on its route (R154). -/
def Yard.pruneDiversions (i : SlotIx) (y : Yard) : Yard :=
  y.modifyStarted i (fun x =>
    { x with diversions := x.diversions.filter (fun d => x.route.any (fun pr => pr.1 == d.point)) })

/-- Settle a cut's leg at a point: reroute to the fallback track of the leg the axle took (R46 step 4, R115, R154). -/
def Yard.settleLeg (e : Env) (p : PointIx) (leg : Leg) (i : SlotIx) (y : Yard) : Yard :=
  match e.ladder.fallback p leg with
  | some t => (y.reroute e i t none).pruneDiversions i
  | none => y

/-- An axle left a point at rest by the leg it does not lie in (R46 step 1, R47). -/
def Yard.legMismatch (e : Env) (p : PointIx) (named : Leg) (y : Yard) : Yard :=
  if y.pointLie p = some named then y.losePoint e p .legMismatch else y

/-- A cut leaves the queue of the point that a leg leads to, if it stands in it (R46 step 3). -/
def Yard.leaveQueueBelow (e : Env) (p : PointIx) (leg : Leg) (i : SlotIx) (y : Yard) : Yard :=
  match e.ladder.target p leg with
  | .point r => y.leaveQueue e r i
  | .track _ => y
  | .none => y

/-- The leg check of an axle of a cut at a leg head: the cut it goes on with, and the yard (R46, R47). R47 gives the effects of
a divided cut no order: the point becomes LOST, with its evaluation, before the cut does (log entry 37, DESIGN CHOICE). -/
def Yard.legCheck (e : Env) (p : PointIx) (leg : Leg) (i : SlotIx) (leading : Bool) (y : Yard) : Option SlotIx × Yard :=
  match (y.startedAt i).bind (fun x => x.legAt p) with
  | none => (some i, y)
  | some named =>
    if named = leg then (some i, y)
    else if leading then
      (some i, (((y.legMismatch e p named).markHazard i).leaveQueueBelow e p named i).settleLeg e p leg i)
    else (none, (y.legMismatch e p named).loseCut e i)

/-! ## The entry step (R48 to R51) -/

/-- The cause of a diversion at entry (R152). -/
def entryCause (caughtUp unavailable frozen : Bool) : DiversionCause :=
  if caughtUp then .caughtUp else if unavailable then .pointUnavailable else if frozen then .frozen else .late

/-- The entry check of a cut's leading axle at a point (R152, R153). -/
def Yard.entryCheck (e : Env) (q : PointIx) (i : SlotIx) (caughtUp : Bool) (y : Yard) : Yard :=
  match y.pointOf q, (y.startedAt i).bind (fun x => x.legAt q) with
  | some x, some leg =>
    match x.state.lie with
    | some m =>
      if m = leg then y
      else (y.withdrawFor e q i).divertInto e i q m (entryCause caughtUp x.unavailable y.control.freezeFlag)
    | none => y.markHazard i
  | _, _ => y

/-- The cut joins the approach queue of the point its leg leads to (R48 step 6). -/
def Yard.joinNext (e : Env) (q : PointIx) (i : SlotIx) (pass : Passage) (y : Yard) : Yard :=
  match (y.startedAt i).bind (fun x => x.legAt q) with
  | some leg =>
    match e.ladder.target q leg with
    | .point r => y.joinQueue e r i pass
    | .track _ => y
    | .none => y
  | none => y

/-- The section overcounts: it becomes DISTURBED and the cut becomes LOST (R49). That the cut is lost after the section with its
listed cuts is the model's choice (log entry 38, DESIGN CHOICE). -/
def Yard.overcount (e : Env) (sid : SectionId) (i : SlotIx) (y : Yard) : Yard :=
  (y.disturb e .overcount [sid]).loseCut e i

/-- The entry of a cut's leading axle into the section of a point (R48). The departure from the list comes first, the
evaluation of the new head after the entry is recorded (log entry 20, DEDUCED). Where the section overcounts no entry is
recorded, and the new head is evaluated after the disturbance and the loss of the cut (log entry 38, DESIGN CHOICE). -/
def Yard.leadingEntry (e : Env) (q : PointIx) (i : SlotIx) (pass : Passage) (y : Yard) : Yard :=
  if y.sectionDisturbed (.point q) then (y.loseCut e i).raiseRaw (.point q)
  else
    let caughtUp := y.listsOther (.point q) i
    let wasHead := y.queueHead q == some i
    let a := if y.inQueue q i then y.departQueue e q i else y
    if a.sectionFull (.point q) then (a.overcount e (.point q) i).evaluateNewHead e q wasHead
    else
      let b := (a.occupy e (.point q) i).evaluateNewHead e q wasHead
      let d := b.modifyStarted i (fun x => { x with progress := x.progress + 1 })
      ((d.axleAtPoint e q).entryCheck e q i caughtUp).joinNext e q i pass

/-- An axle without a cut enters a section (R50). -/
def Yard.entryWithoutCut (e : Env) (sid : SectionId) (aboveDisturbed : Bool) (y : Yard) : Yard :=
  let z :=
    if y.sectionDisturbed sid then y.raiseRaw sid
    else
      (y.disturb e (if aboveDisturbed then .enteredDisturbed else .unexpectedAxle) [sid]).raiseRaw sid
  match sid with
  | .lead => z
  | .point q => z.axleAtPoint e q

/-- A further axle of a cut enters the section of a point (R49). -/
def Yard.furtherEntry (e : Env) (q : PointIx) (i : SlotIx) (aboveDisturbed : Bool) (y : Yard) : Yard :=
  if y.sectionDisturbed (.point q) || !y.lists (.point q) i then y.entryWithoutCut e (.point q) aboveDisturbed
  else if y.sectionFull (.point q) then y.overcount e (.point q) i
  else (y.credit (.point q) i).axleAtPoint e q

/-- The axle of a cut at a point's section is the cut's leading axle there (R48). -/
def Yard.isLeading (y : Yard) (q : PointIx) (i : SlotIx) : Bool :=
  match y.startedAt i with
  | some x =>
    match x.positionOf q with
    | some n => decide (x.progress < n)
    | none => false
  | none => false

/-- An axle of a cut enters a track (R51). -/
def Yard.entryTrack (e : Env) (i : SlotIx) (y : Yard) : Yard :=
  let z := y.modifyStarted i (fun x => { x with inTrack := x.inTrack + 1 })
  if z.complete i then z.arrive e i else z

/-- The entry step of a downhill passage (R48 to R51). -/
def Yard.enterBelow (e : Env) (b : Below) (cut : Option SlotIx) (aboveDisturbed : Bool) (pass : Passage) (y : Yard) :
    Yard :=
  match b, cut with
  | .area (.point q), some i =>
    if y.isLeading q i then y.leadingEntry e q i pass else y.furtherEntry e q i aboveDisturbed
  | .area .lead, some _ => y
  | .area sid, none => y.entryWithoutCut e sid aboveDisturbed
  | .track _, some i => y.entryTrack e i
  | .track _, none => y
  | .nothing, _ => y

/-- A downhill passage at a head other than C: the exit, the leg check, the entry (R44). -/
def Yard.downhill (e : Env) (h : HeadIx) (pass : Passage) (y : Yard) : Yard :=
  match e.ladder.sectionAbove h with
  | none => y
  | some sid =>
    let aboveDisturbed := y.sectionDisturbed sid
    let out := y.takeOut e sid
    let checked : Option SlotIx × Yard :=
      match out.1, headPlace h with
      | some (i, leading), .leg p leg => out.2.legCheck e p leg i leading
      | some (i, _), .entry => (some i, out.2)
      | some (i, _), .crest => (some i, out.2)
      | none, _ => (none, out.2)
    checked.2.enterBelow e (e.ladder.below h) checked.1 aboveDisturbed pass

/-! ## Rollback and head faults (R53, R54) -/

/-- An uphill passage: the adjoining sections become DISTURBED, the one above gains an axle and the one below loses one
(R53). -/
def Yard.rollback (e : Env) (h : HeadIx) (y : Yard) : Yard :=
  let z := y.disturb e .rollback (e.ladder.adjoining h)
  let a := match e.ladder.sectionAbove h with
    | some sid => z.raiseRaw sid
    | none => z
  match e.ladder.below h with
  | .area sid => a.lowerRaw sid
  | .track _ => a
  | .nothing => a

/-- A head fault: every adjoining section becomes DISTURBED (R54). -/
def Yard.headFault (e : Env) (h : HeadIx) (y : Yard) : Yard := y.disturb e .headFault (e.ladder.adjoining h)

/-! ## The lead and the crest (R52) -/

/-- An unlisted axle enters the lead (R52). -/
def Yard.handUnlisted (e : Env) (y : Yard) : Yard :=
  if y.sectionDisturbed .lead then y.raiseRaw .lead else (y.disturb e .unlisted [.lead]).raiseRaw .lead

/-- A further axle of a cut enters the lead (R52). -/
def Yard.handFurther (e : Env) (i : SlotIx) (y : Yard) : Yard :=
  if y.sectionDisturbed .lead then y.raiseRaw .lead
  else if y.lists .lead i then
    if y.sectionFull .lead then y.overcount e .lead i else y.credit .lead i
  else y.handUnlisted e

/-- The leading axle of a cut newly started enters the lead (R52). -/
def Yard.handLeading (e : Env) (i : SlotIx) (pass : Passage) (y : Yard) : Yard :=
  if y.sectionDisturbed .lead then (y.loseCut e i).raiseRaw .lead
  else if y.sectionFull .lead then y.overcount e .lead i
  else
    let z := y.occupy e .lead i
    match e.ladder.root with
    | some r => z.joinQueue e r i pass
    | none => z

/-! ## Stall timers (R61) -/

/-- The stall timer of a section expires: its flag is set, the timer stops, STALL is raised, the mode controller is
told (R61). -/
def Yard.stallExpired (e : Env) (sid : SectionId) (y : Yard) : Yard :=
  match y.sectionOf sid with
  | some x =>
    match x.stallTimer with
    | some t =>
      if atOrAfter e.now t then
        ((y.putSection sid (some { x with stallTimer := none, stallFlag := true })).raiseStall sid).reportStall
      else y
    | none => y
  | none => y

/-! ## Short cuts (R59) -/

/-- A cut's entry whose exits equal its axle count leaves a section's list, and a list left empty makes the section
CLEAR (R59). -/
def Yard.reexamine (e : Env) (i : SlotIx) (sid : SectionId) (y : Yard) : Yard :=
  match y.sectionOf sid with
  | some x =>
    if x.occupants.any (fun o => o.slot == i && o.exited == y.axlesOf i) then
      let left := x.occupants.filter (fun o => !(o.slot == i && o.exited == y.axlesOf i))
      let z := y.putSection sid (some (x.relist left))
      if left.isEmpty then z.becomeClear e sid else z
    else y
  | none => y

/-- The re-examination of a short cut in every section, the lead first (log entry 28, DESIGN CHOICE), and its arrival (R59). -/
def Yard.reexamineAll (e : Env) (i : SlotIx) (y : Yard) : Yard :=
  let z := allSections.foldl (fun w sid => w.reexamine e i sid) y
  if z.complete i then z.arrive e i else z

end Sys2Proof.Machine
end

