-- ==== Sys2Proof/Machine/Crest.lean ====
section
/-! DEFINITION. The crest unit (chapter 5): naming crest axles, starting cuts, coupling, short cuts, absorption, hold
markers. -/

namespace Sys2Proof.Machine

open Sys2Proof

/-- Change the crest unit. -/
def Yard.modifyCrest (f : Crest → Crest) (y : Yard) : Yard := { y with crest := f y.crest }

/-! ## Hold markers (R102) -/

/-- The crest state is IDLE. -/
def Crest.isIdle (c : Crest) : Bool :=
  match c.state with
  | .idle => true
  | .entering _ _ => false
  | .absorbing _ _ => false

/-- The crest unit judges the head of the pending list: a PENDING marker at the head with the crest IDLE becomes REACHED
and raises HOLD_REACHED (R102). -/
def Yard.judgeMarker (y : Yard) : Yard :=
  match y.pendingList.head? with
  | some i =>
    match Table.look y.slots i with
    | some (.hold number false) =>
      if y.crest.isIdle then (y.putSlot i (some (.hold number true))).raiseDevice .holdReached else y
    | _ => y
  | none => y

/-! ## The gap timer (R94) -/

/-- The crest gap timer is started or restarted from the instant of a crest passage (R94). -/
def Yard.startGap (e : Env) (pass : Passage) (y : Yard) : Yard :=
  y.modifyCrest (fun c =>
    { c with timer := some { origin := pass.instant,
                             expiry := after pass.instant (Config.ticksPerMs * e.ladder.consts.gIn),
                             longAgo := pass.longAgo } })

/-- The crest gap timer has expired. A timer started from an instant 2^31 ticks ago has, whatever the wrap of the clock gives
(log entry 7, DEDUCED). -/
def Crest.gapExpired (c : Crest) (now : Instant) : Bool :=
  match c.timer with
  | some t => t.longAgo || atOrAfter now t.expiry
  | none => false

/-- 2^31 ticks have elapsed since the instant the running gap timer was started from. -/
def Crest.gapLongAgo (c : Crest) : Bool := (c.timer.map (fun t => t.longAgo)).getD false

/-- The instant the running gap timer was started from. -/
def Crest.gapOrigin (c : Crest) : Instant := (c.timer.map (fun t => t.origin)).getD 0

/-! ## Hump order (R89) -/

/-- A live cut record holds the hump order. -/
def Yard.orderHeld (y : Yard) (n : Word32) : Bool :=
  (List.finRange 64).any (fun i => ((y.startedAt i).map (fun x => x.order)) == some n)

/-- The first value from n on that no live cut holds; at most 64 are held (R89). -/
def Yard.freeOrder (y : Yard) : Nat → Word32 → Word32
  | 0, n => n
  | k + 1, n => if y.orderHeld n then y.freeOrder k (n + 1) else n

/-! ## Coupling (R95, R96) -/

/-- A new cut's first crest axle follows the last crest instant by less than the coupling gap (R95). -/
def closeBehind (e : Env) (p : Previous) (instant : Instant) : Bool :=
  !p.longAgo && decide (ticksBetween p.instant instant < Config.ticksPerMs * e.ladder.consts.gCpl)

/-- The previous cut that a new cut is coupled to: its number and its started fields (R95). -/
def Yard.coupledTo (e : Env) (instant : Instant) (y : Yard) : Option (Word16 × Started) :=
  match y.crest.previous with
  | some p =>
    match y.cutAt p.slot with
    | some c =>
      if c.number == p.number && (c.state == .rolling || c.state == .arrived) && closeBehind e p instant then
        c.started.map (fun x => (c.number, x))
      else none
    | none => none
  | none => none

/-! ## Starting a cut (R92) -/

/-- The started fields of a new cut with its track, cause and route (R92 steps 2 and 3). -/
def newStarted (order : Word32) (t : TrackIx) (cause : Option ResolutionCause) (route : List Pair)
    (coupled : Option Word16) : Started :=
  { order := order, resolved := t, cause := cause, route := route, progress := 0, crestAxles := 1, inTrack := 0,
    speed := none, diversions := [], coupled := coupled, short := none, hazard := false }

/-- Steps 2 and 3 for a cut: hump order, then coupling or resolution, then the reservation; the started fields and
whether the cut is coupled (R92, R95, R96, R113, R116). -/
def Yard.assign (e : Env) (instant : Instant) (order : Word32) (c : Cut) (y : Yard) : Started × Bool :=
  match y.coupledTo e instant with
  | some (number, p) => (newStarted order p.resolved none p.route (some number), true)
  | none =>
    let r := y.resolution e.ladder c.dest c.axles
    (newStarted order r.1 r.2 (e.ladder.routeOf r.1) none, false)

/-- The crest unit starts the cut at the head of the pending list (R92). -/
def Yard.startCut (e : Env) (i : SlotIx) (c : Cut) (pass : Passage) (y : Yard) : Yard :=
  let order := y.freeOrder 65 y.crest.nextOrder
  let listed := { y with pendingList := y.pendingList.tail }
  let given := listed.assign e pass.instant order c
  let made := (listed.putSlot i (some (.cut { c with state := .entering, started := some given.1 }))).reserve
    given.1.resolved c.axles
  let told := if given.2 then made.raiseCut i .coupled else made
  let crest := told.modifyCrest (fun x =>
    { x with state := .entering i { number := c.number, tally := 1, target := c.axles }, nextOrder := order + 1 })
  (crest.handLeading e i pass).startGap e pass

/-! ## Leaving ENTERING (R93) and the end of an absorption (R100) -/

/-- The cut leaves ENTERING: the timer stops, the cut that was still ENTERING is ROLLING, it becomes the previous cut with
the last crest instant and whether that is 2^31 ticks ago, the crest is IDLE, and the head of the list is judged (R93). -/
def Yard.leaveEntering (i : SlotIx) (number : Word16) (last : Instant) (longAgo : Bool) (y : Yard) : Yard :=
  ((y.modifyCut i (fun c => if c.state = .entering then { c with state := .rolling } else c)).modifyCrest (fun x =>
    { x with state := .idle, timer := none,
             previous := some { slot := i, number := number, instant := last, longAgo := longAgo } })).judgeMarker

/-- An absorption ends (R100). -/
def Yard.endAbsorption (y : Yard) : Yard :=
  (y.modifyCrest (fun x => { x with state := .idle, timer := none, previous := none })).judgeMarker

/-! ## Downhill crest axles (R90, R91, R99, R101) -/

/-- A further axle of the entering cut (R91). A cut lost by this very axle leaves an absorption that ends here if its
count is reached (log entry 17, DEDUCED). -/
def Yard.furtherCrestAxle (e : Env) (i : SlotIx) (x : Entry) (pass : Passage) (y : Yard) : Yard :=
  let counted := (y.modifyCrest (fun c => { c with state := .entering i { x with tally := x.tally + 1 } })).modifyStarted i
    (fun z => { z with crestAxles := x.tally + 1 })
  let handed := counted.handFurther e i
  if x.tally + 1 = x.target then
    match handed.crest.state with
    | .entering _ _ => handed.leaveEntering i x.number pass.instant pass.longAgo
    | .absorbing _ _ => handed.endAbsorption
    | .idle => handed
  else handed.startGap e pass

/-- An axle of the lost entering cut (R99). -/
def Yard.absorbedAxle (e : Env) (slot : Option SlotIx) (x : Entry) (pass : Passage) (y : Yard) : Yard :=
  let counted := y.modifyCrest (fun c => { c with state := .absorbing slot { x with tally := x.tally + 1 } })
  let handed := match slot with
    | some i => counted.handFurther e i
    | none => counted.handUnlisted e
  if x.tally + 1 = x.target then handed.endAbsorption else handed.startGap e pass

/-- An axle that belongs to no cut (R101). -/
def Yard.unlistedAxle (e : Env) (y : Yard) : Yard := (y.handUnlisted e).modifyCrest (fun c => { c with previous := none })

/-- The PENDING cut at the head of the pending list (R71). -/
def Yard.headCut (y : Yard) : Option (SlotIx × Cut) :=
  match y.pendingList.head? with
  | some i => ((y.cutAt i).filter (fun c => c.state == .pending)).map (fun c => (i, c))
  | none => none

/-- A crest axle in IDLE: the leading axle of the head cut in HUMPING and HALTED, unlisted otherwise (R90). -/
def Yard.idleAxle (e : Env) (pass : Passage) (y : Yard) : Yard :=
  match y.control.mode, y.headCut with
  | .humping, some (i, c) => y.startCut e i c pass
  | .halted, some (i, c) => y.startCut e i c pass
  | .standby, _ => y.unlistedAxle e
  | .setup, _ => y.unlistedAxle e
  | _, none => y.unlistedAxle e

/-- A downhill passage at C (R90). -/
def Yard.crestDownhill (e : Env) (pass : Passage) (y : Yard) : Yard :=
  match y.crest.state with
  | .entering i x => y.furtherCrestAxle e i x pass
  | .absorbing slot x => y.absorbedAxle e slot x pass
  | .idle => y.idleAxle e pass

/-- An uphill passage at C: the tally falls or the previous cut is forgotten, then the lead is disturbed (R103). -/
def Yard.crestUphill (e : Env) (y : Yard) : Yard :=
  let z := y.modifyCrest (fun c =>
    match c.state with
    | .entering i x => { c with state := .entering i { x with tally := x.tally - 1 } }
    | .absorbing slot x => { c with state := .absorbing slot { x with tally := x.tally - 1 } }
    | .idle => { c with previous := none })
  z.rollback e crestHead

/-- A passage is delivered: those of C to the crest unit, the others to the section tracker (R35). -/
def Yard.deliver (e : Env) (h : HeadIx) (pass : Passage) (y : Yard) : Yard :=
  match headPlace h, pass.direction with
  | .crest, .downhill => y.crestDownhill e pass
  | .crest, .uphill => y.crestUphill e
  | .entry, .downhill => y.downhill e h pass
  | .leg _ _, .downhill => y.downhill e h pass
  | .entry, .uphill => y.rollback e h
  | .leg _ _, .uphill => y.rollback e h

/-! ## Expiry of the gap timer (R97, R100) -/

/-- The record of a cut declared short: its count becomes the crest axles counted (R97 steps 1 and 3). -/
def shortened (c : Cut) (x : Started) : Cut :=
  { c with axles := x.crestAxles, state := .rolling, started := some { x with short := some c.axles } }

/-- A short cut (R97): the gap timer has expired in ENTERING. The reserved count falls by the old axle count less the
new one (R116). -/
def Yard.shortCut (e : Env) (y : Yard) : Yard :=
  match y.crest.state with
  | .entering i x =>
    match y.cutAt i with
    | some c =>
      match c.started with
      | some z =>
        if y.crest.gapExpired e.now && (c.state == .entering) then
          (((((y.putSlot i (some (.cut (shortened c z)))).release z.resolved c.axles).reserve z.resolved
            z.crestAxles).raiseCut i .short).reexamineAll e i).leaveEntering i x.number y.crest.gapOrigin
              y.crest.gapLongAgo
        else y
      | none => y
    | none => y
  | .absorbing _ _ => y
  | .idle => y

/-- The gap timer has expired in ABSORBING: the absorption ends (R100). -/
def Yard.absorptionEnd (e : Env) (y : Yard) : Yard :=
  match y.crest.state with
  | .absorbing _ _ => if y.crest.gapExpired e.now then y.endAbsorption else y
  | .entering _ _ => y
  | .idle => y

/-- A slot is freed by RETIRE: the crest unit forgets it as the entering cut of an absorption and as the previous cut
(R98). -/
def Yard.forgetSlot (i : SlotIx) (y : Yard) : Yard :=
  y.modifyCrest (fun c =>
    { c with
        state := (match c.state with
          | .absorbing (some j) x => if j = i then .absorbing none x else .absorbing (some j) x
          | st => st),
        previous := (match c.previous with
          | some p => if p.slot = i then none else some p
          | none => none) })

end Sys2Proof.Machine
end

