-- ==== Sys2Proof/Machine/Heads.lean ====
section
/-! DEFINITION. The head decoder (chapter 2, R32 to R37) as one function of a head, and what a head delivers. -/

namespace Sys2Proof.Machine

open Sys2Proof

/-- The two sensors of a head. -/
inductive Sensor where
  | A
  | B
  deriving DecidableEq, Repr

/-- What one transition does to a decoder state (R33). -/
inductive Move where
  | stay
  | to (d : DecoderState)
  | deliver (dir : Direction)
  | fault
  deriving DecidableEq, Repr

/-- The table of R33 for the transition of one sensor to a level, ACTIVE = true; a dash and the states OFF, SETTLING and
HELD stay. BOTH is left by R34. -/
def decodeMove (d : DecoderState) (s : Sensor) (level : Bool) : Move :=
  match d, s, level with
  | .idle, .A, true => .to .down1
  | .idle, .B, true => .to .up1
  | .down1, .A, false => .fault
  | .down1, .B, true => .to .down2
  | .down2, .A, false => .to .down3
  | .down2, .B, false => .fault
  | .down3, .A, true => .fault
  | .down3, .B, false => .deliver .downhill
  | .up1, .A, true => .to .up2
  | .up1, .B, false => .fault
  | .up2, .A, false => .fault
  | .up2, .B, false => .to .up3
  | .up3, .A, false => .deliver .uphill
  | .up3, .B, true => .fault
  | .both, .A, false => .to .down3
  | .both, .B, false => .to .up3
  | _, _, _ => .stay

/-- The interval a passage carries: 1 for 0, 65535 for more (R35). -/
def carriedInterval (gap : Instant) : Nat := min (max gap.toNat 1) Config.maxInterval

/-- The both-active timer runs in DOWN_2, UP_2 and BOTH (R36). -/
def DecoderState.timed (d : DecoderState) : Bool := d == .down2 || d == .up2 || d == .both

/-- The head enters a decoder state at an instant: the first instant is recorded on leaving IDLE, the interval on
entering DOWN_2 and UP_2, and the both-active timer starts or stops (R33, R36). The first instant of a new sequence is not
long ago (log entry 7, DEDUCED). -/
def Head.enter (h : Head) (d : DecoderState) (now : Instant) : Head :=
  { h with
      state := d,
      first := if h.state = .idle then now else h.first,
      longAgo := if h.state = .idle then false else h.longAgo,
      gap := if d = .down2 ∨ d = .up2 then now - h.first else if h.state = .idle then 0 else h.gap,
      timer := if d.timed then some (after now Config.bothActiveTicks) else none }

/-- The passage of the completed sequence (R35). -/
def Head.passage (h : Head) (dir : Direction) : Passage :=
  { direction := dir, instant := h.first, interval := carriedInterval h.gap, longAgo := h.longAgo }

/-- The head after its sequence has completed: IDLE, with the passage as the last one delivered (R33, R38). -/
def Head.completed (h : Head) (dir : Direction) : Head :=
  { h with state := .idle, first := 0, longAgo := false, gap := 0, timer := none, last := some (h.passage dir) }

/-- The head becomes FAULTY: HELD, the sequence discarded, the instant and the state at the fault recorded (R36). -/
def Head.faulted (h : Head) (now : Instant) : Head :=
  { h with state := .held, condition := .faulty, first := 0, longAgo := false, gap := 0, timer := none,
           fault := some { instant := now, state := h.state } }

/-- A sequence is in progress: its first instant is recorded (R33, R34). -/
def DecoderState.inSequence : DecoderState → Bool
  | .off => false
  | .settling => false
  | .idle => false
  | .down1 => true
  | .down2 => true
  | .down3 => true
  | .up1 => true
  | .up2 => true
  | .up3 => true
  | .both => true
  | .held => false

/-- A head at a tick: with a sequence in progress it remembers that 2^31 ticks have elapsed since the first instant
(R95, R145; log entry 7, DEDUCED). -/
def Head.tick (now : Instant) (h : Head) : Head :=
  { h with longAgo := h.longAgo || (h.state.inSequence && decide (Config.halfRange ≤ ticksBetween h.first now)) }

/-- What a head's change leaves to be done in the yard. -/
inductive HeadEvent where
  | nothing
  | passage (p : Passage)
  | fault
  deriving DecidableEq, Repr

/-- A single transition of one sensor (R33). -/
def Head.single (h : Head) (s : Sensor) (level : Bool) (now : Instant) : Head × HeadEvent :=
  match decodeMove h.state s level with
  | .stay => (h, .nothing)
  | .to d => (h.enter d now, .nothing)
  | .deliver dir => (h.completed dir, .passage (h.passage dir))
  | .fault => (h.faulted now, .fault)

/-- Two transitions in one order, none where either is a fault (R34). -/
def Head.ordered (h : Head) (s : Sensor) (level : Bool) (s' : Sensor) (level' : Bool) (now : Instant) :
    Option (Head × HeadEvent) :=
  let a := h.single s level now
  let b := a.1.single s' level' now
  match a.2, b.2 with
  | .fault, _ => none
  | _, .fault => none
  | .passage p, _ => some (b.1, .passage p)
  | .nothing, ev => some (b.1, ev)

/-- A coincident change of both sensors to the levels given (R34). -/
def Head.coincident (h : Head) (levelA levelB : Bool) (now : Instant) : Head × HeadEvent :=
  match h.state with
  | .off => (h, .nothing)
  | .held => (h, .nothing)
  | .settling => (h, .nothing)
  | .idle => (h.enter .both now, .nothing)
  | .both => (h.faulted now, .fault)
  | _ =>
    match h.ordered .A levelA .B levelB now with
    | some r => r
    | none =>
      match h.ordered .B levelB .A levelA now with
      | some r => r
      | none => (h.faulted now, .fault)

/-- The change of a head whose sensors stand at the levels given after the transitions; `changedA` and `changedB` say
which of them changed (R32 for SETTLING, R33, R34). -/
def Head.change (h : Head) (changedA changedB levelA levelB : Bool) (now : Instant) : Head × HeadEvent :=
  if h.state = .settling then
    (if levelA || levelB then h else { h with state := .idle }, .nothing)
  else
    match changedA, changedB with
    | true, true => h.coincident levelA levelB now
    | true, false => h.single .A levelA now
    | false, true => h.single .B levelB now
    | false, false => (h, .nothing)

/-- The both-active timer of a head has expired (R36). -/
def Head.bothActiveExpired (h : Head) (now : Instant) : Bool :=
  match h.timer with
  | some t => h.state.timed && atOrAfter now t
  | none => false

/-- What the yard makes of a head's event (R35, R36). -/
def Yard.headEvent (e : Env) (h : HeadIx) (ev : HeadEvent) (y : Yard) : Yard :=
  match ev with
  | .nothing => y
  | .passage p => y.deliver e h p
  | .fault => y.headFault e h

/-- A head of the state after COMMISSION: configured heads with both sensors INACTIVE become IDLE, other configured
heads SETTLING, the rest stay OFF (R32). -/
def startedHead (configured levelA levelB : Bool) : Head :=
  if configured then { Head.off with state := if levelA || levelB then .settling else .idle } else Head.off

/-- A FAULTY head returns to OK by a section reset (R37). -/
def Head.restored (h : Head) : Head :=
  if h.condition = .faulty then { h with state := .idle, condition := .ok, fault := none } else h

end Sys2Proof.Machine
end

