-- ==== Sys2Proof/Machine/Lines.lean ====
section
/-! DEFINITION. The field line unit (chapter 2, R22 to R31): levels, the filter, the line conditions, the line check. -/

namespace Sys2Proof.Machine

open Sys2Proof

/-! ## Levels (R24) -/

/-- The raw level of a line among the 256 raw levels. -/
def rawLevel (raw : BitVec 256) (i : LineIx) : Level := if raw.getLsbD i.val then .high else .low

/-- The logical level of a line at a raw level, ACTIVE = true (R24). -/
def logicalLevel (role : Role) (active raw : Level) : Bool :=
  match role with
  | .unused => false
  | _ => raw == active

/-! ## The filter (R24, R25) -/

/-- The line is due for a sample at a tick count (R24). -/
def Line.sampledAt (l : Line) (now : Instant) : Bool :=
  match l.role, l.cls with
  | .unused, _ => false
  | _, .fast => true
  | _, .slow => now.toNat % Config.slowSpacing == 0

/-- One sample of a line (R25). The third consecutive disagreeing sample leaves the agreement count at 2 and marks the
filtered transition as due; FILTERED_TRANSITION delivers it at that instant (log entry 4, DESIGN CHOICE). -/
def Line.sample (l : Line) (raw : Level) : Line :=
  if logicalLevel l.role l.active raw = l.filtered then
    { l with sampled := raw, everSampled := true, agreement := 0, due := false }
  else if l.agreement < 2 then
    { l with sampled := raw, everSampled := true, agreement := l.agreement + 1, due := false }
  else { l with sampled := raw, everSampled := true, due := true }

/-- A line at a tick. -/
def Line.tick (l : Line) (raw : Level) (now : Instant) : Line := if l.sampledAt now then l.sample raw else l

/-- The filtered transition of a line is taken: the filtered level takes the new level (R25). -/
def Line.transit (l : Line) : Line := { l with filtered := !l.filtered, agreement := 0, due := false }

/-- The filter restarts from the present raw level under a new configuration (R26). A restart is no sample: the level at
the most recent sample stays (R24, R30). -/
def Line.restarted (role : Role) (active : Level) (cls : FilterClass) (raw : Level) (l : Line) : Line :=
  { l with role := role, active := active, cls := cls, filtered := logicalLevel role active raw, agreement := 0,
           due := false }

/-! ## Roles (R22, R27) -/

/-- The lowest-indexed line that holds a role; UNUSED is held by no line (R22). -/
def lineOf (lines : Table 256 Line) (r : Role) : Option LineIx :=
  if r = .unused then none else (List.finRange 256).find? (fun i => (Table.look lines i).role == r)

/-- The filtered level of the line that holds a role; INACTIVE where no line does. -/
def roleLevel (lines : Table 256 Line) (r : Role) : Bool :=
  match lineOf lines r with
  | some i => (Table.look lines i).filtered
  | none => false

/-- A role is dormant: it names a head that is not configured or a point that is not in use (R22). -/
def Ladder.dormant (l : Ladder) : Role → Bool
  | .sensorA h => !l.headConfigured h
  | .sensorB h => !l.headConfigured h
  | .detectN p => !l.inUse p
  | .detectR p => !l.inUse p
  | .unused => false
  | .stop => false
  | .freezeKey _ => false

/-- What takes the transitions of a role (R27): a head, a point, the stop condition, the freeze condition. -/
inductive Consumer where
  | head (h : HeadIx)
  | point (p : PointIx)
  | stop
  | freeze
  | nobody
  deriving DecidableEq, Repr

/-- The consumer of a role's transitions (R27). -/
def Role.consumer : Role → Consumer
  | .unused => .nobody
  | .sensorA h => .head h
  | .sensorB h => .head h
  | .detectN p => .point p
  | .detectR p => .point p
  | .stop => .stop
  | .freezeKey _ => .freeze

/-! ## The line conditions (R28, R29) -/

/-- The stop condition is ACTIVE (R28). -/
def stopCondition (lines : Table 256 Line) : Bool :=
  (List.finRange 256).any (fun i => (Table.look lines i).role == .stop && (Table.look lines i).filtered)

/-- The line holds a FREEZE_KEY role. -/
def Line.isKey (l : Line) : Bool := l.role.consumer == .freeze

/-- Freeze is armed (R29). -/
def freezeArmed (lines : Table 256 Line) : Bool := (List.finRange 256).any (fun i => (Table.look lines i).isKey)

/-- The freeze condition is ACTIVE: armed, and every key ACTIVE (R29). -/
def freezeCondition (lines : Table 256 Line) : Bool :=
  freezeArmed lines &&
    (List.finRange 256).all (fun i => !(Table.look lines i).isKey || (Table.look lines i).filtered)

/-- The stop condition is reported to the mode controller, which takes a change (R28, R169). -/
def Yard.reportStop (active : Bool) (y : Yard) : Yard :=
  if active = y.control.stopFlag then y
  else
    let z := y.modifyControl (fun m => { m with stopFlag := active })
    if active then z.enterCause .stopInput else z

/-- Freeze starts (R170). -/
def Yard.freezeStart (y : Yard) : Yard :=
  ((y.modifyControl (fun m => { m with freezeFlag := true })).raiseDevice .freezeOn).enterCause .freeze

/-- Every point in use whose queue has a head is evaluated, in ascending index (R146, R158; log entry 14, DESIGN CHOICE). -/
def Yard.evaluateHeads (e : Env) (y : Yard) : Yard :=
  (List.finRange 40).foldl (fun z q => if (z.queueOf q).isEmpty then z else z.evaluate e q) y

/-- Freeze ends: outside SETUP the arbiter and the planner are told (R170). -/
def Yard.freezeEnd (e : Env) (y : Yard) : Yard :=
  let z := (y.modifyControl (fun m => { m with freezeFlag := false })).raiseDevice .freezeOff
  if y.control.mode = .setup then z else (z.arbitrate e).evaluateHeads e

/-- The freeze condition is reported to the mode controller, which takes a change (R29, R170). -/
def Yard.reportFreeze (e : Env) (active : Bool) (y : Yard) : Yard :=
  if active = y.control.freezeFlag then y else if active then y.freezeStart else y.freezeEnd e

/-! ## Taking filtered transitions (R27) -/

/-- The line is due and its transitions go to the consumer. -/
def Line.dueFor (l : Line) (c : Consumer) : Bool := l.due && (l.role.consumer == c)

/-- The lines after the due transitions of one consumer are taken together (R27, R29). -/
def takeDue (lines : Table 256 Line) (c : Consumer) : Table 256 Line :=
  Table.tab (fun i => if (Table.look lines i).dueFor c then (Table.look lines i).transit else Table.look lines i)

/-- Some line of a role is due. -/
def roleDue (lines : Table 256 Line) (r : Role) : Bool :=
  (List.finRange 256).any (fun i => (Table.look lines i).due && ((Table.look lines i).role == r))

/-- The head after the transitions of its sensors, and what it leaves to be done; `was` are the lines before, `lines`
those after. -/
def headChange (was lines : Table 256 Line) (heads : Table 82 Head) (h : HeadIx) (now : Instant) : Head × HeadEvent :=
  (Table.look heads h).change (roleDue was (.sensorA h)) (roleDue was (.sensorB h)) (roleLevel lines (.sensorA h))
    (roleLevel lines (.sensorB h)) now

/-- The filtered transitions of one consumer are taken and delivered (R25, R27). -/
def State.takeTransitions (c : Consumer) (s : State) : State :=
  let lines := takeDue s.lines c
  match c with
  | .head h =>
    let r := headChange s.lines lines s.heads h s.clock
    ({ s with lines := lines, heads := Table.put s.heads h r.1 }).withYard (s.yard.headEvent s.env h r.2)
  | .point p =>
    ({ s with lines := lines }).withYard
      (s.yard.detectionChange s.env p (roleLevel lines (.detectN p)) (roleLevel lines (.detectR p)))
  | .stop => ({ s with lines := lines }).withYard (s.yard.reportStop (stopCondition lines))
  | .freeze => ({ s with lines := lines }).withYard (s.yard.reportFreeze s.env (freezeCondition lines))
  | .nobody => s

/-! ## The line check (R31) -/

/-- A lower-indexed line holds the role. -/
def heldBelow (lines : Table 256 Line) (i : LineIx) : Bool :=
  (List.finRange 256).any (fun j =>
    decide (j.val < i.val) && ((Table.look lines j).role == (Table.look lines i).role))

/-- Stage 1, the lines (R31). -/
def checkRoles (lines : Table 256 Line) : Option CheckFailure :=
  ((List.finRange 256).find? (fun i => !((Table.look lines i).role == .unused) && heldBelow lines i)).map
    (fun i => (i.val, 1))

/-- Stage 2, the heads (R31). -/
def Ladder.checkSensors (l : Ladder) (lines : Table 256 Line) : Option CheckFailure :=
  ((List.finRange 82).filter (fun h => l.headConfigured h)).findSome? (fun h =>
    if (lineOf lines (.sensorA h)).isNone then some (h.val, 2)
    else if (lineOf lines (.sensorB h)).isNone then some (h.val, 3)
    else none)

/-- Stage 3, the points (R31). -/
def Ladder.checkDetection (l : Ladder) (lines : Table 256 Line) : Option CheckFailure :=
  l.pointsInUse.findSome? (fun p =>
    if (lineOf lines (.detectN p)).isNone then some (p.val, 4)
    else if (lineOf lines (.detectR p)).isNone then some (p.val, 5)
    else none)

/-- The line check: the first failure of its three stages, none where it passes (R31). -/
def Ladder.checkLines (l : Ladder) (lines : Table 256 Line) : Option CheckFailure :=
  (checkRoles lines).orElse (fun _ => (l.checkSensors lines).orElse (fun _ => l.checkDetection lines))

end Sys2Proof.Machine
end

