-- ==== Sys2Proof/Machine/Link.lean ====
section
/-! DEFINITION. The link interface (chapter 11): the receiver byte by byte, the response frame, statuses, and the
serving of a request. -/

namespace Sys2Proof.Machine

open Sys2Proof

/-! ## The receiver (R181) -/

/-- What is still to come in a write transfer (R181). -/
inductive Expect where
  | code
  | length
  | payload
  | check
  | nothing
  deriving DecidableEq, Repr

/-- What the receive buffer waits for. -/
def ReceiveBuffer.expects (r : ReceiveBuffer) : Expect :=
  if r.reject || r.done then .nothing
  else
    match r.code, r.length with
    | none, _ => .code
    | some _, none => .length
    | some _, some n => if r.payload.length < n.toNat then .payload else .check

/-- One byte of a write transfer: the receive buffer after it and whether the port acknowledges it (R181). What
was received stays until the next transfer (log entry 26, DESIGN CHOICE). The check byte ends the frame whether it matches
or not: the bytes after a mismatched one are not acknowledged either (R181 says so of a good one alone; log entry 35, DESIGN
CHOICE). -/
def ReceiveBuffer.take (r : ReceiveBuffer) (b : Byte) : ReceiveBuffer × Bool :=
  match r.expects with
  | .nothing => (r, false)
  | .code =>
    if codeListed b then ({ r with code := some b, check := crcByte r.check b }, true)
    else ({ r with reject := true }, false)
  | .length =>
    if lengthAllowed (r.code.getD 0) b.toNat then ({ r with length := some b, check := crcByte r.check b }, true)
    else ({ r with reject := true }, false)
  | .payload => ({ r with payload := r.payload ++ [b], check := crcByte r.check b }, true)
  | .check => ({ r with done := true }, b == r.check)

/-- The receive buffer and the acknowledgements after a list of bytes. -/
def receiveFrom (r : ReceiveBuffer) : List Byte → ReceiveBuffer × List Bool
  | [] => (r, [])
  | b :: bs =>
    let one := r.take b
    let rest := receiveFrom one.1 bs
    (rest.1, one.2 :: rest.2)

/-- A write transfer: the buffer is emptied at its start, then takes each byte (R181). -/
def receive (bytes : List Byte) : ReceiveBuffer × List Bool := receiveFrom ReceiveBuffer.empty bytes

/-- The receive buffer after a good frame (R180, R181). -/
def receivedGood (code : Byte) (payload : List Byte) : ReceiveBuffer :=
  { code := some code, length := some (BitVec.ofNat 8 payload.length), payload := payload,
    check := crc8 (code :: BitVec.ofNat 8 payload.length :: payload), reject := false, done := true }

/-! ## The address (R180) -/

/-- The port's 7-bit address: 0x58 plus ADR (R180). -/
def State.portAddress (s : State) : BitVec 7 := 0x58#7 + s.straps.setWidth 7

/-- The port acknowledges its own address and no other (R180). -/
def State.acknowledgesAddress (s : State) (a : BitVec 7) : Bool := a == s.portAddress

/-! ## Statuses and responses (R183, R185) -/

/-- The statuses (R185). -/
inductive Status where
  | done
  | badMode
  | badValue
  | noRecord
  | duplicate
  | tableFull
  | busy
  | occupied
  | barred
  | frozen
  | unreachable
  | closed
  | full
  | notAllowed
  | notProved
  | notReady
  | sensorActive
  | ladderInvalid
  | linesInvalid
  | noResponse
  deriving DecidableEq, Repr

/-- The value of a status (R185). -/
def statusCode : Status → Byte
  | .done => 0x00
  | .badMode => 0x01
  | .badValue => 0x02
  | .noRecord => 0x03
  | .duplicate => 0x04
  | .tableFull => 0x05
  | .busy => 0x06
  | .occupied => 0x07
  | .barred => 0x08
  | .frozen => 0x09
  | .unreachable => 0x0A
  | .closed => 0x0B
  | .full => 0x0C
  | .notAllowed => 0x0D
  | .notProved => 0x0E
  | .notReady => 0x0F
  | .sensorActive => 0x10
  | .ladderInvalid => 0x11
  | .linesInvalid => 0x12
  | .noResponse => 0xFF

/-- What a request answers: a status and a payload, which holds the detail of a refusal (R185). -/
structure Reply where
  status : Status
  payload : List Byte
  deriving DecidableEq, Repr

/-- DONE with a payload. -/
def doneWith (payload : List Byte) : Reply := { status := .done, payload := payload }

/-- DONE with no payload. -/
def done : Reply := doneWith []

/-- A refusal without a detail. -/
def refuse (st : Status) : Reply := { status := st, payload := [] }

/-- A refusal with one detail byte. -/
def refuseAt (st : Status) (detail : Nat) : Reply := { status := st, payload := [BitVec.ofNat 8 detail] }

/-- BAD_VALUE with the number of the failing field. -/
def badValue (field : Nat) : Reply := refuseAt .badValue field

/-- The refusal of COMMISSION by a check: the index and the reason number (R14, R31). -/
def refuseCheck (st : Status) (f : CheckFailure) : Reply :=
  { status := st, payload := [BitVec.ofNat 8 f.1, BitVec.ofNat 8 f.2] }

/-- The response frame of a reply to a code, with its check byte (R182, R183). -/
def responseOf (code : Byte) (r : Reply) : Response :=
  { status := statusCode r.status, code := code, payload := r.payload,
    check := crc8 (statusCode r.status :: code :: BitVec.ofNat 8 r.payload.length :: r.payload) }

/-- The bytes of a response frame (R183). -/
def Response.frame (r : Response) : List Byte :=
  r.status :: r.code :: BitVec.ofNat 8 r.payload.length :: r.payload ++ [r.check]

/-- The link interface after an executed request: the frame in the receive buffer, the response in place, the read
position at the status byte (R183). -/
def executed (code : Byte) (payload : List Byte) (r : Reply) : Link :=
  { receive := receivedGood code payload, response := responseOf code r, readPosition := 0 }

/-- The outcome of a request command: its frame is taken, the body runs in the same event, the response replaces the
earlier one (R183). -/
def serve (code : Byte) (payload : List Byte) (body : State → Reply × State) (s : State) :
    Host.Outcome State Fault Refusal :=
  let r := body s
  .next { r.2 with link := executed code payload r.1 }

/-- The outcome of a read request: it changes no state but the link buffers. -/
def serveRead (code : Byte) (payload : List Byte) (answer : State → Reply) (s : State) :
    Host.Outcome State Fault Refusal :=
  .next { s with link := executed code payload (answer s) }

/-- The outcome of a discarded write transfer: only the receive buffer changes (R181). -/
def discard (bytes : List Byte) (s : State) : Host.Outcome State Fault Refusal :=
  .next { s with link := { s.link with receive := (receive bytes).1 } }

/-! ## Read transfers (R183) -/

/-- A read transfer begins at the status byte (R183). It is no command (log entry 10, DESIGN CHOICE). -/
def Link.beginRead (l : Link) : Link := { l with readPosition := 0 }

/-- One byte of a read transfer, and the link after it: after the check byte the frame repeats (R183). -/
def Link.readByte (l : Link) : Byte × Link :=
  let frame := l.response.frame
  (frame.getD (l.readPosition % frame.length) 0,
   { l with readPosition := (l.readPosition + 1) % frame.length })

/-- The first n bytes of a read transfer (R183). -/
def Link.readBytes : Nat → Link → List Byte × Link
  | 0, l => ([], l)
  | n + 1, l =>
    let one := l.readByte
    let rest := Link.readBytes n one.2
    (one.1 :: rest.1, rest.2)

end Sys2Proof.Machine
end

