-- ==== Sys2Proof/Machine/Operands.lean ====
section
/-! DEFINITION. The operand forms of requests: how coded field bytes name values (R184), and how values are coded in
response payloads (R184, R186). -/

namespace Sys2Proof.Machine

open Sys2Proof

/-! ## Coded fields to values (R184) -/

/-- A yes/no, on/off or valid/invalid byte. -/
def yesNo? (b : Byte) : Option Bool := if b = 0 then some false else if b = 1 then some true else none

/-- A leg byte: N = 0, R = 1. -/
def leg? (b : Byte) : Option Leg := if b = 0 then some .N else if b = 1 then some .R else none

/-- An index byte below a bound. -/
def index? (n : Nat) (b : Byte) : Option (Fin n) := if h : b.toNat < n then some ⟨b.toNat, h⟩ else none

/-- A point index byte. -/
def point? (b : Byte) : Option PointIx := index? 40 b

/-- A track index byte. -/
def track? (b : Byte) : Option TrackIx := index? 41 b

/-- A fallback, reject or default track byte: 255 is none. The outer option says that the byte is in range. -/
def trackOrNone? (b : Byte) : Option (Option TrackIx) := if b = 255 then some none else (track? b).map some

/-- A leg target: kind none = 0, point = 1, track = 2, and an index. The index byte beside kind none is not examined and not
kept (log entry 34, DESIGN CHOICE). -/
def target? (kind index : Byte) : Option Target :=
  if kind = 0 then some .none
  else if kind = 1 then (point? index).map Target.point
  else if kind = 2 then (track? index).map Target.track
  else none

/-- A destination request: kind BLOCK = 0, TRACK = 1, and a value. -/
def destination? (kind value : Byte) : Option Destination :=
  if kind = 0 then some (.block value)
  else if kind = 1 then (track? value).map Destination.track
  else none

/-- A section selector: a point index, or 255 for the lead. -/
def selector? (b : Byte) : Option SectionId := if b = 255 then some .lead else (point? b).map SectionId.point

/-- The active level byte: HIGH = 0, LOW = 1. -/
def level? (b : Byte) : Option Level := if b = 0 then some .high else if b = 1 then some .low else none

/-- The filter class byte: FAST = 0, SLOW = 1. -/
def class? (b : Byte) : Option FilterClass := if b = 0 then some .fast else if b = 1 then some .slow else none

/-- A role kind byte with its index byte (R22, R23): the failing field number, or the role. -/
def role? (kind index : Byte) : Except Nat Role :=
  let indexed {n : Nat} (f : Fin n → Role) : Except Nat Role :=
    match index? n index with
    | some i => .ok (f i)
    | none => .error 2
  if kind = 0 then .ok .unused
  else if kind = 1 then indexed Role.sensorA
  else if kind = 2 then indexed Role.sensorB
  else if kind = 3 then indexed Role.detectN
  else if kind = 4 then indexed Role.detectR
  else if kind = 5 then .ok .stop
  else if kind = 6 then indexed Role.freezeKey
  else .error 1

/-- A number lies in a range. -/
def inRange (lo hi n : Nat) : Bool := decide (lo ≤ n) && decide (n ≤ hi)

/-! ## Values to payload bytes (R184, R186) -/

/-- A number of one byte. -/
def byteOf (n : Nat) : Byte := BitVec.ofNat 8 n

/-- A number of two bytes, least significant first. -/
def bytes2 (n : Nat) : List Byte := le16 (BitVec.ofNat 16 n)

/-- A yes/no value. -/
def flag (b : Bool) : Byte := if b then 1 else 0

/-- A byte whose bits 0, 1, 2, … are flags. -/
def bitsOf (l : List Bool) : Byte := BitVec.ofNat 8 (l.foldr (fun b n => 2 * n + (if b then 1 else 0)) 0)

/-- A leg: N = 0, R = 1. -/
def legByte : Leg → Byte
  | .N => 0
  | .R => 1

/-- A track, or 255 for none. -/
def trackByte (t : Option TrackIx) : Byte :=
  match t with
  | some x => byteOf x.val
  | none => 255

/-- A leg target as kind and index; the index beside kind none is 0 (R8, R184, R188 give it no value; log entry 34, DESIGN
CHOICE). -/
def targetBytes : Target → List Byte
  | .none => [0, 0]
  | .point p => [1, byteOf p.val]
  | .track t => [2, byteOf t.val]

/-- A destination request as kind and value. -/
def destinationBytes : Destination → List Byte
  | .block c => [0, c]
  | .track t => [1, byteOf t.val]

/-- A level: HIGH = 0, LOW = 1 (log entry 12, DEDUCED for raw levels). -/
def levelByte : Level → Byte
  | .high => 0
  | .low => 1

/-- A filter class. -/
def classByte : FilterClass → Byte
  | .fast => 0
  | .slow => 1

/-- The kind and the index of a role (R22, R184). -/
def roleParts : Role → Byte × Option Nat
  | .unused => (0, none)
  | .sensorA h => (1, some h.val)
  | .sensorB h => (2, some h.val)
  | .detectN p => (3, some p.val)
  | .detectR p => (4, some p.val)
  | .stop => (5, none)
  | .freezeKey k => (6, some k.val)

/-- An optional field of a given width: a presence byte, then its bytes, 0 where absent (R186; log entry 11, DEDUCED). -/
def optional {α : Type} (width : Nat) (f : α → List Byte) (o : Option α) : List Byte :=
  match o with
  | some x => 1 :: f x
  | none => 0 :: List.replicate width 0

/-- A list: a count byte, then its entries (R186). -/
def counted {α : Type} (f : α → List Byte) (l : List α) : List Byte := byteOf l.length :: l.flatMap f

/-- The decoder states in the order of R32. -/
def decoderByte : DecoderState → Byte
  | .off => 0
  | .settling => 1
  | .idle => 2
  | .down1 => 3
  | .down2 => 4
  | .down3 => 5
  | .up1 => 6
  | .up2 => 7
  | .up3 => 8
  | .both => 9
  | .held => 10

/-- The section states in the order of R39. -/
def sectionByte : SectionState → Byte
  | .clear => 0
  | .occupied => 1
  | .disturbed => 2

/-- The disturbance causes in the order of R39. -/
def disturbByte : DisturbCause → Byte
  | .startup => 0
  | .rollback => 1
  | .headFault => 2
  | .phantomExit => 3
  | .unexpectedAxle => 4
  | .enteredDisturbed => 5
  | .overcount => 6
  | .unlisted => 7
  | .lostCut => 8

/-- The cut states (R187). -/
def cutStateByte : CutState → Byte
  | .pending => 0
  | .entering => 1
  | .rolling => 2
  | .arrived => 3
  | .lost => 4

/-- The resolution causes (R187). -/
def resolutionByte : ResolutionCause → Byte
  | .trackClosed => 0
  | .trackFull => 1
  | .noBlock => 2

/-- The diversion causes (R187). -/
def diversionByte : DiversionCause → Byte
  | .late => 0
  | .caughtUp => 1
  | .pointUnavailable => 2
  | .frozen => 3

/-- The fault causes in the order of R125 (R188). -/
def faultByte : FaultCause → Byte
  | .throwFailed => 0
  | .detectionLost => 1
  | .unexpectedMove => 2
  | .enteredDuringThrow => 3
  | .legMismatch => 4
  | .sectionDisturbed => 5
  | .returnFailed => 6
  | .startupUnproved => 7

/-- The planning states in the order of R142 (R188). -/
def planByte : PlanState → Byte
  | .idle => 0
  | .set => 1
  | .diverted => 2
  | .requested => 3
  | .waitingClear => 4
  | .waitingPoint => 5

/-- The modes (R189). -/
def modeByte : Mode → Byte
  | .setup => 0
  | .standby => 1
  | .humping => 2
  | .halted => 3

end Sys2Proof.Machine
end

