-- ==== Sys2Proof/Machine/Setup.lean ====
section
/-! DEFINITION. The configuration requests SET POINT, SET YARD and SET LINE (R9, R12, R23). -/

namespace Sys2Proof.Machine

open Sys2Proof

/-- The mode of the part. -/
def State.mode (s : State) : Mode := s.yard.control.mode

/-- The ladder is commissioned: STANDBY, HUMPING or HALTED. -/
def State.commissioned (s : State) : Bool := !(s.mode == .setup)

/-- Fields 2 to 10 of SET POINT with in use = yes: the first failing field, or the record (R8, R9). -/
def pointConfig? (f : PointFields) : Except Nat PointConfig :=
  match yesNo? f.isRoot with
  | none => .error 2
  | some root =>
    match target? f.nKind f.nIndex with
    | none => .error 3
    | some n =>
      match target? f.rKind f.rIndex with
      | none => .error 4
      | some r =>
        if !inRange 300 30000 f.dApp.toNat then .error 5
        else if !inRange 200 3000 f.tThrow.toNat then .error 6
        else if !inRange 0 50 f.grade.toNat then .error 7
        else
          match trackOrNone? f.nFallback with
          | none => .error 8
          | some nf =>
            match trackOrNone? f.rFallback with
            | none => .error 9
            | some rf =>
              if !inRange 5 600 f.stall.toNat then .error 10
              else .ok { isRoot := root, normal := n, reverse := r, dApp := f.dApp.toNat, tThrow := f.tThrow.toNat,
                         grade := f.grade.toNat, nFallback := nf, rFallback := rf, stall := f.stall.toNat }

/-- Replace the configuration record of a point. -/
def State.setConfig (p : PointIx) (c : Option PointConfig) (s : State) : State :=
  { s with ladder := { s.ladder with points := Table.put s.ladder.points p c } }

/-- SET POINT in its checks' order (R9, R10). -/
def setPointBody (f : PointFields) (s : State) : Reply × State :=
  if s.mode ≠ .setup then (refuse .badMode, s)
  else
    match point? f.point with
    | none => (badValue 0, s)
    | some p =>
      match yesNo? f.inUse with
      | none => (badValue 1, s)
      | some false => (done, s.setConfig p none)
      | some true =>
        match pointConfig? f with
        | .error n => (badValue n, s)
        | .ok c => (done, s.setConfig p (some c))

/-- SET_POINT (R9). -/
def execSetPoint (f : PointFields) (s : State) : Host.Outcome State Fault Refusal :=
  serve 0x10 f.bytes (setPointBody f) s

/-- The eight yard constants of SET YARD: the first failing field, or the constants (R11, R12). -/
def constants? (f : YardFields) : Except Nat Constants :=
  if !inRange 40 250 f.spacing.toNat then .error 1
  else if !inRange 0 1000 f.guard.toNat then .error 2
  else if !inRange 200 10000 f.gIn.toNat then .error 3
  else if !inRange 50 (f.gIn.toNat - 50) f.gCpl.toNat then .error 4
  else if !inRange 5 600 f.leadStall.toNat then .error 5
  else if !inRange 1 8 f.slots.toNat then .error 6
  else
    match trackOrNone? f.reject with
    | none => .error 7
    | some r =>
      match trackOrNone? f.defaultTrack with
      | none => .error 8
      | some d =>
        .ok { spacing := f.spacing.toNat, guard := f.guard.toNat, gIn := f.gIn.toNat, gCpl := f.gCpl.toNat,
              leadStall := f.leadStall.toNat, slots := f.slots.toNat, reject := r, defaultTrack := d }

/-- SET YARD in its checks' order (R12). -/
def setYardBody (f : YardFields) (s : State) : Reply × State :=
  if s.mode ≠ .setup then (refuse .badMode, s)
  else
    match constants? f with
    | .error n => (badValue n, s)
    | .ok k => (done, { s with ladder := { s.ladder with consts := k } })

/-- SET_YARD (R12). -/
def execSetYard (f : YardFields) (s : State) : Host.Outcome State Fault Refusal :=
  serve 0x11 f.bytes (setYardBody f) s

/-- An accepted SET LINE: the record is replaced, the filter restarts, and the stop and freeze conditions are reported
(R23, R26, R28, R29). The present raw level is the line's level at the most recent tick, since raw levels enter the model with
LADDER_CLOCK_TICK alone (log entry 36, DESIGN CHOICE). -/
def State.setLine (i : LineIx) (role : Role) (active : Level) (cls : FilterClass) (s : State) : State :=
  let lines := Table.put s.lines i ((Table.look s.lines i).restarted role active cls (rawLevel s.raw i))
  ({ s with lines := lines }).withYard
    ((s.yard.reportStop (stopCondition lines)).reportFreeze s.env (freezeCondition lines))

/-- SET LINE in its checks' order (R23). The line index of one byte is always in range. -/
def setLineBody (line kind index level cls : Byte) (s : State) : Reply × State :=
  if s.mode ≠ .setup then (refuse .badMode, s)
  else
    match role? kind index with
    | .error n => (badValue n, s)
    | .ok role =>
      match level? level with
      | none => (badValue 3, s)
      | some active =>
        match class? cls with
        | none => (badValue 4, s)
        | some c => (done, s.setLine line.toFin role active c)

/-- SET_LINE (R23). -/
def execSetLine (line kind index level cls : Byte) (s : State) : Host.Outcome State Fault Refusal :=
  serve 0x12 [line, kind, index, level, cls] (setLineBody line kind index level cls) s

end Sys2Proof.Machine
end

