-- ==== Sys2Proof/Machine/CutTable.lean ====
section
/-! DEFINITION. The requests of the cut table (chapter 4). -/

namespace Sys2Proof.Machine

open Sys2Proof

/-! ## ENTER and HOLD (R74 to R76) -/

/-- A record made in a free slot is appended at the tail of the pending list with its notice clear; a first entry is a
change of head (R71, R73, R75). -/
def Yard.append (i : SlotIx) (r : Record) (y : Yard) : Yard :=
  let z := (({ y with pendingList := y.pendingList ++ [i] }).putSlot i (some r)).clearNotice (.cut i)
  if y.pendingList.isEmpty then z.judgeMarker else z

/-- The last two checks of ENTER and HOLD, and the making of the record (R74, R75, R76). -/
def State.makeRecord (number : Word16) (r : Record) (s : State) : Reply × State :=
  match s.yard.slotOfNumber number with
  | some i => (refuseAt .duplicate i.val, s)
  | none =>
    match s.yard.freeSlot with
    | none => (refuse .tableFull, s)
    | some i => (doneWith [byteOf i.val], s.withYard (s.yard.append i r))

/-- A destination names a direct track that is not in use while the ladder is commissioned (R74, R77). -/
def State.unusedTrack (s : State) (d : Destination) : Bool :=
  match d with
  | .block _ => false
  | .track t => s.commissioned && !s.ladder.trackInUse t

/-- ENTER in its checks' order (R74, R75). -/
def enterBody (number : Word16) (kind value axles : Byte) (s : State) : Reply × State :=
  if number = 0 then (badValue 1, s)
  else
    match destination? kind value with
    | none => (badValue 2, s)
    | some d =>
      if s.unusedTrack d then (badValue 2, s)
      else if !inRange 2 120 axles.toNat then (badValue 3, s)
      else
        s.makeRecord number
          (.cut { number := number, dest := d, axles := axles.toNat, state := .pending, started := none, actual := none })

/-- ENTER (R75). -/
def execEnter (number : Word16) (kind value axles : Byte) (s : State) : Host.Outcome State Fault Refusal :=
  serve 0x20 (le16 number ++ [kind, value, axles]) (enterBody number kind value axles) s

/-- HOLD (R76). -/
def holdBody (number : Word16) (s : State) : Reply × State :=
  if number = 0 then (badValue 1, s) else s.makeRecord number (.hold number false)

/-- HOLD (R76). -/
def execHold (number : Word16) (s : State) : Host.Outcome State Fault Refusal :=
  serve 0x21 (le16 number) (holdBody number) s

/-! ## AMEND (R77 to R81) -/

/-- The new track of an in-flight AMEND and its resolution cause (R79). -/
def Yard.newTrack (y : Yard) (l : Ladder) (d : Destination) : TrackIx × Option ResolutionCause :=
  match d with
  | .track t => (t, none)
  | .block c => y.lookup l c

/-- The first point at which a route does not agree with an entered prefix (R79). -/
def firstDifference : List Pair → List Pair → Option PointIx
  | [], _ => none
  | pr :: _, [] => some pr.1
  | pr :: rest, r :: route => if pr = r then firstDifference rest route else some pr.1

/-- The point a cut's entered prefix leads to (R81, R156). -/
def Started.nextPoint (x : Started) : Option PointIx := (x.route[x.progress]?).map (fun pr => pr.1)

/-- The planner is told that a cut's route has changed: the point ahead is evaluated if the cut stands at the head of
its queue (R81 step 4, R156). -/
def Yard.routeChanged (e : Env) (i : SlotIx) (y : Yard) : Yard :=
  match (y.startedAt i).bind Started.nextPoint with
  | some q => if y.queueHead q = some i then y.evaluate e q else y
  | none => y

/-- The effect of an in-flight AMEND that passes its tests (R81, R117). -/
def Yard.amendStarted (e : Env) (i : SlotIx) (d : Destination) (t : TrackIx) (cause : Option ResolutionCause)
    (bound : TrackIx) (y : Yard) : Yard :=
  let z := y.modifyCut i (fun c => { c with dest := d })
  if t = bound then z else ((z.reroute e i t cause).raiseCut i .rerouted).routeChanged e i

/-- The answer to an in-flight AMEND: the cut's resolved track after the request, a diversion by the planner's new
evaluation included (R81, R156). -/
def Yard.resolvedReply (y : Yard) (i : SlotIx) : Reply :=
  doneWith [byteOf (((y.startedAt i).map (fun x => x.resolved.val)).getD 0)]

/-- An in-flight AMEND: reachability, closure, room, effect (R79 to R81). -/
def State.amendInFlight (i : SlotIx) (c : Cut) (x : Started) (d : Destination) (s : State) : Reply × State :=
  let n := s.yard.newTrack s.ladder d
  let t := n.1
  let track := s.yard.trackOf t
  let reserved := if t = x.resolved then track.reserved - c.axles else track.reserved
  match firstDifference (x.route.take x.progress) (s.ladder.routeOf t) with
  | some p => (refuseAt .unreachable p.val, s)
  | none =>
    if s.yard.closed s.ladder t then (refuseAt .closed t.val, s)
    else if !s.ladder.hasRoom t track reserved c.axles then (refuseAt .full t.val, s)
    else
      let y := s.yard.amendStarted s.env i d t n.2 x.resolved
      (y.resolvedReply i, s.withYard y)

/-- A PENDING cut with the selected fields replaced (R78). -/
def amendedCut (d : Option Destination) (axles : Option Nat) (c : Cut) : Cut :=
  { c with dest := d.getD c.dest, axles := axles.getD c.axles }

/-- The checks of AMEND on the record, then its effect (R77, R78); `d` and `axles` are the selected fields. -/
def State.amendRecord (number : Word16) (d : Option Destination) (axles : Option Nat) (s : State) : Reply × State :=
  match s.yard.slotOfNumber number with
  | none => (refuse .noRecord, s)
  | some i =>
    match s.yard.cutAt i with
    | none => (refuseAt .notAllowed i.val, s)
    | some c =>
      if c.state = .pending then (done, s.withYard (s.yard.modifyCut i (amendedCut d axles)))
      else if !c.onLadder then (refuseAt .notAllowed i.val, s)
      else if axles.isSome then (refuseAt .notAllowed i.val, s)
      else
        match c.started, d with
        | some x, some dest => s.amendInFlight i c x dest
        | _, _ => (refuseAt .notAllowed i.val, s)

/-- A selected destination: none where it is not selected, or the check it fails (R77). -/
def State.selectedDestination (selected : Bool) (kind value : Byte) (s : State) : Except Nat (Option Destination) :=
  if !selected then .ok none
  else
    match destination? kind value with
    | none => .error 3
    | some d => if s.unusedTrack d then .error 3 else .ok (some d)

/-- AMEND in its checks' order: the selection is 1 for the destination, 2 for the axle count, 3 for both (R77, R184). -/
def amendBody (number : Word16) (selection kind value axles : Byte) (s : State) : Reply × State :=
  if number = 0 then (badValue 1, s)
  else if !inRange 1 3 selection.toNat then (badValue 2, s)
  else
    match s.selectedDestination (selection = 1 || selection = 3) kind value with
    | .error n => (badValue n, s)
    | .ok d =>
      let counts : Bool := selection = 2 || selection = 3
      if counts && !inRange 2 120 axles.toNat then (badValue 4, s)
      else s.amendRecord number d (if counts then some axles.toNat else none)

/-- AMEND (R77). -/
def execAmend (number : Word16) (selection kind value axles : Byte) (s : State) : Host.Outcome State Fault Refusal :=
  serve 0x22 (le16 number ++ [selection, kind, value, axles]) (amendBody number selection kind value axles) s

/-! ## WITHDRAW and RETIRE (R83, R84) -/

/-- An entry is withdrawn: it leaves the pending list, its slot is freed, its notice cleared; a new head is judged
(R71, R83). -/
def Yard.withdrawSlot (i : SlotIx) (y : Yard) : Yard :=
  let z := (({ y with pendingList := y.pendingList.filter (fun j => !(j == i)) }).putSlot i none).clearNotice (.cut i)
  if y.pendingList.head? = some i then z.judgeMarker else z

/-- WITHDRAW (R66, R83; the field number of the number by log entry 13, DEDUCED). -/
def withdrawBody (number : Word16) (s : State) : Reply × State :=
  if number = 0 then (badValue 1, s)
  else
    match s.yard.slotOfNumber number with
    | none => (refuse .noRecord, s)
    | some i =>
      match s.yard.cutAt i with
      | none => (done, s.withYard (s.yard.withdrawSlot i))
      | some c =>
        if c.state = .pending then (done, s.withYard (s.yard.withdrawSlot i)) else (refuseAt .notAllowed i.val, s)

/-- WITHDRAW (R83). -/
def execWithdraw (number : Word16) (s : State) : Host.Outcome State Fault Refusal :=
  serve 0x23 (le16 number) (withdrawBody number) s

/-- A cut record is retired: its slot is freed, its notice cleared, the crest unit told (R84, R98). -/
def Yard.retireSlot (i : SlotIx) (y : Yard) : Yard := ((y.putSlot i none).clearNotice (.cut i)).forgetSlot i

/-- RETIRE (R66, R84; the field number of the number by log entry 13, DEDUCED). -/
def retireBody (number : Word16) (s : State) : Reply × State :=
  if number = 0 then (badValue 1, s)
  else
    match s.yard.slotOfNumber number with
    | none => (refuse .noRecord, s)
    | some i =>
      match s.yard.cutAt i with
      | none => (refuseAt .notAllowed i.val, s)
      | some c =>
        if c.state = .arrived ∨ c.state = .lost then (done, s.withYard (s.yard.retireSlot i))
        else (refuseAt .notAllowed i.val, s)

/-- RETIRE (R84). -/
def execRetire (number : Word16) (s : State) : Host.Outcome State Fault Refusal :=
  serve 0x24 (le16 number) (retireBody number) s

/-! ## READ CUT (R85, R187) -/

/-- A list of bytes brought to a length with zeros. -/
def padded (n : Nat) (l : List Byte) : List Byte := (l ++ List.replicate n 0).take n

/-- A route pair: the point in bits 0–5, the leg in bit 7 (R187). -/
def pairByte (pr : Pair) : Byte := byteOf (pr.1.val + match pr.2 with
  | .N => 0
  | .R => 128)

/-- A diversion entry: point, cause, track before (R187). -/
def diversionBytes (d : Diversion) : List Byte := [byteOf d.point.val, diversionByte d.cause, byteOf d.before.val]

/-- Bytes 10 to 24 and 26 to 58 of the cut layout, in two parts around the actual track (R187). -/
def startedBytes (o : Option Started) : List Byte × List Byte :=
  match o with
  | none => (List.replicate 15 0, List.replicate 33 0)
  | some x =>
    (le32 x.order ++
      [byteOf x.resolved.val, (x.cause.map resolutionByte).getD 0, byteOf x.route.length, byteOf x.progress,
       byteOf x.crestAxles, byteOf x.inTrack] ++ bytes2 (x.speed.getD 0) ++ le16 (x.coupled.getD 0) ++
      [byteOf (x.short.getD 0)],
     padded 8 (x.route.map pairByte) ++ [byteOf x.diversions.length] ++
      padded 24 (x.diversions.flatMap diversionBytes))

/-- The presence byte of the cut layout (R187). -/
def cutPresence (c : Cut) : Byte :=
  match c.started with
  | none => 0
  | some x =>
    bitsOf [true, x.cause.isSome, x.speed.isSome, x.coupled.isSome, x.short.isSome, c.actual.isSome, x.hazard]

/-- The payload of READ CUT: 59 bytes for a cut, 6 for a marker (R187). -/
def recordBytes (i : SlotIx) (r : Record) (notice : Byte) : List Byte :=
  match r with
  | .hold number reached => [byteOf i.val, 1] ++ le16 number ++ [flag reached, notice]
  | .cut c =>
    let b := startedBytes c.started
    [byteOf i.val, 0] ++ le16 c.number ++ [cutStateByte c.state, notice] ++ destinationBytes c.dest ++
      [byteOf c.axles, cutPresence c] ++ b.1 ++ [byteOf ((c.actual.map (fun t => t.val)).getD 0)] ++ b.2

/-- The answer of READ CUT for a slot (R85). -/
def State.readSlot (s : State) (i : SlotIx) : Reply :=
  match Table.look s.yard.slots i with
  | some r => doneWith (recordBytes i r (Table.look s.yard.notices.cut i))
  | none => refuseAt .noRecord i.val

/-- READ CUT in its checks' order (R85). -/
def readCutAnswer (kind : Byte) (value : Word16) (s : State) : Reply :=
  if kind = 0 then
    if value = 0 then badValue 1
    else
      match s.yard.slotOfNumber value with
      | some i => s.readSlot i
      | none => refuse .noRecord
  else if kind = 1 then
    if h : value.toNat < 64 then s.readSlot ⟨value.toNat, h⟩ else badValue 2
  else badValue 0

/-- READ_CUT (R85). -/
def execReadCut (kind : Byte) (value : Word16) (s : State) : Host.Outcome State Fault Refusal :=
  serveRead 0x28 (kind :: le16 value) (readCutAnswer kind value) s

/-! ## READ PENDING (R86) -/

/-- The number of the record in a slot. -/
def Yard.numberAt (y : Yard) (i : SlotIx) : Word16 := ((Table.look y.slots i).map Record.number).getD 0

/-- READ PENDING (R86, R186). -/
def readPendingAnswer (start : Byte) (s : State) : Reply :=
  if start.toNat < 64 then
    doneWith (byteOf s.yard.pendingList.length ::
      counted (fun i => le16 (s.yard.numberAt i)) ((s.yard.pendingList.drop start.toNat).take Config.pendingChunk))
  else badValue 1

/-- READ_PENDING (R86). -/
def execReadPending (start : Byte) (s : State) : Host.Outcome State Fault Refusal :=
  serveRead 0x29 [start] (readPendingAnswer start) s

end Sys2Proof.Machine
end

