-- ==== Sys2Proof/Machine/Device.lean ====
section
/-! DEFINITION. READ DEVICE (R172, R189), READ NOTICES (R177, R190), ACK (R175) and SET ATTENTION (R179). -/

namespace Sys2Proof.Machine

open Sys2Proof

/-! ## READ DEVICE (R172, R189) -/

/-- The six halt causes in the order of their numbers (R169). -/
def haltCauses : List HaltCause :=
  [.stopRequest, .stopInput, .disturbedSection, .lostPoint, .stalledSection, .freeze]

/-- Byte 2: the live conditions on the bits of the causes' numbers; bit 0 is 0 (R189). -/
def liveByte (m : ModeControl) : Byte := bitsOf (haltCauses.map m.live)

/-- Byte 3: stop flag, freeze flag, freeze armed, PERMIT (R189). -/
def State.flagsByte (s : State) : Byte :=
  bitsOf [s.yard.control.stopFlag, s.yard.control.freezeFlag, freezeArmed s.lines, s.yard.control.permit]

/-- Byte 10: no head = 0, a cut = 1, a marker PENDING = 2, a marker REACHED = 3 (R189). -/
def headKind : Option Record → Byte
  | none => 0
  | some (.cut _) => 1
  | some (.hold _ false) => 2
  | some (.hold _ true) => 3

/-- The record at the head of the pending list. -/
def Yard.headRecord (y : Yard) : Option Record := y.pendingList.head?.bind (fun i => Table.look y.slots i)

/-- Bytes 7 to 11: the pending list and the cut table (R189). -/
def Yard.listBytes (y : Yard) : List Byte :=
  byteOf y.pendingList.length :: le16 ((y.headRecord.map Record.number).getD 0) ++
    [headKind y.headRecord,
     byteOf ((List.finRange 64).filter (fun i => (Table.look y.slots i).isSome)).length]

/-- Byte 12: IDLE = 0, ENTERING = 1, ABSORBING = 2 (R189). -/
def crestByte : CrestState → Byte
  | .idle => 0
  | .entering _ _ => 1
  | .absorbing _ _ => 2

/-- The entering cut's slot, where the crest unit holds one (R88). -/
def CrestState.slot? : CrestState → Option SlotIx
  | .idle => none
  | .entering i _ => some i
  | .absorbing i _ => i

/-- The entering number, the tally and the target count, where the crest unit holds them (R88). -/
def CrestState.entry? : CrestState → Option Entry
  | .idle => none
  | .entering _ x => some x
  | .absorbing _ x => some x

/-- Bytes 12 to 33: the crest unit (R189). -/
def Crest.bytes (c : Crest) : List Byte :=
  [crestByte c.state, bitsOf [c.state.slot?.isSome, c.state.entry?.isSome, c.timer.isSome, c.previous.isSome],
   byteOf ((c.state.slot?.map (fun i => i.val)).getD 0)] ++
    le16 ((c.state.entry?.map (fun x => x.number)).getD 0) ++
    [byteOf ((c.state.entry?.map (fun x => x.tally)).getD 0), byteOf ((c.state.entry?.map (fun x => x.target)).getD 0)] ++
    le32 ((c.timer.map (fun t => t.expiry)).getD 0) ++
    [byteOf ((c.previous.map (fun p => p.slot.val)).getD 0)] ++ le16 ((c.previous.map (fun p => p.number)).getD 0) ++
    le32 ((c.previous.map (fun p => p.instant)).getD 0) ++ le32 c.nextOrder

/-- The yard constants, laid out as the SET YARD payload (R189). -/
def Constants.bytes (k : Constants) : List Byte :=
  [byteOf k.spacing] ++ bytes2 k.guard ++ bytes2 k.gIn ++ bytes2 k.gCpl ++ bytes2 k.leadStall ++
    [byteOf k.slots, trackByte k.reject, trackByte k.defaultTrack]

/-- The 54 bytes of READ DEVICE (R189). -/
def State.deviceBytes (s : State) : List Byte :=
  let m := s.yard.control
  [modeByte m.mode, m.halt, liveByte m, s.flagsByte, byteOf m.disturbed, byteOf m.lost, byteOf m.stall] ++
    s.yard.listBytes ++ s.yard.crest.bytes ++ [byteOf s.yard.slotsInUse, byteOf s.yard.waiting.length] ++
    s.ladder.consts.bytes ++ [s.straps.setWidth 8] ++ le32 s.clock ++ [s.yard.notices.device]

/-- READ_DEVICE (R172). -/
def execReadDevice (s : State) : Host.Outcome State Fault Refusal :=
  serveRead 0x60 [] (fun z => doneWith z.deviceBytes) s

/-! ## READ NOTICES (R177, R190) -/

/-- A bitmap of n bytes: bit k of the byte at offset j stands for index 8j + k (R190). -/
def bitmap (n : Nat) (raised : Nat → Bool) : List Byte :=
  (List.range n).map (fun j => bitsOf ((List.range 8).map (fun k => raised (8 * j + k))))

/-- The flag of the notice at an index of a table of reason sets; false beyond the table. -/
def raisedAt {n : Nat} (t : Table n Byte) (i : Nat) : Bool :=
  if h : i < n then Table.look t ⟨i, h⟩ != 0 else false

/-- The 23 bytes of READ NOTICES (R190). -/
def Notices.bytes (n : Notices) : List Byte :=
  bitmap 8 (raisedAt n.cut) ++ bitmap 5 (raisedAt n.point) ++ bitmap 6 (raisedAt n.track) ++
    [bitsOf [n.lead != 0, n.device != 0], n.lead, n.device,
     bitsOf ((List.finRange 5).map (fun c => Table.look n.enables c) ++ [n.mask, n.attn])]

/-- READ_NOTICES (R177). -/
def execReadNotices (s : State) : Host.Outcome State Fault Refusal :=
  serveRead 0x61 [] (fun z => doneWith z.yard.notices.bytes) s

/-! ## ACK (R175) -/

/-- The notice of a class and an index: the failing field number, or the notice (R173, R175). -/
def notice? (cls index : Byte) : Except Nat NoticeKey :=
  let found {α : Type} (o : Option α) (f : α → NoticeKey) : Except Nat NoticeKey :=
    match o with
    | some i => .ok (f i)
    | none => .error 1
  if cls = 0 then found (index? 64 index) NoticeKey.cut
  else if cls = 1 then found (point? index) NoticeKey.point
  else if cls = 2 then found (index? 1 index) (fun _ => NoticeKey.lead)
  else if cls = 3 then found (track? index) NoticeKey.track
  else if cls = 4 then found (index? 1 index) (fun _ => NoticeKey.device)
  else .error 0

/-- The reason byte with a bit for each reason named. -/
def reasonMask (reasons : List Byte) : Byte := reasons.foldl (fun b r => b ||| reasonBit r.toNat) 0

/-- A reason set after those named have been removed (R175). -/
def acknowledged (set : Byte) (reasons : List Byte) : Byte := set &&& ~~~ (reasonMask reasons)

/-- The reasons are not none, and all of them belong to the class (R175). -/
def reasonsAllowed (k : NoticeKey) (reasons : List Byte) : Bool :=
  !reasons.isEmpty && reasons.all (fun r => inRange 1 k.reasonCount r.toNat)

/-- ACK in its checks' order (R175). -/
def ackBody (cls index : Byte) (reasons : List Byte) (s : State) : Reply × State :=
  match notice? cls index with
  | .error n => (badValue n, s)
  | .ok k =>
    if !reasonsAllowed k reasons then (badValue 2, s)
    else
      let left := acknowledged (s.yard.notices.reasons k) reasons
      (doneWith [left], s.withYard (s.yard.modifyNotices (fun n => n.putReasons k left)))

/-- ACK (R175, R184). An ACK that names none or more than seven reasons has a length outside 3 to 9, so its transfer is
discarded (R181, R184; log entry 31, DEDUCED). -/
def execAck (cls index : Byte) (reasons : List Byte) (s : State) : Host.Outcome State Fault Refusal :=
  if lengthAllowed 0x62 (reasons.length + 2) then
    serve 0x62 (cls :: index :: reasons) (ackBody cls index reasons) s
  else discard (requestFrame 0x62 (cls :: index :: reasons)) s

/-! ## SET ATTENTION (R179) -/

/-- Five enables and a mask: the first field that is neither on nor off, or the values (R179). -/
def attention? (e0 e1 e2 e3 e4 mask : Byte) : Except Nat (Table 5 Bool × Bool) :=
  match yesNo? e0, yesNo? e1, yesNo? e2, yesNo? e3, yesNo? e4, yesNo? mask with
  | none, _, _, _, _, _ => .error 0
  | _, none, _, _, _, _ => .error 1
  | _, _, none, _, _, _ => .error 2
  | _, _, _, none, _, _ => .error 3
  | _, _, _, _, none, _ => .error 4
  | _, _, _, _, _, none => .error 5
  | some a, some b, some c, some d, some e, some m =>
    .ok (Table.tab (fun i => [a, b, c, d, e].getD i.val false), m)

/-- The enables and the mask are replaced together (R179). -/
def Yard.setAttention (enables : Table 5 Bool) (mask : Bool) (y : Yard) : Yard :=
  y.modifyNotices (fun n => { n with enables := enables, mask := mask })

/-- SET ATTENTION (R179). -/
def setAttentionBody (e0 e1 e2 e3 e4 mask : Byte) (s : State) : Reply × State :=
  match attention? e0 e1 e2 e3 e4 mask with
  | .error n => (badValue n, s)
  | .ok v => (done, s.withYard (s.yard.setAttention v.1 v.2))

/-- SET_ATTENTION (R179). -/
def execSetAttention (e0 e1 e2 e3 e4 mask : Byte) (s : State) : Host.Outcome State Fault Refusal :=
  serve 0x63 [e0, e1, e2, e3, e4, mask] (setAttentionBody e0 e1 e2 e3 e4 mask) s

end Sys2Proof.Machine
end

