-- ==== Sys2Proof/Machine/Events.lean ====
section
/-! DEFINITION. The meanings of the commands that are events: reset, tick, filtered transitions, timer expiries, discarded
transfers. An event whose condition does not hold finds nothing to do (log entry 2, DEDUCED). -/

namespace Sys2Proof.Machine

open Sys2Proof

/-- The outcome of an event of the yard. -/
def State.event (s : State) (f : Env → Yard → Yard) : Host.Outcome State Fault Refusal :=
  .next (s.withYard (f s.env s.yard))

/-- The state after a hardware reset: the straps are read, the raw levels are the yard's and stay, the queue stays
(R13, R180; log entries 5 and 6, DESIGN CHOICE). -/
def State.afterReset (adr1 adr0 : Bool) (s : State) : State :=
  { State.reset with
      straps := BitVec.ofNat 2 (2 * (if adr1 then 1 else 0) + (if adr0 then 1 else 0)),
      raw := s.raw, pending := s.pending }

/-- HARDWARE_RESET (R13, R22, R32, R87, R88, R106, R108, R110, R126, R162, R174, R178, R180). -/
def execHardwareReset (adr1 adr0 : Bool) (s : State) : Host.Outcome State Fault Refusal :=
  .next (s.afterReset adr1 adr0)

/-- FILTERED_TRANSITION of a line that is due, with those delivered with it (R25, R27, R28, R29). -/
def execFilteredTransition (line : LineIx) (s : State) : Host.Outcome State Fault Refusal :=
  if (Table.look s.lines line).due then .next (s.takeTransitions (Table.look s.lines line).role.consumer) else .next s

/-- BOTH_ACTIVE_TIMER_EXPIRY of a head (R36, R54). -/
def execBothActiveTimerExpiry (h : HeadIx) (s : State) : Host.Outcome State Fault Refusal :=
  if (Table.look s.heads h).bothActiveExpired s.clock then
    .next (({ s with heads := Table.put s.heads h ((Table.look s.heads h).faulted s.clock) }).withYard
      (s.yard.headFault s.env h))
  else .next s

/-- STALL_TIMER_EXPIRY of a section (R61). -/
def execStallTimerExpiry (sec : SectionId) (s : State) : Host.Outcome State Fault Refusal :=
  s.event (fun e y => y.stallExpired e sec)

/-- SHORT_CUT (R97). -/
def execShortCut (s : State) : Host.Outcome State Fault Refusal := s.event (fun e y => y.shortCut e)

/-- ABSORPTION_END (R100). -/
def execAbsorptionEnd (s : State) : Host.Outcome State Fault Refusal := s.event (fun e y => y.absorptionEnd e)

/-- THROW_TIMEOUT of a point (R136). -/
def execThrowTimeout (p : PointIx) (s : State) : Host.Outcome State Fault Refusal :=
  s.event (fun e y => y.throwTimeout e p)

/-- RETURN_FAILED of a point (R136). -/
def execReturnFailed (p : PointIx) (s : State) : Host.Outcome State Fault Refusal :=
  s.event (fun e y => y.returnFailed e p)

/-- DEADLINE_EXPIRY of a point's entry (R133). -/
def execDeadlineExpiry (p : PointIx) (s : State) : Host.Outcome State Fault Refusal :=
  s.event (fun e y => y.deadlineExpiry e p)

/-- REQUEST_DISCARDED: the transfer passes through the receive buffer and nothing else changes (R181). Bytes that hold a
good frame are no discarded request and find nothing to do (log entry 9, DESIGN CHOICE). -/
def execRequestDiscarded (bytes : List Byte) (s : State) : Host.Outcome State Fault Refusal :=
  if (goodFrame bytes).isNone then discard bytes s else .next s

/-- A queue entry at a tick: it remembers that 2^31 ticks have elapsed (R145; log entry 7, DEDUCED). -/
def QueueEntry.tick (now : Instant) (q : QueueEntry) : QueueEntry :=
  { q with longAgo := q.longAgo || decide (Config.halfRange ≤ ticksBetween q.instant now) }

/-- The previous cut at a tick: it remembers that 2^31 ticks have elapsed (R95; log entry 7, DEDUCED). -/
def Previous.tick (now : Instant) (p : Previous) : Previous :=
  { p with longAgo := p.longAgo || decide (Config.halfRange ≤ ticksBetween p.instant now) }

/-- The crest gap timer at a tick: it remembers that 2^31 ticks have elapsed (R94; log entry 7, DEDUCED). -/
def GapTimer.tick (now : Instant) (t : GapTimer) : GapTimer :=
  { t with longAgo := t.longAgo || decide (Config.halfRange ≤ ticksBetween t.origin now) }

/-- The yard at a tick: only the memories of 2^31 elapsed ticks change (R94, R95, R145). -/
def Yard.tick (now : Instant) (y : Yard) : Yard :=
  { y with queues := Table.tab (fun q => (Table.look y.queues q).map (QueueEntry.tick now)),
           crest := { y.crest with previous := y.crest.previous.map (Previous.tick now),
                                   timer := y.crest.timer.map (GapTimer.tick now) } }

/-- LADDER_CLOCK_TICK: the clock rises by 1 and every line due for a sample is sampled (R1, R24, R25); heads, queues and
crest remember what is 2^31 ticks ago. The clock does not wait for an expiry whose event has not been sent (log entry 3,
DESIGN CHOICE). -/
def execLadderClockTick (raw : BitVec 256) (s : State) : Host.Outcome State Fault Refusal :=
  let now := s.clock + 1
  .next { s with
    clock := now, raw := raw,
    lines := Table.tab (fun i => (Table.look s.lines i).tick (rawLevel raw i) now),
    heads := Table.tab (fun h => (Table.look s.heads h).tick now),
    yard := s.yard.tick now }

end Sys2Proof.Machine
end

