-- ==== Sys2Proof/Machine/Modes.lean ====
section
/-! DEFINITION. The mode requests (R164 to R168). -/

namespace Sys2Proof.Machine

open Sys2Proof

/-! ## COMMISSION (R164) -/

/-- A section record as COMMISSION creates it (R39). -/
def startupSection (limit : Nat) : Section :=
  { state := .disturbed, count := 0, occupants := [], stallTimer := none, stallFlag := false, stallLimit := limit,
    cause := some .startup }

/-- A point record as COMMISSION creates it from the detection (R126). -/
def startupPoint (detectN detectR : Bool) : Point :=
  { state := match provedLeg detectN detectR with
      | some l => .proved l
      | none => .lost .startupUnproved,
    barred := false, detectN := detectN, detectR := detectR }

/-- The point records that COMMISSION creates (R126). -/
def startupPoints (s : State) : Table 40 (Option Point) :=
  Table.tab (fun p =>
    if s.ladder.inUse p then some (startupPoint (roleLevel s.lines (.detectN p)) (roleLevel s.lines (.detectR p)))
    else none)

/-- The points that COMMISSION makes LOST. -/
def startupLost (points : Table 40 (Option Point)) : List PointIx :=
  (List.finRange 40).filter (fun p => ((Table.look points p).map (fun x => x.state.isLost)) == some true)

/-- The heads after COMMISSION (R32). -/
def startupHeads (s : State) : Table 82 Head :=
  Table.tab (fun h =>
    startedHead (s.ladder.headConfigured h) (roleLevel s.lines (.sensorA h)) (roleLevel s.lines (.sensorB h)))

/-- The yard after COMMISSION (R39, R42, R126, R142, R164, R174). -/
def startupYard (s : State) : Yard :=
  let points := startupPoints s
  let y : Yard :=
    { s.yard with
        lead := some (startupSection s.ladder.consts.leadStall),
        sections := Table.tab (fun p => (s.ladder.config p).map (fun c => startupSection c.stall)),
        queues := Table.fill 40 [], points := points, drive := Table.fill 80 false, slotsInUse := 0, waiting := [],
        plans := Table.tab (fun p => (s.ladder.config p).map (fun _ => Plan.idle)),
        control := { s.yard.control with
          mode := .standby, halt := 0, disturbed := s.ladder.pointsInUse.length + 1,
          lost := (startupLost points).length, stall := 0 } }
  (startupLost points).foldl (fun z p => z.raisePoint p .lost) y

/-- The state after COMMISSION (R164). -/
def State.commissionedFrom (s : State) : State :=
  ({ s with heads := startupHeads s }).withYard (startupYard s)

/-- COMMISSION: the ladder check, the line check, then the initialisation (R14, R31, R164). -/
def commissionBody (s : State) : Reply × State :=
  if s.mode ≠ .setup then (refuse .badMode, s)
  else
    match s.ladder.check with
    | some f => (refuseCheck .ladderInvalid f, s)
    | none =>
      match s.ladder.checkLines s.lines with
      | some f => (refuseCheck .linesInvalid f, s)
      | none => (done, s.commissionedFrom)

/-- COMMISSION (R164). -/
def execCommission (s : State) : Host.Outcome State Fault Refusal := serve 0x18 [] commissionBody s

/-! ## DECOMMISSION (R165) -/

/-- The crest unit after DECOMMISSION: IDLE, the next hump order kept (R88). -/
def Crest.decommissioned (c : Crest) : Crest := { c with state := .idle, timer := none, previous := none }

/-- The yard after DECOMMISSION (R39, R88, R126, R142, R165); the crest unit then judges the head of the pending list
(R102). -/
def Yard.decommission (y : Yard) : Yard :=
  ({ y with
      lead := none, sections := Table.fill 40 none, queues := Table.fill 40 [], points := Table.fill 40 none,
      drive := Table.fill 80 false, slotsInUse := 0, waiting := [], plans := Table.fill 40 none,
      crest := y.crest.decommissioned,
      control := { y.control with mode := .setup, halt := 0, disturbed := 0, lost := 0, stall := 0 } }).judgeMarker

/-- DECOMMISSION (R165). -/
def decommissionBody (s : State) : Reply × State :=
  if s.mode ≠ .standby then (refuse .badMode, s)
  else if s.yard.anyOnLadder then (refuse .busy, s)
  else (done, ({ s with heads := Table.fill 82 Head.off }).withYard s.yard.decommission)

/-- DECOMMISSION (R165). -/
def execDecommission (s : State) : Host.Outcome State Fault Refusal := serve 0x19 [] decommissionBody s

/-! ## START, STOP, RESUME, FINISH (R166 to R168) -/

/-- The mode is set and the halt-cause set emptied (R166, R167, R168). -/
def Yard.enterMode (m : Mode) (y : Yard) : Yard := y.modifyControl (fun c => { c with mode := m, halt := 0 })

/-- START and RESUME after their mode check: the first live condition refuses (R166, R167). -/
def State.goHumping (s : State) : Reply × State :=
  match s.yard.control.firstLive with
  | some c => (refuseAt .notReady (haltCauseNumber c), s)
  | none => (done, s.withYard (s.yard.enterMode .humping))

/-- START (R166). -/
def startBody (s : State) : Reply × State := if s.mode ≠ .standby then (refuse .badMode, s) else s.goHumping

/-- START (R166). -/
def execStart (s : State) : Host.Outcome State Fault Refusal := serve 0x1A [] startBody s

/-- STOP: STOP_REQUEST is entered in HUMPING and HALTED (R167, R169). -/
def stopBody (s : State) : Reply × State :=
  match s.mode with
  | .humping => (done, s.withYard (s.yard.enterCause .stopRequest))
  | .halted => (done, s.withYard (s.yard.enterCause .stopRequest))
  | .standby => (refuse .badMode, s)
  | .setup => (refuse .badMode, s)

/-- STOP (R167). -/
def execStop (s : State) : Host.Outcome State Fault Refusal := serve 0x1B [] stopBody s

/-- RESUME (R167). -/
def resumeBody (s : State) : Reply × State := if s.mode ≠ .halted then (refuse .badMode, s) else s.goHumping

/-- RESUME (R167). -/
def execResume (s : State) : Host.Outcome State Fault Refusal := serve 0x1C [] resumeBody s

/-- FINISH after its mode check (R168). -/
def State.finishHumping (s : State) : Reply × State :=
  if s.yard.anyOnLadder then (refuse .busy, s) else (done, s.withYard (s.yard.enterMode .standby))

/-- FINISH (R168). -/
def finishBody (s : State) : Reply × State :=
  match s.mode with
  | .humping => s.finishHumping
  | .halted => s.finishHumping
  | .standby => (refuse .badMode, s)
  | .setup => (refuse .badMode, s)

/-- FINISH (R168). -/
def execFinish (s : State) : Host.Outcome State Fault Refusal := serve 0x1D [] finishBody s

end Sys2Proof.Machine
end

