-- ==== Sys2Proof/Machine/Points.lean ====
section
/-! DEFINITION. The requests on points: THROW, BAR, UNBAR, RESTORE and READ POINT (section 7.6, R188). -/

namespace Sys2Proof.Machine

open Sys2Proof

/-! ## The common checks (section 7.6) -/

/-- The checks that come first: the mode, the point index, in use. Then the request goes on with the point and its
record. -/
def onPoint (point : Byte) (body : PointIx → Point → State → Reply × State) (s : State) : Reply × State :=
  if s.mode = .setup then (refuse .badMode, s)
  else
    match point? point with
    | none => (badValue 0, s)
    | some p =>
      match s.yard.pointOf p with
      | none => (refuseAt .noRecord p.val, s)
      | some x => body p x s

/-! ## THROW (R138) -/

/-- The requested leg is the one the point lies in: a FAULTY point becomes PROVED, the planner is told (R138). -/
def Yard.throwInPosition (e : Env) (p : PointIx) (l : Leg) (y : Yard) : Yard :=
  (y.setPointState p (.proved l)).evaluate e p

/-- The other leg is requested: a MANUAL entry is placed and the arbiter acts (R138). -/
def Yard.throwPlaced (e : Env) (p : PointIx) (l : Leg) (y : Yard) : Yard :=
  (y.placeWaiting e { point := p, target := l, claim := .manual }).arbitrate e

/-- The checks of THROW after the leg, in their order, for a point whose lie is known where it is at rest (R138). -/
def Yard.throwRefusal (y : Yard) (p : PointIx) (x : Point) : Option Status :=
  if x.state.inMotion then some .busy
  else if x.state.isLost then some .notProved
  else if x.barred then some .barred
  else if (y.waitingOf p).isSome then some .busy
  else if !y.sectionClear (.point p) then some .occupied
  else if !(y.queueOf p).isEmpty then some .busy
  else if y.control.freezeFlag then some .frozen
  else none

/-- THROW after the common checks (R138): outcome IN_POSITION = 0, PLACED = 1 (R185). -/
def throwBody (leg : Byte) (p : PointIx) (x : Point) (s : State) : Reply × State :=
  match leg? leg with
  | none => (badValue 1, s)
  | some l =>
    match s.yard.throwRefusal p x with
    | some st => (refuseAt st p.val, s)
    | none =>
      if x.state.lie = some l then (doneWith [0], s.withYard (s.yard.throwInPosition s.env p l))
      else (doneWith [1], s.withYard (s.yard.throwPlaced s.env p l))

/-- THROW (R138). -/
def execThrow (point leg : Byte) (s : State) : Host.Outcome State Fault Refusal :=
  serve 0x40 [point, leg] (onPoint point (throwBody leg)) s

/-! ## BAR and UNBAR (R139) -/

/-- Set the bar flag of a point. -/
def Yard.setBar (p : PointIx) (b : Bool) (y : Yard) : Yard := y.modifyPoint p (fun x => { x with barred := b })

/-- The effect of BAR: the bar is set, an entry of the point leaves the list without a notice, the planner is told. -/
def Yard.bar (e : Env) (p : PointIx) (y : Yard) : Yard := ((y.setBar p true).dropWaiting e p).evaluate e p

/-- BAR after the common checks (R139). -/
def barBody (p : PointIx) (x : Point) (s : State) : Reply × State :=
  if x.state.inMotion then (refuseAt .busy p.val, s)
  else if x.state.isLost then (refuseAt .notAllowed p.val, s)
  else if x.barred then (done, s)
  else (done, s.withYard (s.yard.bar s.env p))

/-- BAR (R139). -/
def execBar (point : Byte) (s : State) : Host.Outcome State Fault Refusal := serve 0x41 [point] (onPoint point barBody) s

/-- UNBAR after the common checks (R139). -/
def unbarBody (p : PointIx) (x : Point) (s : State) : Reply × State :=
  if x.barred then (done, s.withYard ((s.yard.setBar p false).evaluate s.env p)) else (done, s)

/-- UNBAR (R139). -/
def execUnbar (point : Byte) (s : State) : Host.Outcome State Fault Refusal :=
  serve 0x42 [point] (onPoint point unbarBody) s

/-! ## RESTORE (R140) -/

/-- The effect of RESTORE where detection proves a leg (R140, R163). -/
def Yard.restorePoint (e : Env) (p : PointIx) (wasLost : Bool) (l : Leg) (y : Yard) : Yard :=
  let z := y.setPointState p (.proved l)
  (if wasLost then z.reportRestored else z).evaluate e p

/-- The point is PROVED. -/
def PointState.isProved : PointState → Bool
  | .proved _ => true
  | _ => false

/-- RESTORE after the common checks (R140). -/
def restoreBody (p : PointIx) (x : Point) (s : State) : Reply × State :=
  if x.state.inMotion then (refuseAt .busy p.val, s)
  else if x.state.isProved then (refuseAt .notAllowed p.val, s)
  else
    match provedLeg x.detectN x.detectR with
    | none => (refuseAt .notProved p.val, s)
    | some l => (doneWith [legByte l], s.withYard (s.yard.restorePoint s.env p x.state.isLost l))

/-- RESTORE (R140). -/
def execRestore (point : Byte) (s : State) : Host.Outcome State Fault Refusal :=
  serve 0x43 [point] (onPoint point restoreBody) s

/-! ## READ POINT (R141, R188) -/

/-- The configuration record as the SET POINT payload; for a point not in use bytes 2 to 15 are 0 (R188). -/
def configBytes (p : PointIx) (c : Option PointConfig) : List Byte :=
  match c with
  | none => [byteOf p.val, 0] ++ List.replicate 14 0
  | some c =>
    [byteOf p.val, 1, flag c.isRoot] ++ targetBytes c.normal ++ targetBytes c.reverse ++ bytes2 c.dApp ++
      bytes2 c.tThrow ++ [byteOf c.grade, trackByte c.nFallback, trackByte c.rFallback] ++ bytes2 c.stall

/-- The states in the order of R188. -/
def pointStateByte : PointState → Byte
  | .proved _ => 0
  | .moving _ _ _ _ => 1
  | .returning _ _ _ => 2
  | .faulty _ _ => 3
  | .lost _ => 4

/-- The leg of the state (R125). -/
def PointState.leg? : PointState → Option Leg
  | .proved l => some l
  | .moving l _ _ _ => some l
  | .returning l _ _ => some l
  | .faulty l _ => some l
  | .lost _ => none

/-- The origin, present in MOVING (R125). -/
def PointState.origin? : PointState → Option Leg
  | .moving _ o _ _ => some o
  | _ => none

/-- The throw kind, present in MOVING and RETURNING (R125). -/
def PointState.kind? : PointState → Option ThrowKind
  | .moving _ _ _ k => some k
  | .returning _ _ k => some k
  | _ => none

/-- The expiry of the throw timer, present in MOVING and RETURNING (R125). -/
def PointState.expiry? : PointState → Option Instant
  | .moving _ _ t _ => some t
  | .returning _ t _ => some t
  | _ => none

/-- The fault cause, present in FAULTY and LOST (R125). -/
def PointState.cause? : PointState → Option FaultCause
  | .faulty _ c => some c
  | .lost c => some c
  | _ => none

/-- A present reverse leg. -/
def isReverse (l : Option Leg) : Bool := l == some .R

/-- Byte 18: leg, origin, throw kind, bar, detection levels, fault cause present (R188). -/
def pointBits (x : Point) : Byte :=
  bitsOf [isReverse x.state.leg?, isReverse x.state.origin?, x.state.kind? == some .manual, x.barred, x.detectN,
    x.detectR, x.state.cause?.isSome]

/-- Detection: unproved = 0, proves N = 1, proves R = 2 (R188). -/
def detectionByte (x : Point) : Byte :=
  match provedLeg x.detectN x.detectR with
  | none => 0
  | some .N => 1
  | some .R => 2

/-- The kind byte, the deadline and the cut number of a waiting entry (R188). -/
def claimBytes (y : Yard) : Claim → Byte × List Byte
  | .deadline d i => (1, le32 d ++ le16 (((Table.look y.slots i).map Record.number).getD 0))
  | .manual => (2, List.replicate 6 0)

/-- Bytes 25 to 33: the waiting entry and its position (R188). -/
def waitingBytes (y : Yard) (p : PointIx) : List Byte :=
  match y.waitingOf p with
  | none => List.replicate 9 0
  | some w =>
    let c := claimBytes y w.claim
    [c.1, legByte w.target] ++ c.2 ++ [byteOf (y.waiting.findIdx (fun x => x.point == p))]

/-- The margin as 4 bytes in two's complement (R186). -/
def bytesOfInt (k : Int) : List Byte := le32 (BitVec.ofInt 32 k)

/-- Bytes 40 to 60: the last test (R188). -/
def testBytes (t : Option Test) : List Byte :=
  match t with
  | none => List.replicate 21 0
  | some t =>
    [bitsOf [true, t.pass]] ++ bytes2 t.speed ++ bytes2 t.allowed ++ le32 (BitVec.ofNat 32 t.arrival) ++
      bytesOfInt t.margin ++ le32 t.deadline ++ le32 t.at_

/-- Bytes 36 to 60: the planning record (R188). -/
def planBytes (y : Yard) (r : Plan) : List Byte :=
  planByte r.state ::
    le16 ((r.head.bind (fun i => (Table.look y.slots i).map Record.number)).getD 0) ++
    [(r.needed.map legByte).getD 0] ++ testBytes r.test

/-- Bytes 17 to 61: the point record and what belongs to it (R188). -/
def State.pointBytes (s : State) (p : PointIx) (x : Point) : List Byte :=
  [pointStateByte x.state, pointBits x, detectionByte x, (x.state.cause?.map faultByte).getD 0] ++
    le32 (x.state.expiry?.getD 0) ++ waitingBytes s.yard p ++
    [byteOf s.yard.slotsInUse, byteOf s.ladder.consts.slots] ++
    planBytes s.yard ((s.yard.planOf p).getD Plan.idle) ++ [Table.look s.yard.notices.point p]

/-- READ POINT: 17 bytes where no point record exists, 62 where one does (R141, R188). -/
def readPointAnswer (point : Byte) (s : State) : Reply :=
  match point? point with
  | none => badValue 0
  | some p =>
    match s.yard.pointOf p with
    | none => doneWith (configBytes p (s.ladder.config p) ++ [0])
    | some x => doneWith (configBytes p (s.ladder.config p) ++ [1] ++ s.pointBytes p x)

/-- READ_POINT (R141). -/
def execReadPoint (point : Byte) (s : State) : Host.Outcome State Fault Refusal :=
  serveRead 0x48 [point] (readPointAnswer point) s

end Sys2Proof.Machine
end

