-- ==== Sys2Proof/Machine/SectionRequests.lean ====
section
/-! DEFINITION. The requests on sections, heads and lines: RESET SECTION (R62, R63), READ SECTION (R64), READ HEAD (R38)
and READ LINE (R30). -/

namespace Sys2Proof.Machine

open Sys2Proof

/-! ## The section named by a request (R62, R64) -/

/-- The number that a refusal names for a section: the point index; the lead has none and is never refused so. -/
def SectionId.detail : SectionId → Nat
  | .lead => 255
  | .point p => p.val

/-- The first three checks of R62 and R64: the mode, the selector, in use. Then the request goes on with the section and
its record. -/
def onSection {α : Type} (selector : Byte) (refused : Reply → α) (body : SectionId → Section → α) (s : State) : α :=
  if s.mode = .setup then refused (refuse .badMode)
  else
    match selector? selector with
    | none => refused (badValue 0)
    | some sid =>
      match s.yard.sectionOf sid with
      | none => refused (refuseAt .noRecord (SectionId.detail sid))
      | some x => body sid x

/-! ## RESET SECTION (R62, R63) -/

/-- The point of the section is MOVING or RETURNING; the lead has no point (R62). -/
def Yard.sectionMoving (y : Yard) : SectionId → Bool
  | .lead => false
  | .point p => y.pointInMotion p

/-- A head is FAULTY and one of its sensors has the filtered level ACTIVE (R37). -/
def State.headBlocks (s : State) (h : HeadIx) : Bool :=
  ((Table.look s.heads h).condition == .faulty) && (roleLevel s.lines (.sensorA h) || roleLevel s.lines (.sensorB h))

/-- The lowest FAULTY adjoining head with an ACTIVE sensor (R37, R62). -/
def State.blockingHead (s : State) (sid : SectionId) : Option HeadIx :=
  (List.finRange 82).find? (fun h => (s.ladder.headsOf sid).contains h && s.headBlocks h)

/-- The section is the root's. -/
def Ladder.isRootSection (l : Ladder) : SectionId → Bool
  | .lead => false
  | .point p => l.root == some p

/-- RESET SECTION of a section returns a FAULTY head to OK: the heads adjoining the section (R37), and for the root's
section C too, where no sensor of C is ACTIVE (R104; log entry 32, DESIGN CHOICE). -/
def State.returnsToOk (s : State) (sid : SectionId) (h : HeadIx) : Bool :=
  (s.ladder.headsOf sid).contains h || ((h == crestHead) && s.ladder.isRootSection sid && !s.headBlocks h)

/-- The heads after the head step of RESET SECTION (R37, R63 step 1, R104). -/
def State.restoredHeads (s : State) (sid : SectionId) : Table 82 Head :=
  Table.tab (fun h => if s.returnsToOk sid h then (Table.look s.heads h).restored else Table.look s.heads h)

/-- A section record after steps 2 and 3 (R63). -/
def Section.cleared (x : Section) : Section :=
  { x with state := .clear, count := 0, occupants := [], stallTimer := none, stallFlag := false, cause := none }

/-- The planner is told that a section is CLEAR (R63 step 5). -/
def Yard.toldClear (e : Env) (sid : SectionId) (y : Yard) : Yard :=
  match sid with
  | .lead => y
  | .point q => y.evaluate e q

/-- Steps 2 to 5 for a section that is not CLEAR (R63). R63 gives the losses of step 4 no order among themselves: they come
in the order of the list noted in step 2, the oldest entry first (log entry 33, DESIGN CHOICE). -/
def Yard.resetSection (e : Env) (sid : SectionId) (x : Section) (y : Yard) : Yard :=
  let a := y.putSection sid (some x.cleared)
  let b := ((x.occupants.map (fun o => o.slot)).foldl (fun z i => z.loseCut e i) a).toldClear e sid
  let c := if x.state = .disturbed then b.reportUndisturbed else b
  if x.stallFlag then c.reportUnstalled else c

/-- The yard after RESET SECTION: a section already CLEAR is left as it is (R63; log entry 23, DEDUCED). -/
def Yard.afterReset (e : Env) (sid : SectionId) (x : Section) (y : Yard) : Yard :=
  if x.state = .clear then y else y.resetSection e sid x

/-- RESET SECTION after the first three checks (R62, R63). -/
def resetSectionOf (s : State) (sid : SectionId) (x : Section) : Reply × State :=
  if s.yard.sectionMoving sid then (refuseAt .busy (SectionId.detail sid), s)
  else
    match s.blockingHead sid with
    | some h => (refuseAt .sensorActive h.val, s)
    | none => (done, ({ s with heads := s.restoredHeads sid }).withYard (s.yard.afterReset s.env sid x))

/-- RESET SECTION in its checks' order (R62). -/
def resetSectionBody (selector : Byte) (s : State) : Reply × State :=
  onSection selector (fun r => (r, s)) (resetSectionOf s) s

/-- RESET_SECTION (R62, R63). -/
def execResetSection (selector : Byte) (s : State) : Host.Outcome State Fault Refusal :=
  serve 0x50 [selector] (resetSectionBody selector) s

/-! ## READ SECTION (R64) -/

/-- An occupant entry: cut number, axles entered, axles exited (R64). -/
def occupantBytes (y : Yard) (o : Occupant) : List Byte :=
  le16 (((Table.look y.slots o.slot).map Record.number).getD 0) ++ [byteOf o.entered, byteOf o.exited]

/-- A queue entry: cut number, approach instant, approach interval (R64). -/
def queueBytes (y : Yard) (q : QueueEntry) : List Byte :=
  le16 (((Table.look y.slots q.slot).map Record.number).getD 0) ++ le32 q.instant ++ bytes2 q.interval

/-- The approach queue that belongs to a section's point; the lead has none (R64). -/
def Yard.queueAt (y : Yard) : SectionId → List QueueEntry
  | .lead => []
  | .point q => y.queueOf q

/-- The fields before the list (R64). -/
def sectionBytes (y : Yard) (sid : SectionId) (x : Section) : List Byte :=
  [sectionByte x.state, byteOf x.count] ++ optional 1 (fun c => [disturbByte c]) x.cause ++
    [flag x.stallFlag, flag x.stallTimer.isSome, byteOf x.occupants.length, byteOf (y.queueAt sid).length]

/-- Up to 4 entries from a start index (R64). -/
def chunk {α : Type} (start : Byte) (l : List α) : List α := (l.drop start.toNat).take Config.sectionChunk

/-- READ SECTION after the first three checks: list selector OCCUPANTS = 0, APPROACH = 1, then the start index (R64). -/
def readSectionOf (list start : Byte) (s : State) (sid : SectionId) (x : Section) : Reply :=
  if list = 0 then
    if start.toNat < 64 then
      doneWith (sectionBytes s.yard sid x ++ counted (occupantBytes s.yard) (chunk start x.occupants))
    else badValue 2
  else if list = 1 then
    if sid = .lead then badValue 1
    else if start.toNat < 64 then
      doneWith (sectionBytes s.yard sid x ++ counted (queueBytes s.yard) (chunk start (s.yard.queueAt sid)))
    else badValue 2
  else badValue 1

/-- READ SECTION in its checks' order (R64). -/
def readSectionAnswer (selector list start : Byte) (s : State) : Reply :=
  onSection selector id (readSectionOf list start s) s

/-- READ_SECTION (R64). -/
def execReadSection (selector list start : Byte) (s : State) : Host.Outcome State Fault Refusal :=
  serveRead 0x58 [selector, list, start] (readSectionAnswer selector list start) s

/-! ## READ HEAD (R38) -/

/-- A head number byte. -/
def head? (b : Byte) : Option HeadIx := index? 82 b

/-- The condition of a head: OK = 0, FAULTY = 1 (R32, R184). -/
def conditionByte : Condition → Byte
  | .ok => 0
  | .faulty => 1

/-- The direction of a passage: DOWNHILL = 0, UPHILL = 1 (R35, R184). -/
def directionByte : Direction → Byte
  | .downhill => 0
  | .uphill => 1

/-- A passage: direction, instant, interval (R38). -/
def passageBytes (p : Passage) : List Byte := directionByte p.direction :: le32 p.instant ++ bytes2 p.interval

/-- The payload of READ HEAD: fault cause (SEQUENCE = 0), fault instant and decoder state at the fault are present while
FAULTY (R38; log entry 11, DEDUCED). -/
def State.headBytes (s : State) (h : HeadIx) : List Byte :=
  let x := Table.look s.heads h
  [flag (s.ladder.headConfigured h), conditionByte x.condition, decoderByte x.state] ++
    optional 1 (fun _ => [0]) x.fault ++ optional 4 (fun f => le32 f.instant) x.fault ++
    optional 1 (fun f => [decoderByte f.state]) x.fault ++ optional 7 passageBytes x.last

/-- READ HEAD (R38). -/
def readHeadAnswer (head : Byte) (s : State) : Reply :=
  match head? head with
  | none => badValue 0
  | some h => doneWith (s.headBytes h)

/-- READ_HEAD (R38). -/
def execReadHead (head : Byte) (s : State) : Host.Outcome State Fault Refusal :=
  serveRead 0x59 [head] (readHeadAnswer head) s

/-! ## READ LINE (R30) -/

/-- The raw level that READ LINE reports: at the most recent sample, for an UNUSED line at the most recent tick (R30). A
line of which no sample has been taken since hardware reset is read as an UNUSED one (log entry 24, DESIGN CHOICE). -/
def State.reportedLevel (s : State) (i : LineIx) : Level :=
  let l := Table.look s.lines i
  if l.role = .unused ∨ l.everSampled = false then rawLevel s.raw i else l.sampled

/-- The payload of READ LINE (R30). -/
def State.lineBytes (s : State) (i : LineIx) : List Byte :=
  let l := Table.look s.lines i
  (roleParts l.role).1 :: optional 1 (fun n => [byteOf n]) (roleParts l.role).2 ++
    [levelByte l.active, classByte l.cls, levelByte (s.reportedLevel i), flag l.filtered, byteOf l.agreement,
     flag (s.ladder.dormant l.role)]

/-- READ_LINE: a line byte is always in range (R30). -/
def execReadLine (line : Byte) (s : State) : Host.Outcome State Fault Refusal :=
  serveRead 0x5A [line] (fun z => doneWith (z.lineBytes line.toFin)) s

end Sys2Proof.Machine
end

