-- ==== Sys2Proof/Machine/Tracks.lean ====
section
/-! DEFINITION. The requests of the destination unit: SET MAP, SET WINDOW, SET TRACK, SET FILL, PULL, READ TRACK and
READ MAP (chapter 6). -/

namespace Sys2Proof.Machine

open Sys2Proof

/-! ## SET MAP and SET WINDOW (R109, R112) -/

/-- Replace an entry of the block map. -/
def Yard.putMap (i : Fin 32) (m : Option MapEntry) (y : Yard) : Yard :=
  { y with blockMap := Table.put y.blockMap i m }

/-- A track is not in use while the ladder is commissioned (R112, R120). -/
def State.trackRefused (s : State) (t : TrackIx) : Bool := s.commissioned && !s.ladder.trackInUse t

/-- The fields of a valid entry, in field order (R112). -/
def setEntry (i : Fin 32) (code span track : Byte) (s : State) : Reply × State :=
  if !inRange 0 7 span.toNat then (badValue 3, s)
  else
    match track? track with
    | none => (badValue 4, s)
    | some t =>
      if s.trackRefused t then (badValue 4, s)
      else (done, s.withYard (s.yard.putMap i (some { code := code.toNat, span := span.toNat, track := t })))

/-- SET MAP in its checks' order (R112). A code byte is always in range. -/
def setMapBody (entry valid code span track : Byte) (s : State) : Reply × State :=
  match index? 32 entry with
  | none => (badValue 0, s)
  | some i =>
    match yesNo? valid with
    | none => (badValue 1, s)
    | some false => (done, s.withYard (s.yard.putMap i none))
    | some true => setEntry i code span track s

/-- SET_MAP (R112). -/
def execSetMap (entry valid code span track : Byte) (s : State) : Host.Outcome State Fault Refusal :=
  serve 0x30 [entry, valid, code, span, track] (setMapBody entry valid code span track) s

/-- Replace a closure window. -/
def Yard.putWindow (i : Fin 4) (w : Window) (y : Yard) : Yard := { y with windows := Table.put y.windows i w }

/-- SET WINDOW in its checks' order (R109). A last track byte is always in range. -/
def setWindowBody (window first last : Byte) (s : State) : Reply × State :=
  match index? 4 window with
  | none => (badValue 0, s)
  | some i =>
    if !inRange 0 40 first.toNat then (badValue 1, s)
    else (done, s.withYard (s.yard.putWindow i { first := first.toNat, last := last.toNat }))

/-- SET_WINDOW (R109). -/
def execSetWindow (window first last : Byte) (s : State) : Host.Outcome State Fault Refusal :=
  serve 0x31 [window, first, last] (setWindowBody window first last) s

/-! ## SET TRACK, SET FILL and PULL (R120, R121) -/

/-- The track checks of R120: the index, then, while the ladder is commissioned, in use. -/
def State.namedTrack? (track : Byte) (s : State) : Option TrackIx :=
  match track? track with
  | none => none
  | some t => if s.trackRefused t then none else some t

/-- SET TRACK in its checks' order (R120). -/
def setTrackBody (track : Byte) (capacity : Word16) (s : State) : Reply × State :=
  match s.namedTrack? track with
  | none => (badValue 0, s)
  | some t =>
    if !inRange 0 4095 capacity.toNat then (badValue 1, s)
    else (done, s.withYard (s.yard.modifyTrack t (fun x => { x with capacity := capacity.toNat })))

/-- SET_TRACK (R120). -/
def execSetTrack (track : Byte) (capacity : Word16) (s : State) : Host.Outcome State Fault Refusal :=
  serve 0x32 (track :: le16 capacity) (setTrackBody track capacity) s

/-- Replace a track's fill; the answer holds the fill after the request (R121). -/
def State.fillTo (t : TrackIx) (n : Nat) (s : State) : Reply × State :=
  (doneWith (bytes2 n), s.withYard (s.yard.modifyTrack t (fun x => { x with fill := n })))

/-- SET FILL: the value, or 65535 where it is larger (R121). -/
def setFillBody (track : Byte) (value : Word32) (s : State) : Reply × State :=
  match s.namedTrack? track with
  | none => (badValue 0, s)
  | some t => s.fillTo t (min value.toNat Config.maxFill)

/-- SET_FILL (R121). -/
def execSetFill (track : Byte) (value : Word32) (s : State) : Host.Outcome State Fault Refusal :=
  serve 0x33 (track :: le32 value) (setFillBody track value) s

/-- PULL: the fill less the count, or 0 (R121). -/
def pullBody (track : Byte) (count : Word16) (s : State) : Reply × State :=
  match s.namedTrack? track with
  | none => (badValue 0, s)
  | some t => s.fillTo t ((s.yard.trackOf t).fill - count.toNat)

/-- PULL (R121). -/
def execPull (track : Byte) (count : Word16) (s : State) : Host.Outcome State Fault Refusal :=
  serve 0x34 (track :: le16 count) (pullBody track count) s

/-! ## READ TRACK and READ MAP (R123, R124, R186) -/

/-- A point and a leg. -/
def pointLegBytes (pr : Pair) : List Byte := [byteOf pr.1.val, legByte pr.2]

/-- The payload of READ TRACK (R123). -/
def State.trackBytes (s : State) (t : TrackIx) : List Byte :=
  let x := s.yard.trackOf t
  flag (s.ladder.trackInUse t) :: optional 2 pointLegBytes (s.ladder.feeding (.track t)) ++
    [flag (s.ladder.isReject t), flag (s.ladder.consts.defaultTrack == some t)] ++
    bytes2 x.capacity ++ bytes2 x.fill ++ bytes2 x.reserved ++
    [flag (s.yard.covered s.ladder t), flag (s.yard.closed s.ladder t), Table.look s.yard.notices.track t]

/-- READ TRACK (R123). -/
def readTrackAnswer (track : Byte) (s : State) : Reply :=
  match track? track with
  | none => badValue 0
  | some t => doneWith (s.trackBytes t)

/-- READ_TRACK (R123). -/
def execReadTrack (track : Byte) (s : State) : Host.Outcome State Fault Refusal :=
  serveRead 0x38 [track] (readTrackAnswer track) s

/-- The payload of READ MAP for an entry: its code, span, track and whether the track is in use are present where the
entry is valid (R124; log entry 11, DEDUCED). -/
def State.entryBytes (s : State) (m : Option MapEntry) : List Byte :=
  flag m.isSome :: optional 1 (fun x => [byteOf x.code]) m ++ optional 1 (fun x => [byteOf x.span]) m ++
    optional 1 (fun x => [byteOf x.track.val]) m ++ optional 1 (fun x => [flag (s.ladder.trackInUse x.track)]) m

/-- The payload of READ MAP for a window (R124). -/
def State.windowBytes (s : State) (w : Window) : List Byte :=
  [byteOf w.first, byteOf w.last] ++ optional 1 (fun n => [byteOf n]) (s.ladder.effectiveLast w) ++
    [flag (s.ladder.windowEnabled w)]

/-- READ MAP in its checks' order: kind ENTRY = 0, WINDOW = 1 (R124, R184). -/
def readMapAnswer (kind index : Byte) (s : State) : Reply :=
  if kind = 0 then
    match index? 32 index with
    | none => badValue 1
    | some i => doneWith (s.entryBytes (Table.look s.yard.blockMap i))
  else if kind = 1 then
    match index? 4 index with
    | none => badValue 1
    | some i => doneWith (s.windowBytes (Table.look s.yard.windows i))
  else badValue 0

/-- READ_MAP (R124). -/
def execReadMap (kind index : Byte) (s : State) : Host.Outcome State Fault Refusal :=
  serveRead 0x39 [kind, index] (readMapAnswer kind index) s

end Sys2Proof.Machine
end

