-- ==== Sys2Proof/Machine/Dispatch.lean ====
section
/-! DEFINITION. The meaning of each command, one arm for each constructor. -/

namespace Sys2Proof.Machine

open Sys2Proof

def exec (i : Instr) (s : State) : Host.Outcome State Fault Refusal :=
  match i with
  | .hardwareReset adr1 adr0 => Sys2Proof.Machine.execHardwareReset adr1 adr0 s
  | .filteredTransition line => Sys2Proof.Machine.execFilteredTransition line s
  | .bothActiveTimerExpiry head => Sys2Proof.Machine.execBothActiveTimerExpiry head s
  | .stallTimerExpiry sec => Sys2Proof.Machine.execStallTimerExpiry sec s
  | .shortCut => Sys2Proof.Machine.execShortCut s
  | .absorptionEnd => Sys2Proof.Machine.execAbsorptionEnd s
  | .throwTimeout p => Sys2Proof.Machine.execThrowTimeout p s
  | .returnFailed p => Sys2Proof.Machine.execReturnFailed p s
  | .deadlineExpiry p => Sys2Proof.Machine.execDeadlineExpiry p s
  | .requestDiscarded bytes => Sys2Proof.Machine.execRequestDiscarded bytes s
  | .setPoint f => Sys2Proof.Machine.execSetPoint f s
  | .setYard f => Sys2Proof.Machine.execSetYard f s
  | .setLine line kind index level cls => Sys2Proof.Machine.execSetLine line kind index level cls s
  | .commission => Sys2Proof.Machine.execCommission s
  | .decommission => Sys2Proof.Machine.execDecommission s
  | .start => Sys2Proof.Machine.execStart s
  | .stop => Sys2Proof.Machine.execStop s
  | .resume => Sys2Proof.Machine.execResume s
  | .finish => Sys2Proof.Machine.execFinish s
  | .enter number kind value axles => Sys2Proof.Machine.execEnter number kind value axles s
  | .hold number => Sys2Proof.Machine.execHold number s
  | .amend number selection kind value axles => Sys2Proof.Machine.execAmend number selection kind value axles s
  | .withdraw number => Sys2Proof.Machine.execWithdraw number s
  | .retire number => Sys2Proof.Machine.execRetire number s
  | .readCut kind value => Sys2Proof.Machine.execReadCut kind value s
  | .readPending start => Sys2Proof.Machine.execReadPending start s
  | .setMap entry valid code span track => Sys2Proof.Machine.execSetMap entry valid code span track s
  | .setWindow window first last => Sys2Proof.Machine.execSetWindow window first last s
  | .setTrack track capacity => Sys2Proof.Machine.execSetTrack track capacity s
  | .setFill track value => Sys2Proof.Machine.execSetFill track value s
  | .pull track count => Sys2Proof.Machine.execPull track count s
  | .readTrack track => Sys2Proof.Machine.execReadTrack track s
  | .readMap kind index => Sys2Proof.Machine.execReadMap kind index s
  | .throw point leg => Sys2Proof.Machine.execThrow point leg s
  | .bar point => Sys2Proof.Machine.execBar point s
  | .unbar point => Sys2Proof.Machine.execUnbar point s
  | .restore point => Sys2Proof.Machine.execRestore point s
  | .readPoint point => Sys2Proof.Machine.execReadPoint point s
  | .resetSection selector => Sys2Proof.Machine.execResetSection selector s
  | .readSection selector list start => Sys2Proof.Machine.execReadSection selector list start s
  | .readHead head => Sys2Proof.Machine.execReadHead head s
  | .readLine line => Sys2Proof.Machine.execReadLine line s
  | .readDevice => Sys2Proof.Machine.execReadDevice s
  | .readNotices => Sys2Proof.Machine.execReadNotices s
  | .ack cls index reasons => Sys2Proof.Machine.execAck cls index reasons s
  | .setAttention e0 e1 e2 e3 e4 mask => Sys2Proof.Machine.execSetAttention e0 e1 e2 e3 e4 mask s
  | .ladderClockTick raw => Sys2Proof.Machine.execLadderClockTick raw s

end Sys2Proof.Machine
end

