-- ==== Sys2Proof/Safety.lean ====
section
/-! DEFINITION. The laws the manual gives the part, in the terms the statements use. Each is a property of one state; the
statements say that every step keeps it. -/

namespace Sys2Proof.Machine

open Sys2Proof

/-! ## Outputs (R171, R178) -/

/-- PERMIT is asserted exactly in HUMPING with a PENDING cut at the head of the list and freeze inactive (R171). -/
def State.PermitLaw (s : State) : Prop :=
  s.yard.control.permit = true ↔
    s.yard.control.mode = .humping ∧ s.yard.control.freezeFlag = false ∧
      ∃ i rest c, s.yard.pendingList = i :: rest ∧ s.yard.cutAt i = some c ∧ c.state = .pending

/-- A notice of a class is raised: its reason set is not empty (R173). -/
def Notices.raisedIn (n : Notices) (cls : Fin 5) : Prop :=
  (cls = 0 ∧ ∃ i, n.reasons (.cut i) ≠ 0) ∨ (cls = 1 ∧ ∃ p, n.reasons (.point p) ≠ 0) ∨
    (cls = 2 ∧ n.reasons .lead ≠ 0) ∨ (cls = 3 ∧ ∃ t, n.reasons (.track t) ≠ 0) ∨ (cls = 4 ∧ n.reasons .device ≠ 0)

/-- ATTN is driven active exactly while the mask is off and an enabled class holds a raised notice (R178). -/
def State.AttnLaw (s : State) : Prop :=
  s.yard.notices.attn = true ↔
    s.yard.notices.mask = false ∧
      ∃ cls, Table.look s.yard.notices.enables cls = true ∧ s.yard.notices.raisedIn cls

/-! ## Point control (R129, R130) -/

/-- The drive lines that a point's state energises: the target's while MOVING, the origin's while RETURNING (R125). -/
def PointState.drives (st : PointState) (l : Leg) : Bool :=
  match st with
  | .moving target _ _ _ => target == l
  | .returning origin _ _ => origin == l
  | .proved _ => false
  | .faulty _ _ => false
  | .lost _ => false

/-- Every drive line is energised exactly while its point is MOVING or RETURNING toward its leg (R125, R129). -/
def State.DriveLaw (s : State) : Prop :=
  ∀ p l, Table.look s.yard.drive (driveLine p l) =
    (match s.yard.pointStateOf p with
     | some st => st.drives l
     | none => false)

/-- The first law of point control: no point is MOVING or RETURNING whose section is not CLEAR (R129). -/
def State.FirstLaw (s : State) : Prop :=
  ∀ p, s.yard.pointInMotion p = true → s.yard.sectionState (.point p) = some .clear

/-- The points that are MOVING or RETURNING. -/
def Yard.inMotionPoints (y : Yard) : List PointIx := (List.finRange 40).filter (fun p => y.pointInMotion p)

/-- The count of slots in use is the number of points in motion and does not pass the configured number; in SETUP there
is no point record (R125, R130). -/
def State.SlotLaw (s : State) : Prop :=
  s.yard.slotsInUse = s.yard.inMotionPoints.length ∧ s.yard.slotsInUse ≤ s.ladder.consts.slots ∧
    (s.mode = .setup → ∀ p, s.yard.pointOf p = none)

/-! ## Reservations (R107) -/

/-- The axles that the record of a slot holds reserved on a track: those of an ENTERING or ROLLING cut resolved to it. -/
def Yard.share (y : Yard) (t : TrackIx) (i : SlotIx) : Nat :=
  match y.cutAt i with
  | none => 0
  | some c =>
    match c.started with
    | none => 0
    | some x => if c.onLadder ∧ x.resolved = t then c.axles else 0

/-- The reserved count of every track equals the sum of the axle counts of the ENTERING and ROLLING cuts whose resolved
track it is (R107). -/
def State.ReservedLaw (s : State) : Prop :=
  ∀ t, (s.yard.trackOf t).reserved = ((List.finRange 64).map (fun i => s.yard.share t i)).sum

/-! ## Sections and counts (R39, R41, R163) -/

/-- What the fields of a section record hold in each state: a CLEAR section has an empty list, an OCCUPIED one does not,
a DISTURBED one has an empty list and a cause; the timer and the flag are OCCUPIED's, the flag with the timer stopped; while
it is not DISTURBED its axle count is the sum of entered minus exited over its entries (R39, R40, R41, R55, R60, R61). -/
def Section.Lawful (x : Section) : Prop :=
  (x.state = .occupied ↔ x.occupants ≠ []) ∧ (x.state = .disturbed ↔ x.cause ≠ none) ∧
    (x.state ≠ .occupied → x.stallTimer = none ∧ x.stallFlag = false) ∧ (x.stallFlag = true → x.stallTimer = none) ∧
    (x.state ≠ .disturbed → x.count = (x.occupants.map (fun o => o.entered - o.exited)).sum)

/-- The sections whose record has a property. -/
def Yard.sectionsWith (y : Yard) (f : Section → Bool) : List SectionId :=
  allSections.filter (fun sid => ((y.sectionOf sid).map f) == some true)

/-- Every section record is lawful, and the disturbed, stall and lost counts are the numbers of DISTURBED sections, set
stall flags and LOST points (R162, R163). -/
def State.CountLaw (s : State) : Prop :=
  (∀ sid x, s.yard.sectionOf sid = some x → x.Lawful) ∧
    s.yard.control.disturbed = (s.yard.sectionsWith (fun x => x.state == .disturbed)).length ∧
    s.yard.control.stall = (s.yard.sectionsWith (fun x => x.stallFlag)).length ∧
    s.yard.control.lost =
      ((List.finRange 40).filter (fun p => ((s.yard.pointStateOf p).map PointState.isLost) == some true)).length

/-! ## SETUP (R162) -/

/-- In SETUP there are no sections, no point records and no planning records, every approach queue and the waiting list
are empty, every head is OFF and every drive line is de-energised (R39, R42, R126, R142, R162). -/
def State.SetupLaw (s : State) : Prop :=
  s.mode = .setup →
    (∀ sid, s.yard.sectionOf sid = none) ∧ (∀ p, s.yard.pointOf p = none) ∧ (∀ p, s.yard.planOf p = none) ∧
      (∀ q, s.yard.queueOf q = []) ∧ s.yard.waiting = [] ∧ (∀ h, (Table.look s.heads h).state = .off) ∧
      (∀ d, Table.look s.yard.drive d = false)

/-! ## Mode changes (R162) -/

/-- The changes of mode of R162, with the command that makes each; every other command leaves the mode or halts the hump. -/
def modeChangeAllowed (c : Instr) (before after : Mode) : Prop :=
  before = after ∨ (before = .humping ∧ after = .halted) ∨
    (∃ adr1 adr0, c = .hardwareReset adr1 adr0 ∧ after = .setup) ∨
    (c = .commission ∧ before = .setup ∧ after = .standby) ∨
    (c = .decommission ∧ before = .standby ∧ after = .setup) ∨
    (c = .start ∧ before = .standby ∧ after = .humping) ∨
    (c = .resume ∧ before = .halted ∧ after = .humping) ∨
    (c = .finish ∧ (before = .humping ∨ before = .halted) ∧ after = .standby)

end Sys2Proof.Machine
end

