-- ==== Sys2Proof/WellFormed.lean ====
section
/-! DEFINITION. Which commands are events or transfers of their row. Indices are bounded by their types and payload
fields by their widths, so two checks remain: an ACK names one to seven reasons (R184: length 3–9), and a discarded
transfer holds no good frame (R181). -/

namespace Sys2Proof

/-- The command is one of its row's. -/
def WellFormed : Instr → Bool
  | .ack _ _ reasons => decide (1 ≤ reasons.length) && decide (reasons.length ≤ 7)
  | .requestDiscarded bytes => (goodFrame bytes).isNone
  | .hardwareReset _ _ => true
  | .filteredTransition _ => true
  | .bothActiveTimerExpiry _ => true
  | .stallTimerExpiry _ => true
  | .shortCut => true
  | .absorptionEnd => true
  | .throwTimeout _ => true
  | .returnFailed _ => true
  | .deadlineExpiry _ => true
  | .setPoint _ => true
  | .setYard _ => true
  | .setLine _ _ _ _ _ => true
  | .commission => true
  | .decommission => true
  | .start => true
  | .stop => true
  | .resume => true
  | .finish => true
  | .enter _ _ _ _ => true
  | .hold _ => true
  | .amend _ _ _ _ _ => true
  | .withdraw _ => true
  | .retire _ => true
  | .readCut _ _ => true
  | .readPending _ => true
  | .setMap _ _ _ _ _ => true
  | .setWindow _ _ _ => true
  | .setTrack _ _ => true
  | .setFill _ _ => true
  | .pull _ _ => true
  | .readTrack _ => true
  | .readMap _ _ => true
  | .throw _ _ => true
  | .bar _ => true
  | .unbar _ => true
  | .restore _ => true
  | .readPoint _ => true
  | .resetSection _ => true
  | .readSection _ _ _ => true
  | .readHead _ => true
  | .readLine _ => true
  | .readDevice => true
  | .readNotices => true
  | .setAttention _ _ _ _ _ _ => true
  | .ladderClockTick _ => true

end Sys2Proof
end

