-- ==== Sys2Proof/Certificates/Slice0/Obligations.lean ====
section
/-! DEFINITION. The statements about the HC-40. Each docstring names the rule or section of spec/ that a statement
formalises. A "request" is a command with a code (R184), an "event" one without. -/

namespace Sys2Proof.Spec

open Sys2Proof Sys2Proof.Machine

/-- The link interface after a request has been answered (R183). -/
def reply (c : Instr) (r : Reply) : Link := executed ((codeOf c).getD 0) (payloadOf c) r

/-- The command is answered: the next state is t but for the link, which holds the reply. -/
def Answers (c : Instr) (s : State) (r : Reply) (t : State) : Prop := exec c s = .next { t with link := reply c r }

/-- HARDWARE_RESET. -/
def IsReset (c : Instr) : Prop := ∃ adr1 adr0, c = .hardwareReset adr1 adr0
/-- LADDER_CLOCK_TICK. -/
def IsTick (c : Instr) : Prop := ∃ raw, c = .ladderClockTick raw
/-- FILTERED_TRANSITION. -/
def IsTransition (c : Instr) : Prop := ∃ line, c = .filteredTransition line

/-- A reason is in the set of a notice (R173, R186). -/
def Raised (y : Yard) (k : NoticeKey) (n : Nat) : Prop := y.notices.reasons k &&& reasonBit n ≠ 0

/-- The notice of a section: the lead's, or its point's (R55). -/
def sectionNotice : SectionId → NoticeKey
  | .lead => .lead
  | .point p => .point p

/-- The number of the STALL reason on a section's notice (R173). -/
def stallReason : SectionId → Nat
  | .lead => 2
  | .point _ => 5

/-- A track byte of a request or a response: 255 for none (R184). -/
def trackCode (t : Option TrackIx) : Byte :=
  match t with
  | some x => BitVec.ofNat 8 x.val
  | none => 255

/-- A leg target as kind and index (R184). -/
def targetCode : Target → Byte × Byte
  | .none => (0, 0)
  | .point p => (1, BitVec.ofNat 8 p.val)
  | .track t => (2, BitVec.ofNat 8 t.val)

/-- A destination as kind and value (R184). -/
def destinationCode : Destination → Byte × Byte
  | .block c => (0, c)
  | .track t => (1, BitVec.ofNat 8 t.val)

/-- A section selector (R184). -/
def selectorCode : SectionId → Byte
  | .lead => 255
  | .point p => BitVec.ofNat 8 p.val

/-- N = 0, R = 1 (R184). -/
def legCode : Leg → Byte
  | .N => 0
  | .R => 1

/-- Yes = 1, no = 0 (R184). -/
def boolCode (b : Bool) : Byte := if b then 1 else 0

/-- The fields of SET POINT for a point in use with a record (R8, R184). -/
def pointFields (p : PointIx) (c : PointConfig) : PointFields :=
  { point := BitVec.ofNat 8 p.val, inUse := 1, isRoot := boolCode c.isRoot, nKind := (targetCode c.normal).1,
    nIndex := (targetCode c.normal).2, rKind := (targetCode c.reverse).1, rIndex := (targetCode c.reverse).2,
    dApp := BitVec.ofNat 16 c.dApp, tThrow := BitVec.ofNat 16 c.tThrow, grade := BitVec.ofNat 8 c.grade,
    nFallback := trackCode c.nFallback, rFallback := trackCode c.rFallback, stall := BitVec.ofNat 16 c.stall }

/-- The ranges of R8. -/
def PointInRange (c : PointConfig) : Prop :=
  300 ≤ c.dApp ∧ c.dApp ≤ 30000 ∧ 200 ≤ c.tThrow ∧ c.tThrow ≤ 3000 ∧ c.grade ≤ 50 ∧ 5 ≤ c.stall ∧ c.stall ≤ 600

/-- The fields of SET YARD for a set of constants (R11, R184). -/
def yardFields (k : Constants) : YardFields :=
  { spacing := BitVec.ofNat 8 k.spacing, guard := BitVec.ofNat 16 k.guard, gIn := BitVec.ofNat 16 k.gIn,
    gCpl := BitVec.ofNat 16 k.gCpl, leadStall := BitVec.ofNat 16 k.leadStall, slots := BitVec.ofNat 8 k.slots,
    reject := trackCode k.reject, defaultTrack := trackCode k.defaultTrack }

/-- The ranges of R11. -/
def ConstantsInRange (k : Constants) : Prop :=
  40 ≤ k.spacing ∧ k.spacing ≤ 250 ∧ k.guard ≤ 1000 ∧ 200 ≤ k.gIn ∧ k.gIn ≤ 10000 ∧ 50 ≤ k.gCpl ∧
    k.gCpl + 50 ≤ k.gIn ∧ 5 ≤ k.leadStall ∧ k.leadStall ≤ 600 ∧ 1 ≤ k.slots ∧ k.slots ≤ 8

/-- A role kind byte and a role index byte name a role; the index of UNUSED and STOP is not examined (R22, R23). -/
def NamesRole (kind index : Byte) : Role → Prop
  | .unused => kind = 0
  | .sensorA h => kind = 1 ∧ index.toNat = h.val
  | .sensorB h => kind = 2 ∧ index.toNat = h.val
  | .detectN p => kind = 3 ∧ index.toNat = p.val
  | .detectR p => kind = 4 ∧ index.toNat = p.val
  | .stop => kind = 5
  | .freezeKey k => kind = 6 ∧ index.toNat = k.val

/-- Everything of a yard but its notices and mode control is unchanged where a section's record alone has changed. -/
def OnlySection (y z : Yard) (sid : SectionId) : Prop :=
  (∀ sid', sid' ≠ sid → z.sectionOf sid' = y.sectionOf sid') ∧ z.queues = y.queues ∧ z.slots = y.slots ∧
    z.pendingList = y.pendingList ∧ z.crest = y.crest ∧ z.tracks = y.tracks ∧ z.windows = y.windows ∧
    z.blockMap = y.blockMap ∧ z.points = y.points ∧ z.drive = y.drive ∧ z.slotsInUse = y.slotsInUse ∧
    z.waiting = y.waiting ∧ z.plans = y.plans

/-- A direct track is not refused: the ladder is not commissioned, or the track is in use (R74, R77, R112, R120). -/
def TrackAccepted (s : State) (t : TrackIx) : Prop := s.mode = .setup ∨ s.ladder.trackInUse t = true

/-- A destination is not refused (R74, R77). -/
def DestinationAccepted (s : State) : Destination → Prop
  | .block _ => True
  | .track t => TrackAccepted s t

/-- DONE with no payload. -/
def ok : Reply := doneWith []

/-- The state t is s with the yard y, PERMIT and ATTN being judged on it (R171, R178). -/
def SettledFrom (s : State) (y : Yard) (t : State) : Prop :=
  (∃ p a, t = { s with yard := { y with control := { y.control with permit := p },
                                        notices := { y.notices with attn := a } } }) ∧
    t.PermitLaw ∧ t.AttnLaw

/-- The command is answered, and its next state is s with the yard y but for the link, PERMIT and ATTN. -/
def AnswersYard (c : Instr) (s : State) (r : Reply) (y : Yard) : Prop := ∃ t, Answers c s r t ∧ SettledFrom s y t

/-- The command is refused: the reply names the failure, and the state is unchanged but for the link. -/
def Refuses (c : Instr) (s : State) (st : Status) (detail : List Byte) : Prop :=
  Answers c s { status := st, payload := detail } s

/-- A number is that of no live record (R65). -/
def NumberFree (y : Yard) (n : Word16) : Prop := ∀ i r, Table.look y.slots i = some r → r.number ≠ n

/-- The slot is the lowest-indexed free one (R65). -/
def LowestFree (y : Yard) (i : SlotIx) : Prop :=
  Table.look y.slots i = none ∧ ∀ j, j < i → Table.look y.slots j ≠ none

/-- The slot holds the one live record with the number (R65, R66). -/
def HoldsNumber (y : Yard) (n : Word16) (i : SlotIx) (r : Record) : Prop :=
  Table.look y.slots i = some r ∧ r.number = n ∧ ∀ j z, Table.look y.slots j = some z → z.number = n → j = i

/-- Some cut is ENTERING or ROLLING (R165, R168). -/
def CutOnLadder (y : Yard) : Prop := ∃ i c, y.cutAt i = some c ∧ (c.state = .entering ∨ c.state = .rolling)

/-- A yard with a record in a slot, the slot's notice clear. -/
def withFreshSlot (y : Yard) (i : SlotIx) (r : Option Record) : Yard :=
  { y with slots := Table.put y.slots i r, notices := { y.notices with cut := Table.put y.notices.cut i 0 } }

/-- The class and the index of a notice (R173, R184). -/
def noticeCode : NoticeKey → Byte × Byte
  | .cut i => (0, BitVec.ofNat 8 i.val)
  | .point p => (1, BitVec.ofNat 8 p.val)
  | .lead => (2, 0)
  | .track t => (3, BitVec.ofNat 8 t.val)
  | .device => (4, 0)

/-- A cut or a hold marker in the answer of READ CUT (R187). -/
def recordKind : Record → Byte
  | .cut _ => 0
  | .hold _ _ => 1

/-- How many reasons the class of a notice has (R173). -/
def reasonsOf : NoticeKey → Nat
  | .cut _ => 7
  | .point _ => 5
  | .lead => 2
  | .track _ => 1
  | .device => 4

/-- A head blocks a section reset: it is FAULTY and one of its sensors is ACTIVE (R37). -/
def Blocks (s : State) (h : HeadIx) : Prop :=
  (Table.look s.heads h).condition = .faulty ∧
    (roleLevel s.lines (.sensorA h) = true ∨ roleLevel s.lines (.sensorB h) = true)

/-- The requests that read (sections 2.2, 2.6, 3.9, 4.9, 6.8, 7.6, 9.6, 10.3). -/
def IsRead : Instr → Prop
  | .readCut _ _ => True
  | .readPending _ => True
  | .readTrack _ => True
  | .readMap _ _ => True
  | .readPoint _ => True
  | .readSection _ _ _ => True
  | .readHead _ => True
  | .readLine _ => True
  | .readDevice => True
  | .readNotices => True
  | _ => False

/-! ### Parts of statements: heads -/

/-- A head but for the model's mark longAgo (log entry 7). -/
def bare (h : Head) : Head := { h with longAgo := false }

/-- The commands that can change a head. -/
def HeadCommand (c : Instr) : Prop :=
  IsReset c ∨ IsTransition c ∨ (∃ h, c = .bothActiveTimerExpiry h) ∨ c = .commission ∨ c = .decommission ∨
    ∃ sel, c = .resetSection sel

/-- 2^31 ticks or more have elapsed from one instant to another (R95, R145). -/
def longAgoAt (now t : Instant) : Bool := decide (2 ^ 31 ≤ (now - t).toNat)

/-- The decoder states of a sequence in progress (R33, R34). -/
def sequenceStates : List DecoderState := [.down1, .down2, .down3, .up1, .up2, .up3, .both]

/-- The passage of a head's sequence with an interval of a number of ticks (R35). -/
def passageOf (h : Head) (dir : Direction) (gap : Instant) : Passage :=
  { direction := dir, instant := h.first, interval := min (max gap.toNat 1) 65535, longAgo := h.longAgo }

/-- The head b is what a fault at an instant makes of the head h (R36). -/
def FaultOf (h b : Head) (now : Instant) : Prop :=
  b.state = .held ∧ b.condition = .faulty ∧ b.timer = none ∧ b.last = h.last ∧
    b.fault = some { instant := now, state := h.state }

/-- The faults of a single transition (R33, R36). -/
def SingleFaults : Prop :=
  ∀ (h : Head) (now : Instant) (other : Bool),
    (h.state = .down1 ∨ h.state = .up2 →
      ∃ b, h.change true false false other now = (b, .fault) ∧ FaultOf h b now) ∧
    (h.state = .up1 ∨ h.state = .down2 →
      ∃ b, h.change false true other false now = (b, .fault) ∧ FaultOf h b now) ∧
    (h.state = .down3 → ∃ b, h.change true false true other now = (b, .fault) ∧ FaultOf h b now) ∧
    (h.state = .up3 → ∃ b, h.change false true other true now = (b, .fault) ∧ FaultOf h b now)

/-- The coincident changes and the return of one sensor in BOTH (R34). -/
def CoincidentChanges : Prop :=
  ∀ (h : Head) (now : Instant),
    (h.state = .idle → ∃ b, h.change true true true true now = (b, .nothing) ∧ b.state = .both ∧ b.first = now ∧
      b.gap = 0 ∧ b.longAgo = false ∧ b.timer = some (now + 20000#32)) ∧
    (h.state = .both →
      (∃ b, h.change true false false true now = (b, .nothing) ∧ b.state = .down3 ∧ b.first = h.first ∧ b.gap = h.gap ∧
        b.timer = none) ∧
      (∃ b, h.change false true true false now = (b, .nothing) ∧ b.state = .up3 ∧ b.first = h.first ∧ b.gap = h.gap ∧
        b.timer = none) ∧
      ∃ b, h.change true true false false now = (b, .fault) ∧ FaultOf h b now) ∧
    (h.state = .down1 → ∃ b, h.change true true false true now = (b, .nothing) ∧ b.state = .down3 ∧
      b.first = h.first ∧ b.gap = now - h.first ∧ b.timer = none) ∧
    (h.state = .up1 → ∃ b, h.change true true true false now = (b, .nothing) ∧ b.state = .up3 ∧
      b.first = h.first ∧ b.gap = now - h.first ∧ b.timer = none) ∧
    (h.state = .down2 → ∃ b, h.change true true false false now = (b, .passage (passageOf h .downhill h.gap)) ∧
      b.state = .idle ∧ b.last = some (passageOf h .downhill h.gap) ∧ b.timer = none) ∧
    (h.state = .up2 → ∃ b, h.change true true false false now = (b, .passage (passageOf h .uphill h.gap)) ∧
      b.state = .idle ∧ b.last = some (passageOf h .uphill h.gap) ∧ b.timer = none) ∧
    (h.state = .down3 → ∃ b, h.change true true true false now = (b, .passage (passageOf h .downhill h.gap)) ∧
      b.state = .down1 ∧ b.first = now ∧ b.longAgo = false ∧ b.last = some (passageOf h .downhill h.gap)) ∧
    (h.state = .up3 → ∃ b, h.change true true false true now = (b, .passage (passageOf h .uphill h.gap)) ∧
      b.state = .up1 ∧ b.first = now ∧ b.longAgo = false ∧ b.last = some (passageOf h .uphill h.gap))

/-- In SETTLING transitions wait for both sensors to be INACTIVE; in OFF and HELD they have no effect (R32, R36). -/
def UnfollowedHeads : Prop :=
  ∀ (h : Head) (a b levelA levelB : Bool) (now : Instant),
    (h.state = .settling → h.change a b levelA levelB now =
      (if levelA = false ∧ levelB = false then { h with state := .idle } else h, .nothing)) ∧
    (h.state = .off ∨ h.state = .held → h.change a b levelA levelB now = (h, .nothing))

/-- A change of one sensor alone is the single transition of that sensor, in every state but SETTLING (R33). -/
def SingleChanges : Prop :=
  ∀ (h : Head) (levelA levelB : Bool) (now : Instant), h.state ≠ .settling →
    h.change true false levelA levelB now = h.single .A levelA now ∧
    h.change false true levelA levelB now = h.single .B levelB now

/-! ### Parts of statements: sections and cuts -/

/-- The axle count of an occupant list: the sum of entered minus exited (R40). -/
def axlesIn (l : List Occupant) : Nat := (l.map (fun o => o.entered - o.exited)).sum

/-- From y to z a section whose record was x has become DISTURBED with a cause and a raw count: its list is empty, its timer
stopped, its flag clear, and every cut it listed that was on the ladder is LOST (R55). -/
def BecameDisturbed (y z : Yard) (sid : SectionId) (x : Section) (cause : DisturbCause) (count : Nat) : Prop :=
  z.sectionOf sid =
      some { x with state := .disturbed, cause := some cause, count := count, occupants := [], stallTimer := none,
                    stallFlag := false } ∧
    ∀ o ∈ x.occupants, ∀ c, y.cutAt o.slot = some c → c.onLadder = true →
      ∃ c', z.cutAt o.slot = some c' ∧ c'.state = .lost

/-- The state, the head cut and the needed leg of a point's planning record (R142). -/
def planned (z : Yard) (q : PointIx) : Option (PlanState × Option SlotIx × Option Leg) :=
  (z.planOf q).map (fun r => (r.state, r.head, r.needed))

/-- A head fault: every adjoining section that is not DISTURBED becomes so, a DISTURBED one keeps its cause and raw count, and
no other than the adjoining sections is touched where none of them lists a cut (R54, R55). -/
def HeadFaultDisturbs : Prop :=
  ∀ (e : Env) (y z : Yard) (h : HeadIx), y.headFault e h = z →
    (∀ sid ∈ e.ladder.adjoining h, ∀ x, y.sectionOf sid = some x →
      (x.state ≠ .disturbed → BecameDisturbed y z sid x .headFault x.count) ∧
      (x.state = .disturbed →
        ∃ x', z.sectionOf sid = some x' ∧ x'.state = .disturbed ∧ x'.cause = x.cause ∧ x'.count = x.count)) ∧
    ((∀ sid ∈ e.ladder.adjoining h, ∀ x, y.sectionOf sid = some x → x.occupants = []) →
      (∀ sid, sid ∉ e.ladder.adjoining h → z.sectionOf sid = y.sectionOf sid) ∧ z.queues = y.queues)

/-- The exit step (R44, R45). An exit that leaves the section of a point CLEAR has the point evaluated (R41, R146). -/
def ExitStep : Prop :=
  ∀ (e : Env) (y : Yard) (sid : SectionId) (x : Section), y.sectionOf sid = some x →
    (x.state = .disturbed → y.takeOut e sid = (none, y.putSection sid (some { x with count := x.count - 1 }))) ∧
    (x.state ≠ .disturbed →
      (∀ (pre post : List Occupant) (o : Occupant) (c : Cut), x.occupants = pre ++ o :: post →
        (∀ p ∈ pre, p.entered ≤ p.exited) → o.exited < o.entered → y.cutAt o.slot = some c →
        ∃ z x', y.takeOut e sid = (some (o.slot, o.exited == 0), z) ∧ z.sectionOf sid = some x' ∧
          x'.occupants =
            pre ++ (if o.exited + 1 = c.axles then post else { o with exited := o.exited + 1 } :: post) ∧
          x'.count = axlesIn x'.occupants ∧
          (x.count = axlesIn x.occupants → (o.exited + 1 = c.axles → o.entered = c.axles) → x'.count + 1 = x.count) ∧
          (x'.occupants = [] → x'.state = .clear ∧ x'.stallTimer = none ∧ x'.stallFlag = false ∧
            ∀ w, w = { y.putSection sid (some x') with
                control := { y.control with
                  stall := if x.stallFlag = true then y.control.stall - 1 else y.control.stall } } →
              (sid = .lead → z = w) ∧ ∀ q, sid = .point q → z = w.evaluate e q) ∧
          (x'.occupants ≠ [] → x'.state = x.state ∧ x'.stallFlag = false ∧
            x'.stallTimer = some (e.now + BitVec.ofNat 32 (10000 * x.stallLimit))) ∧
          ∀ other, other ≠ sid → z.sectionOf other = y.sectionOf other) ∧
      ((∀ o ∈ x.occupants, o.entered ≤ o.exited) →
        ∃ z, y.takeOut e sid = (none, z) ∧ BecameDisturbed y z sid x .phantomExit x.count))

/-- The leg check (R46, R47). A cut that leaves the queue below brings the cut behind it to the planner (R42, R147). -/
def LegCheck : Prop :=
  ∀ (e : Env) (y : Yard) (p : PointIx) (leg named : Leg) (i : SlotIx) (leading : Bool) (c : Cut) (x : Started),
    y.cutAt i = some c → c.onLadder = true → c.started = some x → x.legAt p = some named →
    (named = leg → y.legCheck e p leg i leading = (some i, y)) ∧
    (named ≠ leg → leading = true →
      ∃ z c' x', y.legCheck e p leg i leading = (some i, z) ∧ z.cutAt i = some c' ∧ c'.state = c.state ∧
        c'.started = some x' ∧ x'.hazard = true ∧ (x.hazard = false → Raised z (.cut i) 3) ∧
        (y.pointLie p = some named → z.pointStateOf p = some (.lost .legMismatch)) ∧
        (∀ r, e.ladder.target p named = .point r → ∀ a h rest, y.queueOf r = a :: h :: rest → a.slot = i →
          (∀ b ∈ h :: rest, b.slot ≠ i) →
          z.queueOf r = h :: rest ∧ ∀ pl, y.planOf r = some pl →
            (z.planOf r).map (fun b => b.head) = some (some h.slot)) ∧
        ∀ f, e.ladder.fallback p leg = some f →
          x'.resolved = f ∧ (∀ d ∈ x'.diversions, ∃ pr ∈ x'.route, pr.1 = d.point) ∧
            (y.waiting = [] → f ≠ x.resolved → x'.route = e.ladder.routeOf f)) ∧
    (named ≠ leg → leading = false →
      ∃ z c', y.legCheck e p leg i leading = (none, z) ∧ z.cutAt i = some c' ∧ c'.state = .lost ∧
        (y.pointLie p = some named → z.pointStateOf p = some (.lost .legMismatch)))

/-- The entry of a cut's leading axle into the section of a point (R48, R49, R137). A cut that joins an empty queue has that
queue's point evaluated, and the cut that comes to the head of the queue left finds the section OCCUPIED (R42, R146, R148). -/
def LeadingEntry : Prop :=
  ∀ (e : Env) (y z : Yard) (q : PointIx) (i : SlotIx) (pass : Passage) (s : Section) (c : Cut) (x : Started),
    y.sectionOf (.point q) = some s → y.cutAt i = some c → c.onLadder = true → c.started = some x →
    y.leadingEntry e q i pass = z →
    (s.state = .disturbed →
      (∃ c', z.cutAt i = some c' ∧ c'.state = .lost) ∧
      ∃ s', z.sectionOf (.point q) = some s' ∧ s'.state = .disturbed ∧ s'.cause = s.cause ∧
        s'.count = min (s.count + 1) 255) ∧
    (s.state ≠ .disturbed → 255 ≤ s.count →
      BecameDisturbed y z (.point q) s .overcount s.count ∧ ∃ c', z.cutAt i = some c' ∧ c'.state = .lost) ∧
    (s.state ≠ .disturbed → s.count < 255 →
      z.sectionOf (.point q) =
        some { s with state := .occupied, count := axlesIn s.occupants + 1,
                      occupants := s.occupants ++ [{ slot := i, entered := 1, exited := 0 }],
                      stallTimer := if s.state = .clear then some (e.now + BitVec.ofNat 32 (10000 * s.stallLimit))
                        else s.stallTimer } ∧
      (∃ c' x', z.cutAt i = some c' ∧ c'.state = c.state ∧ c'.started = some x' ∧ x'.progress = x.progress + 1) ∧
      ((∀ leg, e.ladder.target q leg ≠ .point q) → ∀ w ∈ z.queueOf q, w.slot ≠ i) ∧
      (y.pointInMotion q = true → z.pointStateOf q = some (.lost .enteredDuringThrow)) ∧
      ∀ leg, x.legAt q = some leg → (∀ r, r ≠ q → y.queueHead r ≠ some i) →
        (y.pointInMotion q = true → ((z.startedAt i).map (fun w => w.hazard)) = some true) ∧
        (y.pointLie q = some leg → y.waitingOf q = none →
          z.pointOf q = y.pointOf q ∧
          (∀ r, e.ladder.target q leg = .point r → r ≠ q →
            z.queueOf r = y.queueOf r ++
              [{ slot := i, instant := pass.instant, interval := pass.interval, longAgo := pass.longAgo }] ∧
            (y.queueOf r = [] → y.waitingOf r = none →
              ∃ w : Yard, z = w.evaluate e r ∧ w.queueOf r = z.queueOf r ∧
                w.startedAt i = some { x with progress := x.progress + 1 } ∧ w.pointOf r = y.pointOf r ∧
                w.sectionOf (.point r) = y.sectionOf (.point r) ∧ w.planOf r = y.planOf r ∧ w.waiting = y.waiting ∧
                w.slotsInUse = y.slotsInUse ∧ w.control = y.control)) ∧
          (∀ h rest pt pl leg', y.queueHead q = some i → (y.queueOf q).filter (fun a => a.slot ≠ i) = h :: rest →
            y.pointOf q = some pt → pt.barred = false → pt.state = .proved leg → y.planOf q = some pl →
            e.ladder.config q ≠ none → (y.startedAt h.slot).bind (fun w => w.legAt q) = some leg' → leg' ≠ leg →
            planned z q = some (.waitingClear, some h.slot, some leg')) ∧
          ∀ r, r ≠ q → e.ladder.target q leg ≠ .point r → z.queueOf r = y.queueOf r))

/-- The entry of a further axle of a cut, and of an axle without a cut (R49, R50, R137). -/
def FurtherEntry : Prop :=
  ∀ (e : Env) (y : Yard) (q : PointIx) (i : SlotIx) (aboveDisturbed : Bool) (s : Section),
    y.sectionOf (.point q) = some s →
    (∀ (pre post : List Occupant) (o : Occupant), s.state ≠ .disturbed → s.occupants = pre ++ o :: post →
      (∀ p ∈ pre, p.slot ≠ i) → o.slot = i →
      (s.count < 255 →
        ∃ z, y.furtherEntry e q i aboveDisturbed = z ∧
          z.sectionOf (.point q) =
            some { s with count := axlesIn (pre ++ { o with entered := o.entered + 1 } :: post),
                          occupants := pre ++ { o with entered := o.entered + 1 } :: post } ∧
          (y.pointInMotion q = true → z.pointStateOf q = some (.lost .enteredDuringThrow)) ∧
          (y.pointInMotion q = false → z.slots = y.slots ∧ z.queues = y.queues ∧ z.points = y.points)) ∧
      (255 ≤ s.count → BecameDisturbed y (y.furtherEntry e q i aboveDisturbed) (.point q) s .overcount s.count)) ∧
    (s.state = .disturbed ∨ (∀ o ∈ s.occupants, o.slot ≠ i) →
      y.furtherEntry e q i aboveDisturbed = y.entryWithoutCut e (.point q) aboveDisturbed) ∧
    (s.state = .disturbed →
      (y.entryWithoutCut e (.point q) aboveDisturbed).sectionOf (.point q) =
        some { s with count := min (s.count + 1) 255 }) ∧
    (s.state ≠ .disturbed →
      BecameDisturbed y (y.entryWithoutCut e (.point q) aboveDisturbed) (.point q) s
        (if aboveDisturbed = true then .enteredDisturbed else .unexpectedAxle) (min (s.count + 1) 255))

/-- The entry of an axle of a cut into a track (R51, R118). -/
def TrackEntry : Prop :=
  ∀ (e : Env) (y : Yard) (i : SlotIx) (c : Cut) (x : Started), y.cutAt i = some c → c.started = some x →
    (x.inTrack + 1 ≠ c.axles ∨ c.state ≠ .rolling →
      y.entryTrack e i =
        y.putSlot i (some (.cut { c with started := some { x with inTrack := x.inTrack + 1 } }))) ∧
    (x.inTrack + 1 = c.axles → c.state = .rolling →
      ∃ z, y.entryTrack e i = z ∧
        z.cutAt i = some { c with state := .arrived, actual := some x.resolved,
                                  started := some { x with inTrack := x.inTrack + 1 } } ∧
        z.trackOf x.resolved =
          { capacity := (y.trackOf x.resolved).capacity,
            fill := min ((y.trackOf x.resolved).fill + c.axles) 65535,
            reserved := (y.trackOf x.resolved).reserved - c.axles } ∧
        Raised z (.cut i) 1 ∧ z.queues = y.queues ∧ z.points = y.points ∧ z.crest = y.crest)

/-- Where an axle goes from the head it has passed: into the section of a point, into a track (R44, R48 to R51). -/
def entersBelow (e : Env) (below : Target) (cut : Option SlotIx) (aboveDisturbed : Bool) (pass : Passage) (z : Yard) :
    Yard :=
  match below, cut with
  | .point q, some i =>
    if z.isLeading q i = true then z.leadingEntry e q i pass else z.furtherEntry e q i aboveDisturbed
  | .point q, none => z.entryWithoutCut e (.point q) aboveDisturbed
  | .track _, some i => z.entryTrack e i
  | .track _, none => z
  | .none, _ => z

/-- A downhill passage at a head other than C: the exit from the section above, at a leg head the leg check, the entry into
what lies below; an axle is a cut's leading one at a point while the cut's progress is below the point's position in its
route (R44, R48). -/
def DownhillPassage : Prop :=
  (∀ (e : Env) (y : Yard) (pass : Passage) (p : PointIx) (leg : Leg), pass.direction = .downhill →
    y.deliver e (legHead p leg) pass =
      (match y.takeOut e (.point p) with
       | (some (i, leading), z) =>
         entersBelow e (e.ladder.target p leg) (z.legCheck e p leg i leading).1 (y.sectionDisturbed (.point p)) pass
           (z.legCheck e p leg i leading).2
       | (none, z) => entersBelow e (e.ladder.target p leg) none (y.sectionDisturbed (.point p)) pass z)) ∧
  (∀ (e : Env) (y : Yard) (pass : Passage) (r : PointIx), pass.direction = .downhill → e.ladder.root = some r →
    y.deliver e entryHeadE pass =
      entersBelow e (.point r) ((y.takeOut e .lead).1.map (fun a => a.1)) (y.sectionDisturbed .lead) pass
        (y.takeOut e .lead).2) ∧
  ∀ (y : Yard) (q : PointIx) (i : SlotIx),
    y.isLeading q i = true ↔
      ∃ x k, y.startedAt i = some x ∧ x.route.findIdx? (fun pr => pr.1 == q) = some k ∧ x.progress ≤ k

/-! ### Parts of statements: planning -/

/-- A point in a state serves a cut that needs a leg: it lies in it, or moves toward it (R148). -/
def Serves (st : PointState) (leg : Leg) : Prop :=
  st.lie = some leg ∨ ∃ origin expiry kind, st = .moving leg origin expiry kind

/-- The fields of a cut diverted at a point into a leg with a fallback track (R114, R115, R151, R154). -/
def divertedTo (l : Ladder) (x : Started) (p : PointIx) (f : TrackIx) (cause : DiversionCause) : Started :=
  { x with resolved := f, cause := none, route := if f = x.resolved then x.route else l.routeOf f,
           diversions :=
             if ∃ d ∈ x.diversions, d.point = p then x.diversions
             else x.diversions ++ [{ point := p, cause := cause, before := x.resolved }] }

/-- From y to z axles have moved from one track's reserved count to another's (R107, R114). -/
def AxlesMoved (y z : Yard) (source dest : TrackIx) (n : Nat) : Prop :=
  (source = dest → z.tracks = y.tracks) ∧
    (source ≠ dest → ∀ t, z.trackOf t =
      { y.trackOf t with
          reserved :=
            if t = source then (y.trackOf t).reserved - n
            else if t = dest then (y.trackOf t).reserved + n
            else (y.trackOf t).reserved })

/-- The evaluation of a point (R146, R148 to R151). An entry that stands for a recorded cut no longer at the head is withdrawn
first; an entry that stands for the head leaves the list as it is where the test, made again, passes, and is withdrawn where the
cut is diverted. -/
def EvaluationCases : Prop :=
  ∀ (e : Env) (y z : Yard) (q : PointIx) (r : Plan), y.planOf q = some r → y.evaluate e q = z →
    (y.queueOf q = [] → z.planOf q = some { state := .idle, head := none, needed := none, test := none }) ∧
    (∀ (j : SlotIx) (w : Waiting) (d : Instant) (v : Yard) (a : Plan), r.head = some j → y.queueHead q ≠ some j →
      y.waitingOf q = some w → w.claim = .deadline d j →
      v = ({ y with waiting := y.waiting.filter (fun b => b.point ≠ q) } : Yard).arbitrate e → v.planOf q = some a →
      z = ({ v with plans := Table.put v.plans q (some { a with head := y.queueHead q, test := none }) } : Yard).evaluate
        e q) ∧
    ∀ (h : QueueEntry) (rest : List QueueEntry) (pt : Point) (cfg : PointConfig) (c : Cut) (x : Started) (leg : Leg)
      (kept : Option Test),
      y.queueOf q = h :: rest → y.pointOf q = some pt → e.ladder.config q = some cfg → y.cutAt h.slot = some c →
      c.onLadder = true → c.started = some x → x.legAt q = some leg →
      kept = (if r.head = some h.slot then r.test else none) →
      (r.head = some h.slot ∨ y.waitingOf q = none → Serves pt.state leg →
        planned z q =
          some (if ∃ d ∈ x.diversions, d.point = q then .diverted else .set, some h.slot, some leg) ∧
        ∀ w, z.waitingOf q = some w → w.claim = .manual) ∧
      (r.head = some h.slot ∨ y.waitingOf q = none → ¬ Serves pt.state leg → pt.state.lie = none →
        z = { y with
          plans := Table.put y.plans q
            (some { state := .waitingPoint, head := some h.slot, needed := some leg, test := kept }) }) ∧
      (∀ m, pt.state.lie = some m → m ≠ leg → y.waitingOf q = none →
        (pt.barred = true ∨ (∃ a, pt.state = .faulty m a) →
          ∀ f, e.ladder.fallback q m = some f →
            z.startedAt h.slot = some (divertedTo e.ladder x q f .pointUnavailable) ∧ Raised z (.cut h.slot) 4 ∧
            planned z q = some (.diverted, some h.slot, some m) ∧ AxlesMoved y z x.resolved f c.axles ∧
            z.queues = y.queues ∧ z.points = y.points ∧ z.waiting = y.waiting) ∧
        (pt.barred = false → pt.state = .proved m →
          (y.sectionState (.point q) ≠ some .clear →
            z = { y with
              plans := Table.put y.plans q
                (some { state := .waitingClear, head := some h.slot, needed := some leg, test := kept }) }) ∧
          (y.sectionState (.point q) = some .clear →
            ∀ t, throwTest e.ladder.consts cfg h e.now = t →
              ((z.planOf q).map (fun a => a.test)) = some (some t) ∧
              (t.pass = false → ∀ f, e.ladder.fallback q m = some f →
                z.startedAt h.slot = some (divertedTo e.ladder { x with speed := some t.allowed } q f .late) ∧
                Raised z (.cut h.slot) 4 ∧ planned z q = some (.diverted, some h.slot, some m) ∧
                AxlesMoved y z x.resolved f c.axles ∧ z.points = y.points ∧ z.waiting = y.waiting) ∧
              (t.pass = true →
                (e.ladder.consts.slots ≤ y.slotsInUse ∨ y.control.freezeFlag = true →
                  z.startedAt h.slot = some { x with speed := some t.allowed } ∧
                  planned z q = some (.requested, some h.slot, some leg) ∧ z.points = y.points ∧
                  z.waiting = insertWaiting e.now
                    { point := q, target := leg, claim := .deadline t.deadline h.slot } y.waiting) ∧
                (y.waiting = [] → y.slotsInUse < e.ladder.consts.slots → y.control.freezeFlag = false →
                  cfg.dApp ≤ 30000 →
                  z.startedAt h.slot = some { x with speed := some t.allowed } ∧
                  planned z q = some (.set, some h.slot, some leg) ∧ z.waiting = [] ∧
                  z.pointOf q =
                    some { pt with
                      state := .moving leg m (e.now + BitVec.ofNat 32 (10 * cfg.tThrow)) .deadline }))))) ∧
      (∀ m w, pt.state = .proved m → m ≠ leg → pt.barred = false → r.head = some h.slot → y.waitingOf q = some w →
        (y.sectionState (.point q) ≠ some .clear →
          z = { y with
            plans := Table.put y.plans q
              (some { state := .waitingClear, head := some h.slot, needed := some leg, test := r.test }) }) ∧
        (y.sectionState (.point q) = some .clear →
          ∀ t, throwTest e.ladder.consts cfg h e.now = t →
            (t.pass = true →
              z = { y with
                slots := Table.put y.slots h.slot
                  (some (.cut { c with started := some { x with speed := some t.allowed } })),
                plans := Table.put y.plans q
                  (some { state := .requested, head := some h.slot, needed := some leg, test := some t }) }) ∧
            (t.pass = false → ∀ d f, w.claim = .deadline d h.slot → e.ladder.fallback q m = some f →
              y.waiting.filter (fun b => b.point ≠ q) = [] ∨ e.ladder.consts.slots ≤ y.slotsInUse ∨
                y.control.freezeFlag = true →
              z.startedAt h.slot = some (divertedTo e.ladder { x with speed := some t.allowed } q f .late) ∧
              Raised z (.cut h.slot) 4 ∧ planned z q = some (.diverted, some h.slot, some m) ∧
              AxlesMoved y z x.resolved f c.axles ∧ z.points = y.points ∧
              z.waiting = y.waiting.filter (fun b => b.point ≠ q))))

/-- The entry check and HAZARD (R152, R153). -/
def EntryCheck : Prop :=
  ∀ (e : Env) (y z : Yard) (q : PointIx) (i : SlotIx) (caughtUp : Bool) (pt : Point) (c : Cut) (x : Started) (leg : Leg),
    y.pointOf q = some pt → y.cutAt i = some c → c.onLadder = true → c.started = some x → x.legAt q = some leg →
    y.entryCheck e q i caughtUp = z →
    (pt.state.lie = some leg → z = y) ∧
    (∀ m f cause, pt.state.lie = some m → m ≠ leg → y.waitingOf q = none → e.ladder.fallback q m = some f →
      (caughtUp = true → cause = .caughtUp) →
      (caughtUp = false → pt.barred = true ∨ (∃ a, pt.state = .faulty m a) → cause = .pointUnavailable) →
      (caughtUp = false → pt.barred = false → pt.state = .proved m →
        cause = if y.control.freezeFlag = true then .frozen else .late) →
      z.startedAt i = some (divertedTo e.ladder x q f cause) ∧
      Raised z (.cut i) 4 ∧ AxlesMoved y z x.resolved f c.axles ∧ z.points = y.points ∧ z.plans = y.plans ∧
      z.queues = y.queues) ∧
    (pt.state.lie = none →
      z.startedAt i = some { x with hazard := true } ∧ (x.hazard = false → Raised z (.cut i) 3) ∧
      (x.hazard = true → z = y) ∧ z.points = y.points ∧ z.tracks = y.tracks ∧ z.queues = y.queues)

/-- The first of two entries of the waiting list stands before the second: DEADLINE before MANUAL, the nearer deadline first,
equal deadlines by point index; MANUAL entries stand as they came (R131). -/
def Precedes (now : Instant) (a b : Waiting) : Prop :=
  match a.claim, b.claim with
  | .deadline da _, .deadline db _ =>
    (da - now).toNat < (db - now).toNat ∨ (da = db ∧ a.point < b.point)
  | .deadline _ _, .manual => True
  | .manual, .deadline _ _ => False
  | .manual, .manual => True

/-- An entry's deadline, where it has one, lies less than 2^31 ticks ahead (R131). -/
def Ahead (now : Instant) (w : Waiting) : Prop := ∀ d i, w.claim = .deadline d i → (d - now).toNat < 2 ^ 31

/-- The placing of an entry (R131). -/
def WaitingOrder : Prop :=
  ∀ (e : Env) (y : Yard) (w : Waiting),
    ((∃ v ∈ y.waiting, v.point = w.point) → y.placeWaiting e w = y) ∧
    ((∀ v ∈ y.waiting, v.point ≠ w.point) →
      ∃ pre post, y.waiting = pre ++ post ∧ y.placeWaiting e w = { y with waiting := pre ++ w :: post } ∧
        (w.claim = .manual → post = []) ∧
        (Ahead e.now w → (∀ v ∈ y.waiting, Ahead e.now v) → y.waiting.Pairwise (Precedes e.now) →
          (pre ++ w :: post).Pairwise (Precedes e.now)))

/-- A first entry whose deadline has passed, met by the arbiter with a slot free and freeze inactive: it is removed, the head of
its point's queue is diverted into the leg the point lies in, and the arbiter goes on with the list behind it (R133, R151). -/
def ExpiredFirstEntry : Prop :=
  ∀ (e : Env) (y : Yard) (w : Waiting) (rest : List Waiting) (d : Instant) (j : SlotIx), y.waiting = w :: rest →
    w.claim = .deadline d j → laterThan e.now d = true → y.slotsInUse < e.ladder.consts.slots →
    y.control.freezeFlag = false →
    ∃ z, y.arbitrate e = z.arbitrate e ∧ z.waiting = rest ∧ z.points = y.points ∧ z.drive = y.drive ∧
      z.slotsInUse = y.slotsInUse ∧ z.queues = y.queues ∧ z.control = y.control ∧ z.crest = y.crest ∧
      (y.queueHead w.point = none → z = { y with waiting := rest }) ∧ (rest = [] → y.arbitrate e = z) ∧
      ∀ (m : Leg) (i : SlotIx) (c : Cut) (x : Started) (f : TrackIx),
        y.pointLie w.point = some m → y.queueHead w.point = some i → y.cutAt i = some c → c.onLadder = true →
        c.started = some x → e.ladder.fallback w.point m = some f →
        z.startedAt i = some (divertedTo e.ladder x w.point f .late) ∧ Raised z (.cut i) 4 ∧
          AxlesMoved y z x.resolved f c.axles ∧
          ∀ r, y.planOf w.point = some r → planned z w.point = some (.diverted, some i, some m)

/-! ### Parts of statements: detection and crest axles -/

/-- The leg that a pair of detection levels proves (R125). -/
def proves (n r : Bool) : Option Leg := if n = r then none else if n = true then some .N else some .R

/-- From s to t a detection change of a point has stored its two levels and done nothing more (R127); `t` differs besides in
the lines that were due. -/
def LevelsStored (s t : State) (p : PointIx) (x : Point) (n r : Bool) : Prop :=
  SettledFrom { s with lines := t.lines }
    { s.yard with points := Table.put s.yard.points p (some { x with detectN := n, detectR := r }) } t

/-- From s to t a point at rest whose record was x has become LOST by a detection change (R127, R128): cause, LOST raised and
counted, no waiting entry left, a first LOST point halts a hump, and the planner waits for the point. -/
def LostAtRest (s t : State) (p : PointIx) (x : Point) (n r : Bool) : Prop :=
  t.yard.pointOf p =
      some { x with
        state := .lost (if proves n r = none then .detectionLost else .unexpectedMove), detectN := n, detectR := r } ∧
    Raised t.yard (.point p) 1 ∧ t.yard.waitingOf p = none ∧
    (∀ w, s.yard.waitingOf p = some w → w.claim = .manual → Raised t.yard (.point p) 3) ∧
    t.yard.control.lost = s.yard.control.lost + 1 ∧
    (s.mode = .humping → s.yard.control.lost = 0 →
      t.mode = .halted ∧ t.yard.control.halt = s.yard.control.halt ||| reasonBit 4 ∧ Raised t.yard .device 1) ∧
    (s.mode ≠ .humping ∨ s.yard.control.lost ≠ 0 → t.mode = s.mode) ∧
    (s.yard.waiting = [] → t.yard.drive = s.yard.drive ∧ t.yard.slotsInUse = s.yard.slotsInUse ∧
      ∀ a h rest leg, s.yard.planOf p = some a → s.yard.queueOf p = h :: rest → s.ladder.config p ≠ none →
        (s.yard.startedAt h.slot).bind (fun z => z.legAt p) = some leg →
        planned t.yard p = some (.waitingPoint, some h.slot, some leg)) ∧
    t.yard.lead = s.yard.lead ∧ t.yard.sections = s.yard.sections ∧ t.yard.queues = s.yard.queues ∧
    t.yard.crest = s.yard.crest

/-- From s to t a point RETURNING to its origin, with no waiting entry, has proved it (R127, R136): FAULTY with its bar kept,
drive lines and slot free, FAULTY raised, and a cut at the head of its queue that needs the other leg diverted (R148, R149). -/
def ReturnCompleted (s t : State) (p : PointIx) (x : Point) (origin : Leg) (n r : Bool) : Prop :=
  t.yard.pointOf p = some { x with state := .faulty origin .throwFailed, detectN := n, detectR := r } ∧
    (∀ l, Table.look t.yard.drive (driveLine p l) = false) ∧ Raised t.yard (.point p) 2 ∧
    t.yard.control = { s.yard.control with permit := t.yard.control.permit } ∧
    t.yard.lead = s.yard.lead ∧ t.yard.sections = s.yard.sections ∧ t.yard.queues = s.yard.queues ∧
    t.yard.crest = s.yard.crest ∧
    (s.yard.waiting = [] →
      t.yard.slotsInUse = s.yard.slotsInUse - 1 ∧ t.yard.waiting = [] ∧
      (∀ q, q ≠ p → t.yard.pointOf q = s.yard.pointOf q) ∧
      (s.yard.queueOf p = [] → t.yard.slots = s.yard.slots) ∧
      ∀ a h rest c z leg f, s.yard.planOf p = some a → s.yard.queueOf p = h :: rest → s.ladder.config p ≠ none →
        s.yard.cutAt h.slot = some c → c.onLadder = true → c.started = some z → z.legAt p = some leg → leg ≠ origin →
        s.ladder.fallback p origin = some f →
        t.yard.startedAt h.slot = some (divertedTo s.ladder z p f .pointUnavailable) ∧ Raised t.yard (.cut h.slot) 4 ∧
          planned t.yard p = some (.diverted, some h.slot, some origin) ∧
          AxlesMoved s.yard t.yard z.resolved f c.axles)

/-- The rows of the table of detection changes but the completion of a throw (R127, R128, R136). -/
def DetectionRows : Prop :=
  ∀ (line : LineIx) (p : PointIx) (s : State) (n r : Bool), (Table.look s.lines line).due = true →
    (Table.look s.lines line).role = .detectN p ∨ (Table.look s.lines line).role = .detectR p →
    n = roleLevel (takeDue s.lines (.point p)) (.detectN p) → r = roleLevel (takeDue s.lines (.point p)) (.detectR p) →
    ∃ t, exec (.filteredTransition line) s = .next t ∧ t.lines = takeDue s.lines (.point p) ∧ t.heads = s.heads ∧
      (s.yard.pointOf p = none → SettledFrom { s with lines := t.lines } s.yard t) ∧
      ∀ x, s.yard.pointOf p = some x →
        (∀ m, x.state.lie = some m → proves n r = some m → LevelsStored s t p x n r) ∧
        (∀ m, x.state.lie = some m → proves n r ≠ some m → LostAtRest s t p x n r) ∧
        (∀ l origin expiry kind, x.state = .moving l origin expiry kind → proves n r ≠ some l →
          LevelsStored s t p x n r) ∧
        (∀ origin expiry kind, x.state = .returning origin expiry kind →
          (proves n r ≠ some origin → LevelsStored s t p x n r) ∧
          (proves n r = some origin → s.yard.waitingOf p = none → ReturnCompleted s t p x origin n r)) ∧
        (∀ c, x.state = .lost c → LevelsStored s t p x n r)

/-- A completed throw, with what follows it whatever queue and list the point has: its state, its drive lines, its slot, then the
arbiter, then the planner (R130, R132, R135, R146). -/
def ThrowCompletion : Prop :=
  ∀ (line : LineIx) (p : PointIx) (s : State) (x : Point) (target origin : Leg) (expiry : Instant) (kind : ThrowKind)
    (n r : Bool), (Table.look s.lines line).due = true →
    (Table.look s.lines line).role = .detectN p ∨ (Table.look s.lines line).role = .detectR p →
    n = roleLevel (takeDue s.lines (.point p)) (.detectN p) → r = roleLevel (takeDue s.lines (.point p)) (.detectR p) →
    s.yard.pointOf p = some x → x.state = .moving target origin expiry kind → proves n r = some target →
    ∃ (t : State) (w : Yard), exec (.filteredTransition line) s = .next t ∧
      w = { s.yard with
        points := Table.put s.yard.points p (some { x with state := .proved target, detectN := n, detectR := r }),
        drive := Table.put (Table.put s.yard.drive (driveLine p .N) false) (driveLine p .R) false,
        slotsInUse := s.yard.slotsInUse - 1 } ∧
      SettledFrom { s with lines := takeDue s.lines (.point p) } ((w.arbitrate s.env).evaluate s.env p) t

/-- From y to z an axle that belongs to no cut has come into the lead (R52). -/
def UnlistedInLead (y z : Yard) : Prop :=
  ∀ x, y.lead = some x →
    (x.state = .disturbed → z.lead = some { x with count := min (x.count + 1) 255 }) ∧
    (x.state ≠ .disturbed → BecameDisturbed y z .lead x .unlisted (min (x.count + 1) 255))

/-- From y to z a further axle of the cut in a slot has come into the lead (R49, R52). -/
def FurtherInLead (y z : Yard) (i : SlotIx) : Prop :=
  ∀ x, y.lead = some x →
    (x.state = .disturbed ∨ (∀ o ∈ x.occupants, o.slot ≠ i) → UnlistedInLead y z) ∧
    ∀ (pre post : List Occupant) (o : Occupant), x.state ≠ .disturbed → x.occupants = pre ++ o :: post →
      (∀ p ∈ pre, p.slot ≠ i) → o.slot = i →
      (x.count < 255 →
        z.lead = some { x with count := axlesIn (pre ++ { o with entered := o.entered + 1 } :: post),
                               occupants := pre ++ { o with entered := o.entered + 1 } :: post }) ∧
      (255 ≤ x.count → BecameDisturbed y z .lead x .overcount x.count)

/-- The gap timer as a crest passage starts it (R94; the marks by log entries 7 and 8, DEDUCED). -/
def gapFrom (l : Ladder) (pass : Passage) : GapTimer :=
  { origin := pass.instant, expiry := pass.instant + BitVec.ofNat 32 (10 * l.consts.gIn), longAgo := pass.longAgo }

/-- A PENDING marker at the head of the list is REACHED in z and HOLD_REACHED raised (R102). -/
def MarkerJudged (y z : Yard) : Prop :=
  ∀ j rest n, y.pendingList = j :: rest → Table.look y.slots j = some (.hold n false) →
    Table.look z.slots j = some (.hold n true) ∧ Raised z .device 2

/-- A downhill axle at C in ENTERING (R91): tally, the cut's axles counted, the lead, and then the count reached (R93) or the
timer restarted (R94). A cut that this axle loses leaves an ABSORBING crest (R98), whose absorption ends at once where the count
is reached (log entry 17, DEDUCED). -/
def FurtherCrestAxle : Prop :=
  ∀ (e : Env) (y : Yard) (pass : Passage) (i : SlotIx) (x : Entry) (c : Cut) (z0 : Started), pass.direction = .downhill →
    y.crest.state = .entering i x → y.cutAt i = some c → c.state = .entering → c.started = some z0 →
    ∃ z c' z', y.deliver e crestHead pass = z ∧ FurtherInLead y z i ∧ z.pendingList = y.pendingList ∧
      z.crest.nextOrder = y.crest.nextOrder ∧
      z.cutAt i = some c' ∧ c'.started = some z' ∧ z'.crestAxles = x.tally + 1 ∧ c'.axles = c.axles ∧ c'.number = c.number ∧
      (∀ s, y.lead = some s → s.state = .disturbed ∨ ((∃ o ∈ s.occupants, o.slot = i) ∧ s.count < 255) →
        c'.state ≠ .lost ∧ z' = { z0 with crestAxles := x.tally + 1 }) ∧
      (∀ s, y.lead = some s → s.state ≠ .disturbed → (∃ o ∈ s.occupants, o.slot = i) → 255 ≤ s.count →
        c'.state = .lost) ∧
      (x.tally + 1 ≠ x.target →
        z.crest.timer = some (gapFrom e.ladder pass) ∧ z.crest.previous = y.crest.previous ∧
        (c'.state ≠ .lost → c'.state = .entering ∧ z.crest.state = .entering i { x with tally := x.tally + 1 }) ∧
        (c'.state = .lost → z.crest.state = .absorbing (some i) { x with tally := x.tally + 1 })) ∧
      (x.tally + 1 = x.target →
        z.crest.state = .idle ∧ z.crest.timer = none ∧ MarkerJudged y z ∧
        (c'.state ≠ .lost → c'.state = .rolling ∧ z.crest.previous =
          some { slot := i, number := x.number, instant := pass.instant, longAgo := pass.longAgo }) ∧
        (c'.state = .lost → z.crest.previous = none))

/-- A downhill axle at C in ABSORBING (R99, R100). -/
def AbsorbedAxle : Prop :=
  ∀ (e : Env) (y : Yard) (pass : Passage) (slot : Option SlotIx) (x : Entry), pass.direction = .downhill →
    y.crest.state = .absorbing slot x →
    ∃ z, y.deliver e crestHead pass = z ∧ (∀ i, slot = some i → FurtherInLead y z i) ∧ (slot = none → UnlistedInLead y z) ∧
      z.pendingList = y.pendingList ∧ z.crest.nextOrder = y.crest.nextOrder ∧
      (x.tally + 1 ≠ x.target →
        z.crest.state = .absorbing slot { x with tally := x.tally + 1 } ∧ z.crest.timer = some (gapFrom e.ladder pass) ∧
        z.crest.previous = y.crest.previous) ∧
      (x.tally + 1 = x.target →
        z.crest.state = .idle ∧ z.crest.timer = none ∧ z.crest.previous = none ∧ MarkerJudged y z)

/-- A downhill axle at C that belongs to no cut: the crest is IDLE, and the mode is STANDBY or no PENDING cut stands at the head
of the list (R90, R101). -/
def UnlistedCrestAxle : Prop :=
  ∀ (e : Env) (y : Yard) (pass : Passage), pass.direction = .downhill → y.crest.state = .idle →
    y.control.mode = .standby ∨
      (∀ i rest c, y.pendingList = i :: rest → y.cutAt i = some c → c.state ≠ .pending) →
    ∃ z, y.deliver e crestHead pass = z ∧ UnlistedInLead y z ∧ z.crest = { y.crest with previous := none } ∧
      z.pendingList = y.pendingList ∧
      ∀ j n b, Table.look y.slots j = some (.hold n b) → Table.look z.slots j = some (.hold n b)

/-- The crest unit's own part of an uphill passage at C (R103): timer and hump order stand; the previous cut is forgotten in
IDLE, the tally falls otherwise; the entering cut's record is not written but for its loss, which makes the crest ABSORBING
(R98). -/
def UphillAtCrest : Prop :=
  ∀ (e : Env) (y : Yard) (pass : Passage), pass.direction = .uphill →
    ∃ z, y.deliver e crestHead pass = z ∧ z.pendingList = y.pendingList ∧
      (y.crest.state = .idle → z.crest = { y.crest with previous := none }) ∧
      (∀ slot x, y.crest.state = .absorbing slot x →
        z.crest = { y.crest with state := .absorbing slot { x with tally := x.tally - 1 } }) ∧
      ∀ i x c, y.crest.state = .entering i x → y.cutAt i = some c → c.state = .entering →
        ∃ c', z.cutAt i = some c' ∧
          c'.started.map (fun a => a.crestAxles) = c.started.map (fun a => a.crestAxles) ∧
          (∀ s, y.lead = some s → s.state = .disturbed → c' = c) ∧
          (∀ s, y.lead = some s → s.state ≠ .disturbed → (∃ o ∈ s.occupants, o.slot = i) → c'.state = .lost) ∧
          z.crest =
            { y.crest with
                state := if c'.state = .lost then .absorbing (some i) { x with tally := x.tally - 1 }
                  else .entering i { x with tally := x.tally - 1 } }

/-- The start of the head cut into a lead that is DISTURBED, or that cannot take another axle (R49, R52, R92, R98): the cut is
LOST at once with its hump order and 1 crest axle counted, the crest ABSORBING its other axles with the timer started; a
DISTURBED lead gains the axle in its raw count, a full one becomes DISTURBED. -/
def StartIntoLostLead : Prop :=
  ∀ (e : Env) (y : Yard) (pass : Passage) (i : SlotIx) (rest : List SlotIx) (c : Cut) (s : Section),
    pass.direction = .downhill → y.crest.state = .idle → y.control.mode = .humping ∨ y.control.mode = .halted →
    y.pendingList = i :: rest → y.cutAt i = some c → c.state = .pending → y.lead = some s →
    s.state = .disturbed ∨ 255 ≤ s.count →
    ∃ z c' z', y.deliver e crestHead pass = z ∧ z.pendingList = rest ∧ z.cutAt i = some c' ∧ c'.state = .lost ∧
      c'.number = c.number ∧ c'.dest = c.dest ∧ c'.axles = c.axles ∧ Raised z (.cut i) 2 ∧ c'.started = some z' ∧
      z'.crestAxles = 1 ∧ z'.inTrack = 0 ∧ z'.order = y.freeOrder 65 y.crest.nextOrder ∧
      z.crest = { state := .absorbing (some i) { number := c.number, tally := 1, target := c.axles },
                  timer := some (gapFrom e.ladder pass), previous := y.crest.previous, nextOrder := z'.order + 1 } ∧
      (s.state = .disturbed → s.occupants = [] → z.lead = some { s with count := min (s.count + 1) 255 }) ∧
      (s.state ≠ .disturbed → BecameDisturbed y z .lead s .overcount s.count) ∧
      (s.state = .disturbed → (∀ sid x, y.sectionOf sid = some x → ∀ o ∈ x.occupants, o.slot ≠ i) →
        (∀ q, ∀ a ∈ y.queueOf q, a.slot ≠ i) → ∀ t, z.trackOf t = y.trackOf t)

/-! ### Parts of statements: the checks of COMMISSION -/

/-- The point is in use and marked root (R2). -/
def IsRoot (l : Ladder) (p : PointIx) : Prop := ∃ c, l.config p = some c ∧ c.isRoot = true

/-- Every pair but the last names a leg that leads to the point of the next (R4). -/
def Descends (l : Ladder) : List Pair → Prop
  | [] => True
  | [_] => True
  | a :: b :: rest => l.target a.1 a.2 = .point b.1 ∧ Descends l (b :: rest)

/-- A list of pairs from the root down to a leg (R4). -/
def RouteFrom (l : Ladder) (route : List Pair) (leg : Pair) : Prop :=
  (∃ first, route.head? = some first ∧ IsRoot l first.1) ∧ Descends l route ∧ route.getLast? = some leg

/-- A route of 1 to 8 pairs from the root to a leg (R4, R18). -/
def RouteTo (l : Ladder) (route : List Pair) (leg : Pair) : Prop := RouteFrom l route leg ∧ route.length ≤ 8

/-- The approach distance of a point is sufficient: the shortest arrival time, at 15000 mm/s and the grade, is not below the
throw time with the guard (R20). -/
def ApproachSuffices (c : PointConfig) (k : Constants) : Prop :=
  ∃ v arr : Nat, 15000 * (100 + c.grade) ≤ v * 100 ∧ v * 100 < 15000 * (100 + c.grade) + 100 ∧
    arr * v ≤ c.dApp * 10000 ∧ c.dApp * 10000 < (arr + 1) * v ∧ c.tThrow + k.guard ≤ arr

/-- What the ladder check demands (R15 to R21). -/
def LadderSound (l : Ladder) : Prop :=
  (∃ r, IsRoot l r ∧ ∀ p, IsRoot l p → p = r) ∧
  (∀ p c leg, l.config p = some c →
    c.target leg ≠ .none ∧ (∀ q, c.target leg = .point q → l.config q ≠ none ∧ ¬ IsRoot l q) ∧
    (∀ p' leg', l.target p' leg' = c.target leg → p' = p ∧ leg' = leg)) ∧
  (∀ q, l.config q ≠ none → ¬ IsRoot l q → ∃ p leg, l.target p leg = .point q) ∧
  (∀ q leg, l.config q ≠ none → ∃ route, RouteTo l route (q, leg)) ∧
  (∀ p c, l.config p = some c → ApproachSuffices c l.consts ∧
    ∀ leg, ∃ t route last, c.fallback leg = some t ∧ RouteTo l route last ∧ l.target last.1 last.2 = .track t ∧
      (p, leg) ∈ route) ∧
  (∃ r p leg, l.consts.reject = some r ∧ l.target p leg = .track r) ∧
  (∀ d, l.consts.defaultTrack = some d → ∃ p leg, l.target p leg = .track d)

/-- The ladder check (R14 to R21), with the failures of its first stage (R15), and the routes of a ladder that passes (R4). -/
def LadderCheck : Prop :=
  ∀ l : Ladder,
    (l.check = none ↔ LadderSound l) ∧
    (l.check = none → ∀ t p leg, l.target p leg = .track t → RouteTo l (l.routeOf t) (p, leg)) ∧
    ((∀ p, l.config p = none) → l.check = some (255, 1)) ∧
    ((∃ p, l.config p ≠ none) → (∀ p, ¬ IsRoot l p) → l.check = some (255, 2)) ∧
    (∀ p q, IsRoot l p → IsRoot l q → p < q → (∀ r, IsRoot l r → r < q → r = p) → l.check = some (q.val, 3))

/-- A leg stands before another in the leg order P0/N, P0/R, P1/N and so on (R16). -/
def EarlierLeg (a b : Pair) : Prop := a.1 < b.1 ∨ (a.1 = b.1 ∧ a.2 = .N ∧ b.2 = .R)

/-- The leg of a point in use fails stage 2 with a reason (R16). -/
def LegFails (l : Ladder) (leg : Pair) : Nat → Prop
  | 4 => l.config leg.1 ≠ none ∧ l.target leg.1 leg.2 = .none
  | 5 => ∃ q, l.target leg.1 leg.2 = .point q ∧ l.config q = none
  | 6 => ∃ q, l.target leg.1 leg.2 = .point q ∧ IsRoot l q
  | 7 => l.target leg.1 leg.2 ≠ .none ∧ (∀ q, l.target leg.1 leg.2 = .point q → l.config q ≠ none ∧ ¬ IsRoot l q) ∧
      ∃ earlier, EarlierLeg earlier leg ∧ l.target earlier.1 earlier.2 = l.target leg.1 leg.2
  | _ => False

/-- A point in use other than the root that no leg names (R17). -/
def Unfed (l : Ladder) (q : PointIx) : Prop :=
  l.config q ≠ none ∧ ¬ IsRoot l q ∧ ∀ p leg, l.target p leg ≠ .point q

/-- A point in use that is not reached from the root (R18). -/
def Unreached (l : Ladder) (q : PointIx) : Prop := l.config q ≠ none ∧ ∀ route leg, ¬ RouteFrom l route (q, leg)

/-- A point whose depth exceeds 8 (R4, R18). -/
def TooDeep (l : Ladder) (q : PointIx) : Prop := ∃ route leg, RouteFrom l route (q, leg) ∧ 8 < route.length

/-- A leg's fallback track fails stage 5 with a reason: it is none, or the leg is no pair of its route (R19; log entry 27,
DEDUCED). -/
def FallbackFails (l : Ladder) (leg : Pair) : Nat → Prop
  | 11 => l.fallback leg.1 leg.2 = none
  | 12 => ∃ t, l.fallback leg.1 leg.2 = some t ∧
      ∀ route last, RouteTo l route last → l.target last.1 last.2 = .track t → leg ∉ route
  | _ => False

/-- A point in use fails stage 5 with a reason, its tests taken in their order (R19, R20). -/
def PointFails (l : Ladder) (p : PointIx) (n : Nat) : Prop :=
  ∃ c, l.config p = some c ∧
    (FallbackFails l (p, .N) n ∨
      ((∀ m, ¬ FallbackFails l (p, .N) m) ∧ FallbackFails l (p, .R) n) ∨
      ((∀ m leg, ¬ FallbackFails l (p, leg) m) ∧ n = 13 ∧ ¬ ApproachSuffices c l.consts))

/-- What each of the stages 2 to 6 of the ladder check names, where the stages before it have passed: the index and the reason
of its first failure (R14, R16 to R21). -/
def LadderFailures : Prop :=
  ∀ l : Ladder, (∃ r, IsRoot l r ∧ ∀ p, IsRoot l p → p = r) →
    (∀ leg n, LegFails l leg n → (∀ other m, EarlierLeg other leg → ¬ LegFails l other m) →
      l.check = some (leg.1.val, n)) ∧
    ((∀ leg n, ¬ LegFails l leg n) →
      (∀ q, Unfed l q → (∀ r, r < q → ¬ Unfed l r) → l.check = some (q.val, 8)) ∧
      ((∀ q, ¬ Unfed l q) →
        (∀ q, Unreached l q → (∀ r, r < q → ¬ Unreached l r) → l.check = some (q.val, 9)) ∧
        ((∀ q, ¬ Unreached l q) →
          (∀ q, TooDeep l q → (∀ r, r < q → ¬ TooDeep l r) → l.check = some (q.val, 10)) ∧
          ((∀ q, ¬ TooDeep l q) →
            (∀ p n, PointFails l p n → (∀ q m, q < p → ¬ PointFails l q m) → l.check = some (p.val, n)) ∧
            ((∀ p n, ¬ PointFails l p n) →
              (l.consts.reject = none → l.check = some (255, 14)) ∧
              (∀ r, l.consts.reject = some r →
                ((∀ p leg, l.target p leg ≠ .track r) → l.check = some (255, 15)) ∧
                ((∃ p leg, l.target p leg = .track r) → ∀ d, l.consts.defaultTrack = some d →
                  (∀ p leg, l.target p leg ≠ .track d) → l.check = some (255, 16))))))))

/-- A head is configured: C and E while some point is in use, a leg head while its point is (R5). -/
def Configured (l : Ladder) (h : HeadIx) : Prop :=
  ((h = 0 ∨ h = 1) ∧ ∃ p, l.config p ≠ none) ∨ ∃ p leg, h = legHead p leg ∧ l.config p ≠ none

/-- A line holds a role that a lower-indexed line holds (R31). -/
def Doubled (lines : Table 256 Line) (i : LineIx) : Prop :=
  (Table.look lines i).role ≠ .unused ∧ ∃ j, j < i ∧ (Table.look lines j).role = (Table.look lines i).role

/-- A line holds the role. -/
def Held (lines : Table 256 Line) (r : Role) : Prop := ∃ i, (Table.look lines i).role = r

/-- A configured head fails stage 2 of the line check with a reason (R31). -/
def SensorFails (l : Ladder) (lines : Table 256 Line) (h : HeadIx) (n : Nat) : Prop :=
  Configured l h ∧
    ((n = 2 ∧ ¬ Held lines (.sensorA h)) ∨ (n = 3 ∧ Held lines (.sensorA h) ∧ ¬ Held lines (.sensorB h)))

/-- A point in use fails stage 3 of the line check with a reason (R31). -/
def DetectionFails (l : Ladder) (lines : Table 256 Line) (p : PointIx) (n : Nat) : Prop :=
  l.config p ≠ none ∧
    ((n = 4 ∧ ¬ Held lines (.detectN p)) ∨ (n = 5 ∧ Held lines (.detectN p) ∧ ¬ Held lines (.detectR p)))

/-- The line check (R31), with the index and the reason of the first failure of each stage. -/
def LineCheck : Prop :=
  ∀ (l : Ladder) (lines : Table 256 Line),
    (l.checkLines lines = none ↔
      (∀ i, ¬ Doubled lines i) ∧
      (∀ h, Configured l h →
        (∃ i, (Table.look lines i).role = .sensorA h) ∧ ∃ i, (Table.look lines i).role = .sensorB h) ∧
      ∀ p, l.config p ≠ none →
        (∃ i, (Table.look lines i).role = .detectN p) ∧ ∃ i, (Table.look lines i).role = .detectR p) ∧
    (∀ i, Doubled lines i → (∀ j, j < i → ¬ Doubled lines j) → l.checkLines lines = some (i.val, 1)) ∧
    ((∀ i, ¬ Doubled lines i) →
      (∀ h n, SensorFails l lines h n → (∀ k m, k < h → ¬ SensorFails l lines k m) →
        l.checkLines lines = some (h.val, n)) ∧
      ((∀ h n, ¬ SensorFails l lines h n) →
        ∀ p n, DetectionFails l lines p n → (∀ q m, q < p → ¬ DetectionFails l lines q m) →
          l.checkLines lines = some (p.val, n)))

/-! ### Parts of statements: fields of requests -/

/-- A leg target's kind and index are in range (R8, R184). -/
def TargetInRange (kind index : Byte) : Prop :=
  kind = 0 ∨ (kind = 1 ∧ index.toNat ≤ 39) ∨ (kind = 2 ∧ index.toNat ≤ 40)

/-- A track byte that may name none is in range (R184). -/
def TrackOrNoneInRange (b : Byte) : Prop := b = 255 ∨ b.toNat ≤ 40

/-- The field with a number of SET POINT is in range (R8, R9). -/
def PointFieldInRange (f : PointFields) : Nat → Prop
  | 0 => f.point.toNat ≤ 39
  | 1 => f.inUse.toNat ≤ 1
  | 2 => f.isRoot.toNat ≤ 1
  | 3 => TargetInRange f.nKind f.nIndex
  | 4 => TargetInRange f.rKind f.rIndex
  | 5 => 300 ≤ f.dApp.toNat ∧ f.dApp.toNat ≤ 30000
  | 6 => 200 ≤ f.tThrow.toNat ∧ f.tThrow.toNat ≤ 3000
  | 7 => f.grade.toNat ≤ 50
  | 8 => TrackOrNoneInRange f.nFallback
  | 9 => TrackOrNoneInRange f.rFallback
  | 10 => 5 ≤ f.stall.toNat ∧ f.stall.toNat ≤ 600
  | _ => True

/-- The field with a number of SET YARD is in range (R11, R12). -/
def YardFieldInRange (f : YardFields) : Nat → Prop
  | 1 => 40 ≤ f.spacing.toNat ∧ f.spacing.toNat ≤ 250
  | 2 => f.guard.toNat ≤ 1000
  | 3 => 200 ≤ f.gIn.toNat ∧ f.gIn.toNat ≤ 10000
  | 4 => 50 ≤ f.gCpl.toNat ∧ f.gCpl.toNat + 50 ≤ f.gIn.toNat
  | 5 => 5 ≤ f.leadStall.toNat ∧ f.leadStall.toNat ≤ 600
  | 6 => 1 ≤ f.slots.toNat ∧ f.slots.toNat ≤ 8
  | 7 => TrackOrNoneInRange f.reject
  | 8 => TrackOrNoneInRange f.defaultTrack
  | _ => True

/-- The field with a number of SET LINE is in range; its role kind is field 1, its role index field 2 (R22, R23). -/
def LineFieldInRange (kind index level cls : Byte) : Nat → Prop
  | 1 => kind.toNat ≤ 6
  | 2 => (kind = 1 ∨ kind = 2 → index.toNat ≤ 81) ∧ (kind = 3 ∨ kind = 4 → index.toNat ≤ 39) ∧
      (kind = 6 → index.toNat ≤ 3)
  | 3 => level.toNat ≤ 1
  | 4 => cls.toNat ≤ 1
  | _ => True

/-- A destination's kind and value name a destination that is not refused (R74, R77). -/
def DestinationInRange (s : State) (kind value : Byte) : Prop :=
  kind = 0 ∨ (kind = 1 ∧ ∃ t : TrackIx, value.toNat = t.val ∧ TrackAccepted s t)

/-- The crest unit finds a new cut coupled to the previous cut, by its number and its fields (R95). -/
def CoupledTo (s : State) (pass : Passage) (number : Word16) (x : Started) : Prop :=
  ∃ p c, s.yard.crest.previous = some p ∧ s.yard.cutAt p.slot = some c ∧ c.number = p.number ∧ number = c.number ∧
    (c.state = .rolling ∨ c.state = .arrived) ∧ c.started = some x ∧ p.longAgo = false ∧
    (pass.instant - p.instant).toNat < 10 * s.ladder.consts.gCpl

/-- A cut that joins the root's queue with a route is not diverted there in the same event: the queue has a head already, or
the root serves the leg that the route names (R42, R148). -/
def KeepsRoute (s : State) (route : List Pair) : Prop :=
  ∀ r, s.ladder.root = some r →
    s.yard.queueOf r ≠ [] ∨ ∃ pt leg, s.yard.pointOf r = some pt ∧ Serves pt.state leg ∧
      (route.find? (fun pr => pr.1 == r)).map (fun pr => pr.2) = some leg

/-! ### Parts of statements: coded fields of answers (R184, R186 to R189) -/

/-- The place of a value in a list of values, as a byte. -/
def codeIn {α : Type} [DecidableEq α] (values : List α) (a : α) : Byte := BitVec.ofNat 8 (values.idxOf a)

/-- The decoder states in the order of R32. -/
def decoderCode : DecoderState → Byte :=
  codeIn [.off, .settling, .idle, .down1, .down2, .down3, .up1, .up2, .up3, .both, .held]

/-- The disturbance causes in the order of R39. -/
def disturbCode : DisturbCause → Byte :=
  codeIn [.startup, .rollback, .headFault, .phantomExit, .unexpectedAxle, .enteredDisturbed, .overcount, .unlisted,
    .lostCut]

/-- Where a request or an answer shows the number of a slot's record. -/
def numberIn (y : Yard) (i : SlotIx) : Word16 :=
  match Table.look y.slots i with
  | some r => r.number
  | none => 0

/-- The bytes of READ HEAD (R38). -/
def headAnswer (configured : Bool) (h : Head) : List Byte :=
  [boolCode configured, if h.condition = .ok then 0 else 1, decoderCode h.state] ++
    (match h.fault with
     | none => List.replicate 9 0
     | some f => [1, 0, 1] ++ le32 f.instant ++ [1, decoderCode f.state]) ++
    (match h.last with
     | none => List.replicate 8 0
     | some p => [1, if p.direction = .downhill then 0 else 1] ++ le32 p.instant ++ le16 (BitVec.ofNat 16 p.interval))

/-- The bytes of READ SECTION before its entries (R64). -/
def sectionAnswer (x : Section) (queued : Nat) : List Byte :=
  [codeIn [.clear, .occupied, .disturbed] x.state, BitVec.ofNat 8 x.count] ++
    (match x.cause with
     | none => [0, 0]
     | some c => [1, disturbCode c]) ++
    [boolCode x.stallFlag, boolCode x.stallTimer.isSome, BitVec.ofNat 8 x.occupants.length, BitVec.ofNat 8 queued]

/-- The bytes of READ DEVICE: the mode controller, the pending list and the cut table (R189, bytes 0 to 11). -/
def DeviceControlBytes (s : State) (b : List Byte) : Prop :=
  b.getD 0 0 = codeIn [.setup, .standby, .humping, .halted] s.mode ∧ b.getD 1 0 = s.yard.control.halt ∧
    b.getD 2 0 = BitVec.ofNat 8
      ((if s.yard.control.stopFlag = true then 2 else 0) + (if 0 < s.yard.control.disturbed then 4 else 0) +
        (if 0 < s.yard.control.lost then 8 else 0) + (if 0 < s.yard.control.stall then 16 else 0) +
        (if s.yard.control.freezeFlag = true then 32 else 0)) ∧
    ((b.getD 3 0).getLsbD 0 = s.yard.control.stopFlag ∧ (b.getD 3 0).getLsbD 1 = s.yard.control.freezeFlag ∧
      ((b.getD 3 0).getLsbD 2 = true ↔ ∃ i k, (Table.look s.lines i).role = .freezeKey k) ∧
      (b.getD 3 0).getLsbD 3 = s.yard.control.permit) ∧
    (b.drop 4).take 4 =
      [BitVec.ofNat 8 s.yard.control.disturbed, BitVec.ofNat 8 s.yard.control.lost, BitVec.ofNat 8 s.yard.control.stall,
       BitVec.ofNat 8 s.yard.pendingList.length] ∧
    (s.yard.pendingList = [] → (b.drop 8).take 3 = [0, 0, 0]) ∧
    (∀ i rest r, s.yard.pendingList = i :: rest → Table.look s.yard.slots i = some r →
      (b.drop 8).take 2 = le16 r.number ∧
      b.getD 10 0 = (match r with
        | .cut _ => 1
        | .hold _ reached => if reached = true then 3 else 2)) ∧
    b.getD 11 0 = BitVec.ofNat 8 ((List.finRange 64).filter (fun i => (Table.look s.yard.slots i).isSome)).length

/-- The bytes of READ DEVICE: the crest unit (R189, bytes 12 to 33). -/
def DeviceCrestBytes (s : State) (b : List Byte) : Prop :=
  (s.yard.crest.state = .idle → b.getD 12 0 = 0 ∧ (b.getD 13 0).getLsbD 0 = false ∧ (b.getD 13 0).getLsbD 1 = false) ∧
    (∀ i x, s.yard.crest.state = .entering i x ∨ s.yard.crest.state = .absorbing (some i) x →
      (b.getD 13 0).getLsbD 0 = true ∧ b.getD 14 0 = BitVec.ofNat 8 i.val) ∧
    (∀ i x, s.yard.crest.state = .entering i x → b.getD 12 0 = 1) ∧
    (∀ o x, s.yard.crest.state = .absorbing o x → b.getD 12 0 = 2 ∧ (b.getD 13 0).getLsbD 0 = o.isSome) ∧
    (∀ x, (∃ i, s.yard.crest.state = .entering i x) ∨ (∃ o, s.yard.crest.state = .absorbing o x) →
      (b.getD 13 0).getLsbD 1 = true ∧
      (b.drop 15).take 4 = le16 x.number ++ [BitVec.ofNat 8 x.tally, BitVec.ofNat 8 x.target]) ∧
    (b.getD 13 0).getLsbD 2 = s.yard.crest.timer.isSome ∧
    (∀ g, s.yard.crest.timer = some g → (b.drop 19).take 4 = le32 g.expiry) ∧
    (b.getD 13 0).getLsbD 3 = s.yard.crest.previous.isSome ∧
    (∀ p, s.yard.crest.previous = some p →
      (b.drop 23).take 7 = BitVec.ofNat 8 p.slot.val :: le16 p.number ++ le32 p.instant) ∧
    (b.drop 30).take 4 = le32 s.yard.crest.nextOrder

/-- The bytes of READ DEVICE: drive slots, waiting list, constants, straps, clock, device notice (R189, bytes 34 to 53). -/
def DeviceTailBytes (s : State) (b : List Byte) : Prop :=
  b.drop 34 =
    [BitVec.ofNat 8 s.yard.slotsInUse, BitVec.ofNat 8 s.yard.waiting.length] ++ (yardFields s.ladder.consts).bytes ++
      [BitVec.ofNat 8 s.straps.toNat] ++ le32 s.clock ++ [s.yard.notices.device]

/-- The bytes of READ LINE: role kind and index, active level, class, raw level, filtered level, agreement count, dormant
(R30). The raw level is that of the most recent sample, for an UNUSED line that of the most recent tick; a line not sampled
since hardware reset is read as an UNUSED one (log entry 24, DESIGN CHOICE). -/
def LineAnswer (s : State) (i : LineIx) (b : List Byte) : Prop :=
  ∃ l kind present index dormant, Table.look s.lines i = l ∧ NamesRole kind index l.role ∧
    b = [kind, present, index, if l.active = .high then 0 else 1, if l.cls = .fast then 0 else 1,
      if (if l.role = .unused ∨ l.everSampled = false then rawLevel s.raw i else l.sampled) = .high then 0 else 1,
      boolCode l.filtered, BitVec.ofNat 8 l.agreement, dormant] ∧
    (l.role = .unused ∨ l.role = .stop → present = 0 ∧ index = 0) ∧
    (l.role ≠ .unused → l.role ≠ .stop → present = 1) ∧
    ((∃ h, (l.role = .sensorA h ∨ l.role = .sensorB h) ∧ ¬ Configured s.ladder h) ∨
        (∃ p, (l.role = .detectN p ∨ l.role = .detectR p) ∧ s.ladder.config p = none) → dormant = 1) ∧
    ((∀ h, l.role = .sensorA h ∨ l.role = .sensorB h → Configured s.ladder h) →
        (∀ p, l.role = .detectN p ∨ l.role = .detectR p → s.ladder.config p ≠ none) → dormant = 0)

/-- A byte whose bits 0, 1, 2, … are set as the list says (R186). -/
def bitByte (l : List Bool) : Byte :=
  BitVec.ofNat 8 ((List.range l.length).map (fun k => if l.getD k false = true then 2 ^ k else 0)).sum

/-- The cut states in the order of R187. -/
def cutStateCode : CutState → Byte := codeIn [.pending, .entering, .rolling, .arrived, .lost]

/-- The resolution causes in the order of R187. -/
def resolutionCode : ResolutionCause → Byte := codeIn [.trackClosed, .trackFull, .noBlock]

/-- The diversion causes in the order of R187. -/
def diversionCode : DiversionCause → Byte := codeIn [.late, .caughtUp, .pointUnavailable, .frozen]

/-- The fault causes in the order of R125 (R188). -/
def faultCode : FaultCause → Byte :=
  codeIn [.throwFailed, .detectionLost, .unexpectedMove, .enteredDuringThrow, .legMismatch, .sectionDisturbed,
    .returnFailed, .startupUnproved]

/-- The planning states in the order of R142 (R188). -/
def planCode : PlanState → Byte := codeIn [.idle, .set, .diverted, .requested, .waitingClear, .waitingPoint]

/-- The route bytes 26 to 33 of READ CUT: the point in bits 0 to 5, the leg in bit 7, 0 beyond the route (R187). -/
def routeAnswer (route : List Pair) : List Byte :=
  (List.range 8).map (fun k =>
    match route[k]? with
    | some (p, .N) => BitVec.ofNat 8 p.val
    | some (p, .R) => BitVec.ofNat 8 (128 + p.val)
    | none => 0)

/-- The diversion bytes 35 to 58 of READ CUT: point, cause, track before, oldest first, 0 beyond the list (R187). -/
def diversionAnswer (l : List Diversion) : List Byte :=
  (List.range 8).flatMap (fun k =>
    match l[k]? with
    | some d => [BitVec.ofNat 8 d.point.val, diversionCode d.cause, BitVec.ofNat 8 d.before.val]
    | none => [0, 0, 0])

/-- The 59 bytes of READ CUT for a cut, the 6 for a marker (R85, R187). -/
def recordAnswer (i : SlotIx) (r : Record) (notice : Byte) : List Byte :=
  match r with
  | .hold n reached => [BitVec.ofNat 8 i.val, 1] ++ le16 n ++ [boolCode reached, notice]
  | .cut c =>
    let actual : Byte := match c.actual with
      | some t => BitVec.ofNat 8 t.val
      | none => 0
    [BitVec.ofNat 8 i.val, 0] ++ le16 c.number ++
      [cutStateCode c.state, notice, (destinationCode c.dest).1, (destinationCode c.dest).2, BitVec.ofNat 8 c.axles] ++
      (match c.started with
       | none => [0] ++ List.replicate 15 0 ++ [actual] ++ List.replicate 33 0
       | some x =>
         [bitByte [true, x.cause.isSome, x.speed.isSome, x.coupled.isSome, x.short.isSome, c.actual.isSome, x.hazard]] ++
           le32 x.order ++
           [BitVec.ofNat 8 x.resolved.val, (x.cause.map resolutionCode).getD 0, BitVec.ofNat 8 x.route.length,
            BitVec.ofNat 8 x.progress, BitVec.ofNat 8 x.crestAxles, BitVec.ofNat 8 x.inTrack] ++
           le16 (BitVec.ofNat 16 (x.speed.getD 0)) ++ le16 (x.coupled.getD 0) ++ [BitVec.ofNat 8 (x.short.getD 0)] ++
           [actual] ++ routeAnswer x.route ++ [BitVec.ofNat 8 x.diversions.length] ++ diversionAnswer x.diversions)

/-- The code of a point's state (R188). -/
def pointStateCode : PointState → Byte
  | .proved _ => 0
  | .moving _ _ _ _ => 1
  | .returning _ _ _ => 2
  | .faulty _ _ => 3
  | .lost _ => 4

/-- The leg, the origin, the throw kind, the timer's expiry and the fault cause that a state holds (R125). -/
def stateFields : PointState → Option Leg × Option Leg × Option ThrowKind × Option Instant × Option FaultCause
  | .proved l => (some l, none, none, none, none)
  | .moving l origin expiry kind => (some l, some origin, some kind, some expiry, none)
  | .returning l expiry kind => (some l, none, some kind, some expiry, none)
  | .faulty l c => (some l, none, none, none, some c)
  | .lost c => (none, none, none, none, some c)

/-- The bytes 17 to 24 of READ POINT: the point record (R188). -/
def stateAnswer (x : Point) : List Byte :=
  let f := stateFields x.state
  [pointStateCode x.state,
   bitByte [f.1 == some .R, f.2.1 == some .R, f.2.2.1 == some .manual, x.barred, x.detectN, x.detectR, f.2.2.2.2.isSome],
   if x.detectN = x.detectR then 0 else if x.detectN = true then 1 else 2, (f.2.2.2.2.map faultCode).getD 0] ++
    le32 (f.2.2.2.1.getD 0)

/-- The bytes 25 to 33 of READ POINT: the waiting entry of a point and how many entries stand before it (R188). -/
def entryAnswer (y : Yard) (p : PointIx) : List Byte :=
  match y.waitingOf p with
  | none => List.replicate 9 0
  | some w =>
    (match w.claim with
     | .deadline d i => [1, legCode w.target] ++ le32 d ++ le16 (numberIn y i)
     | .manual => [2, legCode w.target] ++ List.replicate 6 0) ++
      [BitVec.ofNat 8 (y.waiting.takeWhile (fun v => v.point != p)).length]

/-- The bytes 36 to 60 of READ POINT: the planning record (R188). -/
def planAnswer (y : Yard) (p : PointIx) : List Byte :=
  match y.planOf p with
  | none => List.replicate 25 0
  | some r =>
    [planCode r.state] ++
      le16 (match r.head with
        | some i => numberIn y i
        | none => 0) ++
      [match r.needed with
        | some l => legCode l
        | none => 0] ++
      (match r.test with
       | none => List.replicate 21 0
       | some t =>
         [if t.pass = true then 3 else 1] ++ le16 (BitVec.ofNat 16 t.speed) ++ le16 (BitVec.ofNat 16 t.allowed) ++
           le32 (BitVec.ofNat 32 t.arrival) ++ le32 (BitVec.ofInt 32 t.margin) ++ le32 t.deadline ++ le32 t.at_)

/-- The 17 or 62 bytes of READ POINT (R141, R188). The index byte beside target kind none is 0 (log entry 34, DESIGN CHOICE). -/
def pointAnswer (s : State) (p : PointIx) : List Byte :=
  (match s.ladder.config p with
   | some c => (pointFields p c).bytes
   | none => [BitVec.ofNat 8 p.val, 0] ++ List.replicate 14 0) ++
    (match s.yard.pointOf p with
     | none => [0]
     | some x =>
       [1] ++ stateAnswer x ++ entryAnswer s.yard p ++
         [BitVec.ofNat 8 s.yard.slotsInUse, BitVec.ofNat 8 s.ladder.consts.slots] ++ planAnswer s.yard p ++
         [s.yard.notices.reasons (.point p)])

/-- The leg is a track's feeding leg: the first in the leg order that names it (R3). -/
def FeedsTrack (l : Ladder) (leg : Pair) (t : TrackIx) : Prop :=
  l.target leg.1 leg.2 = .track t ∧ ∀ other, EarlierLeg other leg → l.target other.1 other.2 ≠ .track t

/-- The track is in use (R3). -/
def Used (l : Ladder) (t : TrackIx) : Prop := ∃ p leg, l.target p leg = .track t

/-- An enabled window covers the track: it lies from the first track to the last one, lowered to the highest in use (R108). -/
def CoveredBy (y : Yard) (l : Ladder) (t : TrackIx) : Prop :=
  ∃ w : Fin 4, (Table.look y.windows w).first ≤ t.val ∧ t.val ≤ (Table.look y.windows w).last ∧
    ∃ u, Used l u ∧ t.val ≤ u.val

/-- The 15 bytes of READ TRACK (R123; the presence byte of the feeding leg by log entry 11, DEDUCED). -/
def TrackAnswer (s : State) (t : TrackIx) (b : List Byte) : Prop :=
  b.length = 15 ∧
    (∀ leg : Pair, FeedsTrack s.ladder leg t → b.take 4 = [1, 1, BitVec.ofNat 8 leg.1.val, legCode leg.2]) ∧
    (¬ Used s.ladder t → b.take 4 = [0, 0, 0, 0]) ∧
    (b.drop 4).take 8 =
      [boolCode (s.ladder.consts.reject == some t), boolCode (s.ladder.consts.defaultTrack == some t)] ++
        le16 (BitVec.ofNat 16 (s.yard.trackOf t).capacity) ++ le16 (BitVec.ofNat 16 (s.yard.trackOf t).fill) ++
        le16 (BitVec.ofNat 16 (s.yard.trackOf t).reserved) ∧
    (CoveredBy s.yard s.ladder t →
      (b.drop 12).take 2 = [1, if s.ladder.consts.reject = some t then 0 else 1]) ∧
    (¬ CoveredBy s.yard s.ladder t → (b.drop 12).take 2 = [0, 0]) ∧
    b.drop 14 = [s.yard.notices.reasons (.track t)]

/-- The 5 bytes of READ MAP for a window: the tracks as set, the effective last track with its presence byte (log entry 11,
DEDUCED), enabled (R108, R124). -/
def WindowAnswer (s : State) (w : Fin 4) (b : List Byte) : Prop :=
  ∃ x, Table.look s.yard.windows w = x ∧
    (∀ h : TrackIx, Used s.ladder h → (∀ u, Used s.ladder u → u ≤ h) →
      b = [BitVec.ofNat 8 x.first, BitVec.ofNat 8 x.last, 1, BitVec.ofNat 8 (min x.last h.val),
           if x.first ≤ min x.last h.val then 1 else 0]) ∧
    ((∀ u, ¬ Used s.ladder u) → b = [BitVec.ofNat 8 x.first, BitVec.ofNat 8 x.last, 0, 0, 0])

/-- The 23 bytes of READ NOTICES (R177, R190). -/
def NoticesAnswer (n : Notices) (b : List Byte) : Prop :=
  b.length = 23 ∧
    (∀ i : SlotIx, (b.getD (i.val / 8) 0).getLsbD (i.val % 8) = (n.reasons (.cut i) != 0)) ∧
    (∀ p : PointIx, (b.getD (8 + p.val / 8) 0).getLsbD (p.val % 8) = (n.reasons (.point p) != 0)) ∧
    (∀ t : TrackIx, (b.getD (13 + t.val / 8) 0).getLsbD (t.val % 8) = (n.reasons (.track t) != 0)) ∧
    (b.getD 18 0).toNat ≤ 1 ∧
    b.drop 19 =
      [bitByte [n.lead != 0, n.device != 0], n.lead, n.device,
       bitByte [Table.look n.enables 0, Table.look n.enables 1, Table.look n.enables 2, Table.look n.enables 3,
         Table.look n.enables 4, n.mask, n.attn]]

/-- What the reads are refused with: fields out of range, a record, point or section that is not there (R38, R64, R66, R85, R86,
R123, R124, R141). -/
def ReadRefusals (s : State) : Prop :=
  (∀ (kind : Byte) (value : Word16), 1 < kind.toNat → Refuses (.readCut kind value) s .badValue [0]) ∧
    Refuses (.readCut 0 0) s .badValue [1] ∧
    (∀ n, n ≠ 0 → NumberFree s.yard n → Refuses (.readCut 0 n) s .noRecord []) ∧
    (∀ v : Word16, 63 < v.toNat → Refuses (.readCut 1 v) s .badValue [2]) ∧
    (∀ i : SlotIx, Table.look s.yard.slots i = none →
      Refuses (.readCut 1 (BitVec.ofNat 16 i.val)) s .noRecord [BitVec.ofNat 8 i.val]) ∧
    (∀ start : Byte, 63 < start.toNat → Refuses (.readPending start) s .badValue [1]) ∧
    (∀ b : Byte, 40 < b.toNat → Refuses (.readTrack b) s .badValue [0]) ∧
    (∀ kind index : Byte,
      (1 < kind.toNat → Refuses (.readMap kind index) s .badValue [0]) ∧
      (31 < index.toNat → Refuses (.readMap 0 index) s .badValue [1]) ∧
      (3 < index.toNat → Refuses (.readMap 1 index) s .badValue [1])) ∧
    (∀ b : Byte, 39 < b.toNat → Refuses (.readPoint b) s .badValue [0]) ∧
    (∀ b : Byte, 81 < b.toNat → Refuses (.readHead b) s .badValue [0]) ∧
    ∀ list start : Byte,
      (s.mode = .setup → ∀ sel, Refuses (.readSection sel list start) s .badMode []) ∧
      (s.mode ≠ .setup →
        (∀ sel : Byte, 39 < sel.toNat → sel ≠ 255 → Refuses (.readSection sel list start) s .badValue [0]) ∧
        (∀ p : PointIx, s.yard.sectionOf (.point p) = none →
          Refuses (.readSection (BitVec.ofNat 8 p.val) list start) s .noRecord [BitVec.ofNat 8 p.val]) ∧
        ∀ sid x, s.yard.sectionOf sid = some x →
          (1 < list.toNat ∨ (sid = .lead ∧ list = 1) → Refuses (.readSection (selectorCode sid) list start) s .badValue [1]) ∧
          (list.toNat ≤ 1 → (sid = .lead → list = 0) → 63 < start.toNat →
            Refuses (.readSection (selectorCode sid) list start) s .badValue [2]))

/-- The common checks of the requests on points: the mode, the index, in use (section 7.6). -/
def PointChecks (c : Byte → Instr) : Prop :=
  ∀ (s : State) (b : Byte),
    (s.mode = .setup → Refuses (c b) s .badMode []) ∧
    (s.mode ≠ .setup →
      (39 < b.toNat → Refuses (c b) s .badValue [0]) ∧
      ∀ p : PointIx, b.toNat = p.val → s.yard.pointOf p = none → Refuses (c b) s .noRecord [b])

/-- RESET SECTION of a section returns a head to OK: it is FAULTY and adjoins the section (R37, R62), or it is C, the section
is the root's (R104; log entry 32, DESIGN CHOICE) and no sensor of C is ACTIVE. -/
def Restores (s : State) (sid : SectionId) (h : HeadIx) : Prop :=
  (Table.look s.heads h).condition = .faulty ∧
    (h ∈ s.ladder.headsOf sid ∨
      (h = 0 ∧ ¬ Blocks s h ∧ ∃ r, s.ladder.root = some r ∧ sid = .point r))

end Sys2Proof.Spec

open Sys2Proof Sys2Proof.Machine Sys2Proof.Spec

/-! ## The block as a whole -/

/-- One step executes the command at the front of the queue on the state with the queue's rest. The queue is the model's
(log entry 1, DESIGN CHOICE), and so is that the block idles on an empty one. -/
def Obligations.StepExecutesFrontCommand : Prop :=
  (∀ (c : Instr) (rest : List Instr) (s : State),
    step { s with pending := c :: rest } = exec c { s with pending := rest }) ∧
  (∀ s : State, s.pending = [] → step s = .next s)

/-- The manual gives no command that stops the part: every command answers a next state (sections 11.3, 95). -/
def Obligations.EveryCommandAnswersNext : Prop := ∀ (c : Instr) (s : State), ∃ t, exec c s = .next t

/-- Which commands can change the clock, the straps, the raw levels, the configuration, the lines, the heads and the link;
no command changes the queue's rest (95_what_each_step_holds.md). That only a tick changes the raw levels is the model's choice
(log entry 36, DESIGN CHOICE: R24 lets them change between two ticks), and so is that a hardware reset keeps the waiting commands
and the raw levels (log entries 1 and 5, DESIGN CHOICE); the mark longAgo that a tick sets on a head is the model's (log entry 7,
DEDUCED). -/
def Obligations.CommandsChangeOnlyTheirUnits : Prop :=
  ∀ (c : Instr) (s t : State), exec c s = .next t →
    t.pending = s.pending ∧
    (t.clock ≠ s.clock → IsReset c ∨ IsTick c) ∧
    (t.straps ≠ s.straps → IsReset c) ∧
    (t.raw ≠ s.raw → IsTick c) ∧
    (t.ladder ≠ s.ladder → IsReset c ∨ (∃ f, c = .setPoint f) ∨ ∃ f, c = .setYard f) ∧
    (t.lines ≠ s.lines → IsReset c ∨ IsTick c ∨ IsTransition c ∨ ∃ l k i a f, c = .setLine l k i a f) ∧
    ((∃ h, bare (Table.look t.heads h) ≠ bare (Table.look s.heads h)) → HeadCommand c) ∧
    (t.heads ≠ s.heads → IsTick c ∨ HeadCommand c) ∧
    (t.link ≠ s.link → IsReset c ∨ (∃ bytes, c = .requestDiscarded bytes) ∨ (codeOf c).isSome = true)

/-- Which commands can change the closure windows, the block map, a track's capacity, the attention enables and mask, and
the pending list (R71, R106, R108, R110, R178). -/
def Obligations.SettingsChangeOnlyByTheirRequests : Prop :=
  ∀ (c : Instr) (s t : State), exec c s = .next t →
    (t.yard.windows ≠ s.yard.windows → IsReset c ∨ ∃ w f l, c = .setWindow w f l) ∧
    (t.yard.blockMap ≠ s.yard.blockMap → IsReset c ∨ ∃ e v k n r, c = .setMap e v k n r) ∧
    ((∃ k, (t.yard.trackOf k).capacity ≠ (s.yard.trackOf k).capacity) → IsReset c ∨ ∃ k n, c = .setTrack k n) ∧
    (t.yard.notices.enables ≠ s.yard.notices.enables ∨ t.yard.notices.mask ≠ s.yard.notices.mask →
      IsReset c ∨ ∃ a b d e f m, c = .setAttention a b d e f m) ∧
    (t.yard.pendingList ≠ s.yard.pendingList →
      IsReset c ∨ IsTransition c ∨ (∃ n k v a, c = .enter n k v a) ∨ (∃ n, c = .hold n) ∨ ∃ n, c = .withdraw n)

/-- The mode changes only as the table of R162 gives: each change by the command it names, but HUMPING to HALTED, which a
halt cause makes (R169) and which is left open to any command here. -/
def Obligations.ModeChangesOnlyAsTabled : Prop :=
  ∀ (c : Instr) (s t : State), exec c s = .next t → modeChangeAllowed c s.mode t.mode

/-- A refused request changes nothing but the link interface (sections 1.3, 3.9, 4.6, 7.6, 9.2, 10.2, 11.3). -/
def Obligations.RefusedRequestChangesNothing : Prop :=
  ∀ (c : Instr) (s t : State), WellFormed c = true → (codeOf c).isSome = true → exec c s = .next t →
    t.link.response.status ≠ 0x00 → t = { s with link := t.link }

/-- Every request leaves its frame in the receive buffer, and its response replaces the earlier one: the echoed code, the
check byte over the frame, the read position at the status byte; no response carries NO_RESPONSE (R183, R185). That the
receive buffer keeps the frame, with the mark that its check byte has been taken, is the model's choice (log entry 26, DESIGN
CHOICE). -/
def Obligations.EveryRequestIsAnswered : Prop :=
  ∀ (c : Instr) (code : Byte) (s t : State), WellFormed c = true → codeOf c = some code → exec c s = .next t →
    t.link.receive = receivedGood code (payloadOf c) ∧ t.link.readPosition = 0 ∧ t.link.response.code = code ∧
      t.link.response.status ≠ 0xFF ∧
      t.link.response.check =
        crc8 (t.link.response.status :: code :: BitVec.ofNat 8 t.link.response.payload.length :: t.link.response.payload)

/-- No request is answered with more than the 62 payload bytes that a response frame can hold (R183). -/
def Obligations.ResponsePayloadFitsFrame : Prop :=
  ∀ (c : Instr) (s t : State), WellFormed c = true → (codeOf c).isSome = true → exec c s = .next t →
    t.link.response.payload.length ≤ 62

/-! ## Laws that every step keeps -/

/-- R171: PERMIT is asserted exactly in HUMPING with a PENDING cut at the head of the list and freeze inactive. -/
def Obligations.PermitLawIsKept : Prop := ∀ s t : State, s.PermitLaw → step s = .next t → t.PermitLaw

/-- R178: ATTN is driven active exactly while the mask is off and an enabled class holds a raised notice. -/
def Obligations.AttnLawIsKept : Prop := ∀ s t : State, s.AttnLaw → step s = .next t → t.AttnLaw

/-- R125, R129: a drive line is energised exactly while its point is MOVING or RETURNING toward its leg; and the first law of
point control, that no point is MOVING or RETURNING whose section is not CLEAR. Each is kept by itself. -/
def Obligations.DriveLawIsKept : Prop :=
  (∀ s t : State, s.DriveLaw → step s = .next t → t.DriveLaw) ∧
    ∀ s t : State, s.FirstLaw → step s = .next t → t.FirstLaw

/-- R130: the slots in use are the points in motion and never pass the configured number. -/
def Obligations.SlotLawIsKept : Prop := ∀ s t : State, s.SlotLaw → step s = .next t → t.SlotLaw

/-- R107: the reserved count of every track is the sum over the cuts on the ladder that are bound for it. -/
def Obligations.ReservedLawIsKept : Prop := ∀ s t : State, s.ReservedLaw → step s = .next t → t.ReservedLaw

/-- R40, R41, R163: section records are lawful, the axle count of a section that is not DISTURBED being the sum of entered
minus exited over its entries, and the three counts are the numbers of DISTURBED sections, set stall flags and LOST points. -/
def Obligations.CountLawIsKept : Prop := ∀ s t : State, s.CountLaw → step s = .next t → t.CountLaw

/-- R162: in SETUP no ladder exists. -/
def Obligations.SetupLawIsKept : Prop := ∀ s t : State, s.SetupLaw → step s = .next t → t.SetupLaw

/-- The state after hardware reset meets the eight laws. -/
def Obligations.ResetMeetsEveryLaw : Prop :=
  State.reset.PermitLaw ∧ State.reset.AttnLaw ∧ State.reset.DriveLaw ∧ State.reset.FirstLaw ∧ State.reset.SlotLaw ∧
    State.reset.ReservedLaw ∧ State.reset.CountLaw ∧ State.reset.SetupLaw

/-! ## The control link -/

/-- Frames and commands agree: the frame of every well-formed request spells that request and no other (R181, R184). -/
def Obligations.RequestFrameSpellsItsRequest : Prop :=
  ∀ (c : Instr) (frame : List Byte), WellFormed c = true → frameOf c = some frame → commandOfTransfer frame = c

/-- The receiver acknowledges every byte of a request's frame and ends with the frame in its buffer (R181). That the buffer
keeps the frame after the transfer, with the mark that its check byte has been taken, is the model's choice (log entry 26,
DESIGN CHOICE). -/
def Obligations.RequestFrameIsAcknowledged : Prop :=
  ∀ (c : Instr) (code : Byte), WellFormed c = true → codeOf c = some code →
    receive (requestFrame code (payloadOf c)) =
      (receivedGood code (payloadOf c), List.replicate ((payloadOf c).length + 3) true)

/-- A transfer holds a good frame exactly if it begins with the frame of a listed code with an allowed length; what
follows the check byte is ignored (R181). -/
def Obligations.GoodFrameIsAPrefix : Prop :=
  ∀ (bytes : List Byte) (code : Byte) (payload : List Byte),
    goodFrame bytes = some (code, payload) ↔
      lengthAllowed code payload.length = true ∧ ∃ rest, bytes = requestFrame code payload ++ rest

/-- REQUEST_DISCARDED changes the receive buffer alone: the response of the last executed request stays (R181). What the
receive buffer keeps of the discarded transfer is the model's choice (log entry 26, DESIGN CHOICE). -/
def Obligations.DiscardedRequestKeepsResponse : Prop :=
  ∀ (bytes : List Byte) (s : State), goodFrame bytes = none →
    exec (.requestDiscarded bytes) s = .next { s with link := { s.link with receive := (receive bytes).1 } }

/-! ## Reset, clock, field lines, heads -/

/-- HARDWARE_RESET: every field takes its reset value, the straps are read as ADR = 2 × ADR1 + ADR0 (R13, R180). The raw
levels and the waiting commands, which belong to the world outside, stay (the model's choice, log entries 1 and 5, DESIGN CHOICE). In the
state after reset the sampled level of a line, the parts of an empty receive buffer and the model's own fields stand at the
model's values (log entries 4, 5, 22, 24 and 26, DESIGN CHOICE; 7, DEDUCED). -/
def Obligations.HardwareResetRestoresResetState : Prop :=
  ∀ (adr1 adr0 : Bool) (s : State), ∃ straps : BitVec 2,
    straps.toNat = 2 * adr1.toNat + adr0.toNat ∧
      exec (.hardwareReset adr1 adr0) s =
        .next { State.reset with straps := straps, raw := s.raw, pending := s.pending }

/-- What the manual gives the state after hardware reset (R1, R11, R13, R22, R26, R32, R38, R42, R87, R88, R106, R108, R110, R126,
R142, R162, R174, R178, R180): a head that is OFF has no running timer, no recorded fault and no last passage, and without a
commissioned ladder there is no section, no approach queue, no point and no planning record. -/
def Obligations.ResetStateHoldsGivenValues : Prop :=
  State.reset.clock = 0 ∧ (∀ p, State.reset.ladder.config p = none) ∧
    State.reset.ladder.consts =
      { spacing := 120, guard := 300, gIn := 3000, gCpl := 600, leadStall := 120, slots := 2, reject := none,
        defaultTrack := none } ∧
    (∀ i, (Table.look State.reset.lines i).role = .unused ∧ (Table.look State.reset.lines i).active = .high ∧
      (Table.look State.reset.lines i).cls = .fast ∧ (Table.look State.reset.lines i).filtered = false ∧
      (Table.look State.reset.lines i).agreement = 0) ∧
    (∀ h, (Table.look State.reset.heads h).state = .off ∧ (Table.look State.reset.heads h).condition = .ok ∧
      (Table.look State.reset.heads h).timer = none ∧ (Table.look State.reset.heads h).fault = none ∧
      (Table.look State.reset.heads h).last = none) ∧
    (∀ sid, State.reset.yard.sectionOf sid = none) ∧ (∀ q, State.reset.yard.queueOf q = []) ∧
    (∀ q, State.reset.yard.planOf q = none) ∧ (∀ i, Table.look State.reset.yard.slots i = none) ∧
    State.reset.yard.pendingList = [] ∧
    State.reset.yard.crest = { state := .idle, timer := none, previous := none, nextOrder := 1 } ∧
    (∀ t, State.reset.yard.trackOf t = { capacity := 0, fill := 0, reserved := 0 }) ∧
    (∀ w, Table.look State.reset.yard.windows w = { first := 1, last := 0 }) ∧
    (∀ m, Table.look State.reset.yard.blockMap m = none) ∧ (∀ p, State.reset.yard.pointOf p = none) ∧
    (∀ d, Table.look State.reset.yard.drive d = false) ∧ State.reset.yard.slotsInUse = 0 ∧
    State.reset.yard.waiting = [] ∧
    State.reset.yard.control =
      { mode := .setup, halt := 0, disturbed := 0, lost := 0, stall := 0, stopFlag := false, freezeFlag := false,
        permit := false } ∧
    (∀ k, State.reset.yard.notices.reasons k = 0) ∧ (∀ c, Table.look State.reset.yard.notices.enables c = true) ∧
    State.reset.yard.notices.mask = false ∧ State.reset.yard.notices.attn = false ∧
    State.reset.link.response.frame = [0xFF, 0x00, 0x00, 0x00] ∧
    statusCode .noResponse = State.reset.link.response.status ∧ State.reset.link.readPosition = 0 ∧
    State.reset.link.receive.code = none ∧ State.reset.link.receive.length = none ∧
    State.reset.link.receive.payload = [] ∧ State.reset.link.receive.reject = false

/-- LADDER_CLOCK_TICK: the clock rises by 1 modulo 2^32, every line due for a sample is sampled, its agreement count
rising or returning to 0, and nothing else happens (R1, R24, R25) but that marks of the model's own are set: longAgo on heads,
queue entries, gap timer and previous cut whose instant lies 2^31 ticks back (log entry 7, DEDUCED), and everSampled on a line
that is sampled (log entry 24, DESIGN CHOICE). That a third disagreeing sample leaves the count at 2 and the line due is the
model's way to make its transition an event of its own (log entry 4, DESIGN CHOICE), and that a tick does nothing else also where
a timer has expired and its event is still to come is the model's choice (log entry 3, DESIGN CHOICE). -/
def Obligations.TickSamplesEveryDueLine : Prop :=
  ∀ (raw : BitVec 256) (s : State), ∃ now lines heads queues timer previous, now = s.clock + 1 ∧
    exec (.ladderClockTick raw) s =
      .next { s with
        clock := now, raw := raw, lines := lines, heads := heads,
        yard := { s.yard with queues := queues,
                              crest := { s.yard.crest with timer := timer, previous := previous } } } ∧
    (∀ h, Table.look heads h =
      { Table.look s.heads h with
          longAgo := (Table.look s.heads h).longAgo ||
            (sequenceStates.contains (Table.look s.heads h).state && longAgoAt now (Table.look s.heads h).first) }) ∧
    (∀ q, Table.look queues q =
      (s.yard.queueOf q).map (fun x => { x with longAgo := x.longAgo || longAgoAt now x.instant })) ∧
    timer = s.yard.crest.timer.map (fun g => { g with longAgo := g.longAgo || longAgoAt now g.origin }) ∧
    previous = s.yard.crest.previous.map (fun p => { p with longAgo := p.longAgo || longAgoAt now p.instant }) ∧
    ∀ i, ∃ l m, Table.look s.lines i = l ∧ Table.look lines i = m ∧ m.role = l.role ∧ m.active = l.active ∧
      m.cls = l.cls ∧ m.filtered = l.filtered ∧
      (if l.role = .unused ∨ (l.cls = .slow ∧ now.toNat % 80 ≠ 0) then m = l
       else m.sampled = rawLevel raw i ∧ m.everSampled = true ∧
        (if (rawLevel raw i == l.active) = l.filtered then m.agreement = 0 ∧ m.due = false
         else if l.agreement < 2 then m.agreement = l.agreement + 1 ∧ m.due = false
         else m.agreement = l.agreement ∧ m.due = true))

/-- FILTERED_TRANSITION: a due line's filtered level takes the new level and its agreement count returns to 0, together
with every other due line of the same head, point or line condition; no other line changes, no head but the consumer's
(R25, R27, R29). That one event takes every due line of the consumer, whatever the instants of their third samples, is the
model's choice (log entry 4, DESIGN CHOICE). -/
def Obligations.FilteredTransitionTakesDueLines : Prop :=
  ∀ (line : LineIx) (s : State), (Table.look s.lines line).due = true → (Table.look s.lines line).role ≠ .unused →
    ∃ t, exec (.filteredTransition line) s = .next t ∧ t.clock = s.clock ∧ t.ladder = s.ladder ∧ t.link = s.link ∧
      (∀ i, Table.look t.lines i =
        if (Table.look s.lines i).due = true ∧
            (Table.look s.lines i).role.consumer = (Table.look s.lines line).role.consumer then
          { Table.look s.lines i with filtered := !(Table.look s.lines i).filtered, agreement := 0, due := false }
        else Table.look s.lines i) ∧
      (∀ h, (Table.look s.lines line).role.consumer ≠ .head h → Table.look t.heads h = Table.look s.heads h)

/-- The single transitions of R33 in their order: a head that is IDLE at the first of the four transitions of a downhill
or an uphill axle delivers, at the last, one passage with the first activation's instant and the clamped interval, and is
IDLE again (R33, R35). The other transitions: the faults of R33 (R36), the coincident changes (R34), the heads that wait or do
not follow (R32). FILTERED_TRANSITION of a due sensor line makes this change in its head, and hands the yard what the change
delivers: a passage, a fault, or nothing (R27, R35, R36, R54). That one event takes both due
sensors of a head as one coincident change at the present instant, whatever the instants of their third samples, is the model's
choice (log entry 4, DESIGN CHOICE), the marks longAgo of heads and passages are the model's (log entry 7, DEDUCED), and that a
head fault's one cause stands in every adjoining section, also in one that the other's cascade could reach first, is the model's
choice (log entry 15, DESIGN CHOICE). -/
def Obligations.FourTransitionsDeliverOnePassage : Prop :=
  SingleFaults ∧ CoincidentChanges ∧ UnfollowedHeads ∧ SingleChanges ∧ HeadFaultDisturbs ∧
  (∀ (line : LineIx) (k : HeadIx) (s : State), (Table.look s.lines line).due = true →
    (Table.look s.lines line).role = .sensorA k ∨ (Table.look s.lines line).role = .sensorB k →
    ∃ t event, exec (.filteredTransition line) s = .next t ∧
      (Table.look s.heads k).change (roleDue s.lines (.sensorA k)) (roleDue s.lines (.sensorB k))
        (roleLevel t.lines (.sensorA k)) (roleLevel t.lines (.sensorB k)) s.clock = (Table.look t.heads k, event) ∧
      (event = .nothing → SettledFrom { s with lines := t.lines, heads := t.heads } s.yard t) ∧
      (∀ pass, event = .passage pass →
        SettledFrom { s with lines := t.lines, heads := t.heads } (s.yard.deliver s.env k pass) t) ∧
      (event = .fault → SettledFrom { s with lines := t.lines, heads := t.heads } (s.yard.headFault s.env k) t)) ∧
  ∀ (h : Head) (t1 t2 t3 t4 : Instant) (dir : Direction), h.state = .idle →
    ∃ (first second : Sensor) (a b c d : Head),
      (dir = .downhill → first = .A ∧ second = .B) ∧ (dir = .uphill → first = .B ∧ second = .A) ∧
      h.single first true t1 = (a, .nothing) ∧ a.single second true t2 = (b, .nothing) ∧
      b.single first false t3 = (c, .nothing) ∧
      c.single second false t4 =
        (d, .passage { direction := dir, instant := t1, interval := min (max (t2 - t1).toNat 1) 65535,
                       longAgo := false }) ∧
      d.state = .idle ∧ d.condition = h.condition ∧ d.timer = none ∧
      b.timer = some (t2 + 20000#32) ∧ c.timer = none

/-- From s to t the stop condition has been judged on the lines after an event: the flag follows it, and where it becomes ACTIVE
STOP_INPUT is entered as the mode requires (R28, R169). -/
def StopJudged (s t : State) (on : Bool) : Prop :=
  (on = s.yard.control.stopFlag → SettledFrom { s with lines := t.lines } s.yard t) ∧
  (on = false → s.yard.control.stopFlag = true →
    SettledFrom { s with lines := t.lines }
      { s.yard with control := { s.yard.control with stopFlag := false } } t) ∧
  (on = true → s.yard.control.stopFlag = false →
    (s.mode = .setup ∨ s.mode = .standby → SettledFrom { s with lines := t.lines }
      { s.yard with control := { s.yard.control with stopFlag := true } } t) ∧
    (s.mode = .halted → SettledFrom { s with lines := t.lines }
      { s.yard with control := { s.yard.control with
          stopFlag := true, halt := s.yard.control.halt ||| reasonBit 2 } } t) ∧
    (s.mode = .humping → SettledFrom { s with lines := t.lines }
      { s.yard with
          control := { s.yard.control with
            stopFlag := true, halt := s.yard.control.halt ||| reasonBit 2, mode := .halted },
          notices := { s.yard.notices with device := s.yard.notices.device ||| reasonBit 1 } } t))

/-- FILTERED_TRANSITION of a STOP line in every mode, as it becomes ACTIVE and as it becomes INACTIVE: the condition is ACTIVE
while some STOP line is, and the flag follows it. In HUMPING its activation adds STOP_INPUT to the halt-cause set, makes the mode
HALTED, raises HALTED and de-asserts PERMIT; in HALTED it joins the set and raises nothing; in STANDBY and SETUP nothing is
recorded but the flag. Its end changes the flag alone (R28, R169, R171). That one event takes every due STOP line, whatever the
instants of their third samples, is the model's choice (log entry 4, DESIGN CHOICE). -/
def Obligations.StopLineHaltsHump : Prop :=
  (∀ (line : LineIx) (s : State), (Table.look s.lines line).due = true → (Table.look s.lines line).role = .stop →
    ∃ t on, exec (.filteredTransition line) s = .next t ∧ t.lines = takeDue s.lines .stop ∧
      (on = true ↔ ∃ i, (Table.look t.lines i).role = .stop ∧ (Table.look t.lines i).filtered = true) ∧
      StopJudged s t on) ∧
  ∀ (line : LineIx) (s : State), (Table.look s.lines line).due = true → (Table.look s.lines line).role = .stop →
    (Table.look s.lines line).filtered = false → s.mode = .humping → s.yard.control.stopFlag = false →
    ∃ t, exec (.filteredTransition line) s = .next t ∧ t.mode = .halted ∧ t.yard.control.stopFlag = true ∧
      t.yard.control.halt = s.yard.control.halt ||| reasonBit 2 ∧ Raised t.yard .device 1 ∧
      t.yard.control.permit = false ∧ t.yard.slots = s.yard.slots ∧ t.yard.points = s.yard.points ∧
      t.yard.drive = s.yard.drive ∧ t.heads = s.heads

/-- FILTERED_TRANSITION of a freeze key that makes the freeze condition ACTIVE: the freeze flag follows, FREEZE_ON is
raised, and in HUMPING the mode becomes HALTED with FREEZE in the set and PERMIT de-asserted; no throw in flight is cut
(R29, R170). One that makes it INACTIVE ends freeze: the flag follows, FREEZE_OFF is raised, the mode stays, and outside SETUP
the arbiter grants again and every point with a queue is evaluated, while throws in flight go on (R146, R170). That the arbiter grants before
any point is evaluated is the model's order (log entry 14, DESIGN CHOICE), and that one event takes every due freeze key, whatever
the instants of their third samples, its choice (log entry 4, DESIGN CHOICE). -/
def Obligations.FreezeStartHaltsHump : Prop :=
  (∀ (line : LineIx) (k : Fin 4) (s : State), (Table.look s.lines line).due = true →
    (Table.look s.lines line).role = .freezeKey k → s.yard.control.freezeFlag = false →
    freezeCondition (takeDue s.lines .freeze) = true →
    ∃ t, exec (.filteredTransition line) s = .next t ∧ t.yard.control.freezeFlag = true ∧ Raised t.yard .device 3 ∧
      t.yard.control.permit = false ∧ t.yard.points = s.yard.points ∧ t.yard.drive = s.yard.drive ∧
      t.yard.waiting = s.yard.waiting ∧
      (s.mode = .humping → t.mode = .halted ∧ t.yard.control.halt = s.yard.control.halt ||| reasonBit 6)) ∧
  ∀ (line : LineIx) (k : Fin 4) (s : State), (Table.look s.lines line).due = true →
    (Table.look s.lines line).role = .freezeKey k → s.yard.control.freezeFlag = true →
    freezeCondition (takeDue s.lines .freeze) = false →
    ∃ t, exec (.filteredTransition line) s = .next t ∧ t.yard.control.freezeFlag = false ∧ Raised t.yard .device 4 ∧
      t.mode = s.mode ∧ t.yard.control.halt = s.yard.control.halt ∧ t.yard.lead = s.yard.lead ∧
      t.yard.sections = s.yard.sections ∧ t.yard.queues = s.yard.queues ∧ t.heads = s.heads ∧
      (s.mode = .setup →
        t.yard.points = s.yard.points ∧ t.yard.waiting = s.yard.waiting ∧ t.yard.plans = s.yard.plans) ∧
      (s.mode ≠ .setup →
        (∀ p x, s.yard.pointOf p = some x → x.state.inMotion = true → t.yard.pointOf p = some x) ∧
        (∀ q i r, s.yard.queueHead q = some i → s.yard.planOf q = some r →
          (t.yard.planOf q).map (fun a => a.head) = some (some i)) ∧
        ∀ w rest x m cfg, s.yard.waiting = w :: rest → s.yard.slotsInUse < s.ladder.consts.slots →
          s.yard.pointOf w.point = some x → x.state.lie = some m → x.barred = false →
          s.yard.sectionClear (.point w.point) = true → s.ladder.config w.point = some cfg →
          (∀ d i, w.claim = .deadline d i → laterThan s.clock d = false) →
          t.yard.pointOf w.point =
            some { x with
              state := .moving w.target m (s.clock + BitVec.ofNat 32 (10 * cfg.tThrow)) w.claim.kind })

/-- FILTERED_TRANSITION of a detection line that proves the target of a MOVING point completes the throw: the point is
PROVED, its drive lines are de-energised and its slot is freed, the arbiter acts, and the planner evaluates the point (R127, R135,
R146); where the point has no queue and no entry, nothing is planned for it. The other rows of R127: a point at rest whose detection is unproved or proves the
other leg is LOST (R128), a RETURNING point that proves its origin is FAULTY and frees its slot (R136), and in every other row
the levels are stored alone. That one event takes both lines of the point, whatever the instants of their third samples, is the
model's choice (log entry 4, DESIGN CHOICE). -/
def Obligations.ProofOfTargetCompletesThrow : Prop :=
  DetectionRows ∧ ThrowCompletion ∧
  ∀ (line : LineIx) (p : PointIx) (s : State) (x : Point) (target origin : Leg) (expiry : Instant) (kind : ThrowKind),
    (Table.look s.lines line).due = true →
    (Table.look s.lines line).role = .detectN p ∨ (Table.look s.lines line).role = .detectR p →
    provedLeg (roleLevel (takeDue s.lines (.point p)) (.detectN p)) (roleLevel (takeDue s.lines (.point p)) (.detectR p)) =
      some target →
    s.yard.pointOf p = some x → x.state = .moving target origin expiry kind → s.yard.queueOf p = [] →
    s.yard.waitingOf p = none →
    ∃ t, exec (.filteredTransition line) s = .next t ∧ t.yard.pointStateOf p = some (.proved target) ∧
      (∀ l, Table.look t.yard.drive (driveLine p l) = false) ∧
      ((t.yard.pointOf p).map (fun z => z.barred)) = some x.barred ∧
      (s.yard.waiting = [] → t.yard.slotsInUse = s.yard.slotsInUse - 1) ∧ t.heads = s.heads ∧
      t.yard.control.mode = s.yard.control.mode

/-- BOTH_ACTIVE_TIMER_EXPIRY: the head becomes FAULTY and HELD with the fault's instant and state, and every section
adjoining it is DISTURBED, with cause HEAD_FAULT where it was not DISTURBED before (R36, R54). An uphill passage makes the
sections adjoining its head DISTURBED with cause ROLLBACK, and one axle moves from the raw count below to the one above (R53).
That the one cause stands in every adjoining section, also in one that the other's cascade could reach first, is the model's
choice (log entry 15, DESIGN CHOICE). -/
def Obligations.BothActiveExpiryFaultsHead : Prop :=
  (∀ (e : Env) (y : Yard) (h : HeadIx) (pass : Passage) (sid : SectionId) (x : Section), pass.direction = .uphill →
    y.sectionOf sid = some x →
    ∃ z, y.deliver e h pass = z ∧
      (e.ladder.sectionAbove h = some sid → e.ladder.below h ≠ .area sid →
        (x.state ≠ .disturbed → BecameDisturbed y z sid x .rollback (min (x.count + 1) 255)) ∧
        (x.state = .disturbed → ∃ x', z.sectionOf sid = some x' ∧ x'.state = .disturbed ∧ x'.cause = x.cause ∧
          x'.count = min (x.count + 1) 255)) ∧
      (e.ladder.below h = .area sid → e.ladder.sectionAbove h ≠ some sid →
        (x.state ≠ .disturbed → BecameDisturbed y z sid x .rollback (x.count - 1)) ∧
        (x.state = .disturbed → ∃ x', z.sectionOf sid = some x' ∧ x'.state = .disturbed ∧ x'.cause = x.cause ∧
          x'.count = x.count - 1))) ∧
  ∀ (h : HeadIx) (s : State) (d : Instant),
    (Table.look s.heads h).timer = some d → (Table.look s.heads h).state.timed = true → atOrAfter s.clock d = true →
    ∃ t, exec (.bothActiveTimerExpiry h) s = .next t ∧
      (Table.look t.heads h).state = .held ∧ (Table.look t.heads h).condition = .faulty ∧
      (Table.look t.heads h).timer = none ∧
      (Table.look t.heads h).fault = some { instant := s.clock, state := (Table.look s.heads h).state } ∧
      (Table.look t.heads h).last = (Table.look s.heads h).last ∧
      (∀ k, k ≠ h → Table.look t.heads k = Table.look s.heads k) ∧
      ∀ sid, sid ∈ s.ladder.adjoining h → ∀ x, s.yard.sectionOf sid = some x →
        ∃ z, t.yard.sectionOf sid = some z ∧ z.state = .disturbed ∧ z.count = x.count ∧
          (x.state ≠ .disturbed → z.cause = some .headFault ∧ z.occupants = [] ∧ z.stallTimer = none ∧
            z.stallFlag = false)

/-! ## Sections, cuts, crest -/

/-- STALL_TIMER_EXPIRY: the stall flag is set, the timer stops, STALL is raised, the stall count rises; a first stall
halts a hump (R61, R163, R169). -/
def Obligations.StallExpirySetsFlag : Prop :=
  ∀ (sid : SectionId) (s : State) (x : Section) (d : Instant), s.yard.sectionOf sid = some x → x.stallTimer = some d →
    atOrAfter s.clock d = true →
    ∃ t, exec (.stallTimerExpiry sid) s = .next t ∧
      t.yard.sectionOf sid = some { x with stallTimer := none, stallFlag := true } ∧
      Raised t.yard (sectionNotice sid) (stallReason sid) ∧ t.yard.control.stall = s.yard.control.stall + 1 ∧
      OnlySection s.yard t.yard sid ∧
      (s.mode = .humping ∧ s.yard.control.stall = 0 → t.mode = .halted ∧
        t.yard.control.halt = s.yard.control.halt ||| reasonBit 5 ∧ Raised t.yard .device 1) ∧
      (s.mode ≠ .humping ∨ s.yard.control.stall ≠ 0 → t.mode = s.mode)

/-- A cut that becomes LOST: its state is LOST and its LOST reason raised, and no track's fill has changed (R57, R119). It
stands in no occupant list and, having stood in one at most, in no approach queue; every section not DISTURBED that listed it
is DISTURBED with cause LOST_CUT and the axle count it had, and the other cuts that section listed are LOST too (R55, R57); if
it was entering, the crest unit absorbs the rest of it (R98). Where it stood at the head of a queue, the cut behind it comes
to the planner (R42, R147). -/
def Obligations.LostCutIsMarkedAndFillKept : Prop :=
  ∀ (e : Env) (i : SlotIx) (y : Yard) (c : Cut), y.cutAt i = some c → c.onLadder = true →
    ∃ w z, y.loseCut e i = w ∧ w.cutAt i = some z ∧ z.state = .lost ∧ z.number = c.number ∧ z.dest = c.dest ∧
      z.axles = c.axles ∧ Raised w (.cut i) 2 ∧ (∀ t, (w.trackOf t).fill = (y.trackOf t).fill) ∧
      (∀ sid x, w.sectionOf sid = some x → ∀ o ∈ x.occupants, o.slot ≠ i) ∧
      ((∀ q r, (∃ a ∈ y.queueOf q, a.slot = i) → (∃ a ∈ y.queueOf r, a.slot = i) → q = r) →
        ∀ q, ∀ a ∈ w.queueOf q, a.slot ≠ i) ∧
      (∀ sid x, y.sectionOf sid = some x → x.state ≠ .disturbed → (∃ o ∈ x.occupants, o.slot = i) →
        BecameDisturbed y w sid x .lostCut x.count) ∧
      ((∀ sid x, y.sectionOf sid = some x → ∀ o ∈ x.occupants, o.slot ≠ i) →
        ∀ q a h rest, y.queueOf q = a :: h :: rest → a.slot = i → (∀ b ∈ h :: rest, b.slot ≠ i) →
          (∀ r, r ≠ q → ∀ b ∈ y.queueOf r, b.slot ≠ i) →
          w.queueOf q = h :: rest ∧ ∀ pl, y.planOf q = some pl →
            (w.planOf q).map (fun b => b.head) = some (some h.slot)) ∧
      ∀ x, y.crest.state = .entering i x → w.crest.state = .absorbing (some i) x

/-- The entries of an occupant list that a short cut with a new axle count leaves standing (R59). -/
def keptBy (i : SlotIx) (count : Nat) (l : List Occupant) : List Occupant :=
  l.filter (fun o => !(o.slot == i && o.exited == count))

/-- The re-examination of a cut with a new axle count, from s to t, in every section: its entries with as many exits leave their
lists, and a section they empty becomes CLEAR (R41, R59). -/
def Reexamined (s t : State) (i : SlotIx) (count : Nat) : Prop :=
  ∀ sid x, s.yard.sectionOf sid = some x →
    (keptBy i count x.occupants = x.occupants → t.yard.sectionOf sid = some x) ∧
    (keptBy i count x.occupants ≠ x.occupants →
      (keptBy i count x.occupants ≠ [] →
        t.yard.sectionOf sid =
          some { x with occupants := keptBy i count x.occupants, count := axlesIn (keptBy i count x.occupants) }) ∧
      (keptBy i count x.occupants = [] →
        t.yard.sectionOf sid =
          some { x with state := .clear, occupants := [], count := 0, stallTimer := none, stallFlag := false }))

/-- A short cut that clears the section of one point and leaves every other section as it is has that point evaluated for the
queue it has (R41, R146); the cut has not all its axles in its track. -/
def ShortCutTells (s t : State) (i : SlotIx) (c : Cut) (z : Started) : Prop :=
  ∀ q x, s.yard.sectionOf (.point q) = some x → keptBy i z.crestAxles x.occupants ≠ x.occupants →
    keptBy i z.crestAxles x.occupants = [] → z.inTrack ≠ z.crestAxles →
    (∀ sid y, sid ≠ .point q → s.yard.sectionOf sid = some y → keptBy i z.crestAxles y.occupants = y.occupants) →
    ∃ w v : Yard, w.evaluate s.env q = v ∧ w.queues = s.yard.queues ∧ w.points = s.yard.points ∧ w.plans = s.yard.plans ∧
      w.waiting = s.yard.waiting ∧ w.slotsInUse = s.yard.slotsInUse ∧ w.drive = s.yard.drive ∧
      w.control.freezeFlag = s.yard.control.freezeFlag ∧
      (∀ sid, w.sectionOf sid = t.yard.sectionOf sid) ∧
      w.slots = Table.put s.yard.slots i
        (some (.cut { c with axles := z.crestAxles, state := .rolling, started := some { z with short := some c.axles } })) ∧
      t.yard.points = v.points ∧ t.yard.plans = v.plans ∧ t.yard.waiting = v.waiting ∧ t.yard.tracks = v.tracks ∧
      t.yard.slotsInUse = v.slotsInUse ∧ t.yard.drive = v.drive ∧ ∀ j, t.yard.cutAt j = v.cutAt j

/-- SHORT_CUT: the entering cut's axle count becomes the axles counted, its short note the old count, SHORT is raised, and
the cut leaves ENTERING: the crest is IDLE with the cut as previous cut (R93, R97). It is re-examined in every section it stands
in: its entries whose exits equal the new count leave their lists, an emptied section becomes CLEAR, and the planner is told
(R41, R59, R146). The cut is ARRIVED, the new count added to its track's fill, where its axles in track equal the new count, and
ROLLING otherwise (R51, R59, R118); its place in a queue stands. The reserved count of its track falls by the difference of the
two counts (R97), which is said where no section becomes CLEAR and the cut does not arrive. The gap timer's marks are the model's
(log entries 7 and 8, DEDUCED). -/
def Obligations.ShortCutReducesEnteringCut : Prop :=
  ∀ (s : State) (i : SlotIx) (x : Entry) (g : GapTimer) (c : Cut) (z : Started),
    s.yard.crest.state = .entering i x → s.yard.crest.timer = some g → atOrAfter s.clock g.expiry = true ∨ g.longAgo = true →
    s.yard.cutAt i = some c → c.state = .entering → c.started = some z →
    ∃ t c' z', exec .shortCut s = .next t ∧ t.yard.crest.state = .idle ∧ t.yard.crest.timer = none ∧
      t.yard.crest.previous = some { slot := i, number := x.number, instant := g.origin, longAgo := g.longAgo } ∧
      t.yard.crest.nextOrder = s.yard.crest.nextOrder ∧ t.yard.cutAt i = some c' ∧ c'.started = some z' ∧
      c'.number = c.number ∧ c'.axles = z.crestAxles ∧ z'.short = some c.axles ∧ z'.order = z.order ∧
      (c'.state = .rolling ∨ c'.state = .arrived) ∧ Raised t.yard (.cut i) 6 ∧ t.yard.pendingList = s.yard.pendingList ∧
      t.heads = s.heads ∧ t.lines = s.lines ∧
      t.yard.queues = s.yard.queues ∧ Reexamined s t i z.crestAxles ∧ ShortCutTells s t i c z ∧
      z'.inTrack = z.inTrack ∧ z'.crestAxles = z.crestAxles ∧
      (z.inTrack = z.crestAxles → c'.state = .arrived ∧ c'.actual = some z'.resolved ∧ Raised t.yard (.cut i) 1 ∧
        ∀ k, (t.yard.trackOf k).fill =
          if k = z'.resolved then min ((s.yard.trackOf k).fill + z.crestAxles) 65535 else (s.yard.trackOf k).fill) ∧
      (z.inTrack ≠ z.crestAxles → c'.state = .rolling ∧
        (∀ k, (t.yard.trackOf k).fill = (s.yard.trackOf k).fill) ∧
        ((∀ sid y, s.yard.sectionOf sid = some y → keptBy i z.crestAxles y.occupants = y.occupants) →
          z.crestAxles ≤ c.axles → c.axles ≤ (s.yard.trackOf z.resolved).reserved →
          z' = { z with short := some c.axles } ∧ t.yard.plans = s.yard.plans ∧ t.yard.points = s.yard.points ∧
          ∀ k, t.yard.trackOf k =
            { s.yard.trackOf k with
                reserved := (s.yard.trackOf k).reserved - (if k = z.resolved then c.axles - z.crestAxles else 0) }))

/-- ABSORPTION_END: the crest becomes IDLE with no entering and no previous cut, and the head of the list is judged
(R100, R102). That a gap timer started from an instant 2^31 ticks ago has expired, by its mark longAgo, is the model's reading
(log entry 7, DEDUCED). -/
def Obligations.AbsorptionEndsOnExpiry : Prop :=
  ∀ (s : State) (slot : Option SlotIx) (x : Entry) (g : GapTimer), s.yard.crest.state = .absorbing slot x →
    s.yard.crest.timer = some g → atOrAfter s.clock g.expiry = true ∨ g.longAgo = true →
    exec .absorptionEnd s =
      .next (s.withYard ({ s.yard with
        crest := { state := .idle, timer := none, previous := none, nextOrder := s.yard.crest.nextOrder } } :
          Yard).judgeMarker)

/-- A PENDING marker at the head of the list becomes REACHED and raises HOLD_REACHED exactly while the crest is IDLE; any
other head leaves the yard as it is (R102). -/
def Obligations.MarkerIsReachedWithIdleCrest : Prop :=
  ∀ (y : Yard) (i : SlotIx) (rest : List SlotIx), y.pendingList = i :: rest →
    (∀ n, Table.look y.slots i = some (.hold n false) → y.crest.state = .idle →
      y.judgeMarker = (y.putSlot i (some (.hold n true))).raise .device 2) ∧
    (y.crest.state ≠ .idle → y.judgeMarker = y) ∧
    ((∀ n, Table.look y.slots i ≠ some (.hold n false)) → y.judgeMarker = y)

/-- The crest unit starts the PENDING cut at the head of the list at a downhill crest axle in HUMPING and HALTED with the
lead not DISTURBED: the list loses its head, the cut is ENTERING with 1 crest axle counted and the first free hump order, the
crest enters it with tally 1 of its axle count and the gap timer running from the passage's instant (R89, R90, R92, R94). It is
listed in the lead and stands at the tail of the root's queue with the passage's instant and interval (R52). Its coupled note,
track, route and reservation are those of R95 and R96 where it is coupled, and of its resolution otherwise (R92, R113, R116);
a cut that the root then diverts in the same event (R151) is not spoken of in that clause. Where the root's queue was empty, what
stands after the event is what the evaluation of the root makes of the started cut (R42, R92, R146). Into a DISTURBED or full lead the
cut starts LOST (R52, R98). The other axles at C: a further one of the entering cut, with the leaving of ENTERING by count
(R91, R93), one of a lost cut (R99, R100), an unlisted one (R101), and the crest unit's part of an uphill passage (R103). The
origin of the gap timer (log entry 8, DEDUCED), the marks longAgo of timer, queue entry and previous cut (log entry 7, DEDUCED),
and the end of an absorption by the very axle that loses the cut (log entry 17, DEDUCED) are the model's. -/
def Obligations.HeadCutStartsAtCrestAxle : Prop :=
  StartIntoLostLead ∧ FurtherCrestAxle ∧ AbsorbedAxle ∧ UnlistedCrestAxle ∧ UphillAtCrest ∧
  ∀ (s : State) (pass : Passage) (i : SlotIx) (rest : List SlotIx) (c : Cut),
    pass.direction = .downhill → s.yard.crest.state = .idle → s.mode = .humping ∨ s.mode = .halted →
    s.yard.pendingList = i :: rest → s.yard.cutAt i = some c → c.state = .pending →
    (∀ x, s.yard.lead = some x → x.state ≠ .disturbed ∧ x.count < 255) →
    ∃ y c' z, s.yard.deliver s.env crestHead pass = y ∧ y.pendingList = rest ∧ y.cutAt i = some c' ∧
      c'.state = .entering ∧ c'.started = some z ∧ c'.number = c.number ∧ c'.dest = c.dest ∧ c'.axles = c.axles ∧
      z.crestAxles = 1 ∧ z.progress = 0 ∧ z.inTrack = 0 ∧ z.hazard = false ∧ z.short = none ∧
      z.order = s.yard.freeOrder 65 s.yard.crest.nextOrder ∧
      y.crest.state = .entering i { number := c.number, tally := 1, target := c.axles } ∧
      y.crest.timer = some { origin := pass.instant,
                             expiry := pass.instant + BitVec.ofNat 32 (10 * s.ladder.consts.gIn),
                             longAgo := pass.longAgo } ∧
      y.crest.nextOrder = z.order + 1 ∧ y.crest.previous = s.yard.crest.previous ∧
      (∀ x, s.yard.lead = some x → y.lead =
        some { x with state := .occupied, count := axlesIn x.occupants + 1,
                      occupants := x.occupants ++ [{ slot := i, entered := 1, exited := 0 }],
                      stallTimer := if x.state = .clear then some (s.clock + BitVec.ofNat 32 (10000 * x.stallLimit))
                        else x.stallTimer }) ∧
      (∀ r, s.ladder.root = some r → y.queueOf r = s.yard.queueOf r ++
        [{ slot := i, instant := pass.instant, interval := pass.interval, longAgo := pass.longAgo }]) ∧
      (∀ r, s.ladder.root = some r → s.yard.queueOf r = [] →
        (∀ a, s.yard.waitingOf r = some a → a.claim ≠ .manual) →
        ∃ (w : Yard) (z0 : Started), { y with crest := w.crest } = w.evaluate s.env r ∧ w.queueOf r = y.queueOf r ∧
          w.cutAt i = some { c with state := .entering, started := some z0 } ∧ z0.progress = 0 ∧ z0.hazard = false ∧
          z0.diversions = [] ∧
          (∀ n p, CoupledTo s pass n p → z0.resolved = p.resolved ∧ z0.cause = none ∧ z0.route = p.route) ∧
          ((∀ n p, ¬ CoupledTo s pass n p) → (z0.resolved, z0.cause) = s.yard.resolution s.ladder c.dest c.axles ∧
            z0.route = s.ladder.routeOf z0.resolved) ∧
          (∀ k, w.trackOf k =
            { s.yard.trackOf k with
                reserved := (s.yard.trackOf k).reserved + (if k = z0.resolved then c.axles else 0) }) ∧
          w.points = s.yard.points ∧ w.sections = s.yard.sections ∧ w.plans = s.yard.plans ∧
          w.waiting = s.yard.waiting ∧ w.slotsInUse = s.yard.slotsInUse ∧ w.drive = s.yard.drive ∧
          w.control = s.yard.control ∧ ∀ j, j ≠ i → Table.look w.slots j = Table.look s.yard.slots j) ∧
      (∀ n p, CoupledTo s pass n p → z.coupled = some n ∧ Raised y (.cut i) 5) ∧
      ((∀ n p, ¬ CoupledTo s pass n p) → z.coupled = none) ∧
      ((∀ q, s.yard.queueHead q ≠ some i) → ∀ t cause route,
        (∀ n p, CoupledTo s pass n p → t = p.resolved ∧ cause = none ∧ route = p.route) →
        ((∀ n p, ¬ CoupledTo s pass n p) →
          (t, cause) = s.yard.resolution s.ladder c.dest c.axles ∧ route = s.ladder.routeOf t) →
        KeepsRoute s route →
        z.resolved = t ∧ z.cause = cause ∧ z.route = route ∧ z.diversions = [] ∧
          (s.yard.waiting = [] → ∀ k, y.trackOf k =
            { s.yard.trackOf k with
                reserved := (s.yard.trackOf k).reserved + (if k = t then c.axles else 0) }))

/-- The hump order given to a cut: the first value from the next hump order on, counting modulo 2^32, that no live cut holds
(R89). -/
def Obligations.HumpOrderPassesOverHeldValues : Prop :=
  ∀ (y : Yard) (n : Word32), y.orderHeld (y.freeOrder 65 n) = false ∧
    ∀ k : Nat, k < ((y.freeOrder 65 n) - n).toNat → y.orderHeld (n + BitVec.ofNat 32 k) = true

/-! ## Point control and planning -/

/-- THROW_TIMEOUT: the drive toward the target is released and the drive toward the origin energised, the point is
RETURNING to its origin, the timer is set 10 × T_throw ticks after the expiry; the slot is kept (R136). That the point is RETURNING also where its
stored detection proves the origin already is the model's reading (log entry 29, DEDUCED). -/
def Obligations.ThrowTimeoutStartsReturn : Prop :=
  ∀ (p : PointIx) (s : State) (x : Point) (cfg : PointConfig) (target origin : Leg) (expiry : Instant) (kind : ThrowKind),
    s.yard.pointOf p = some x → x.state = .moving target origin expiry kind → s.ladder.config p = some cfg →
    atOrAfter s.clock expiry = true →
    ∃ t, exec (.throwTimeout p) s = .next t ∧
      t.yard.pointOf p =
        some { x with state := .returning origin (expiry + BitVec.ofNat 32 (10 * cfg.tThrow)) kind } ∧
      (∀ q, q ≠ p → t.yard.pointOf q = s.yard.pointOf q) ∧
      Table.look t.yard.drive (driveLine p origin) = true ∧
      Table.look t.yard.drive (driveLine p (otherLeg origin)) = false ∧
      (∀ q l, q ≠ p → Table.look t.yard.drive (driveLine q l) = Table.look s.yard.drive (driveLine q l)) ∧
      t.yard.slotsInUse = s.yard.slotsInUse ∧ t.yard.waiting = s.yard.waiting ∧ t.yard.plans = s.yard.plans ∧
      t.yard.slots = s.yard.slots ∧ t.yard.control.mode = s.yard.control.mode

/-- RETURN_FAILED: the point is LOST with cause RETURN_FAILED, both drive lines are released, it has no waiting entry, LOST
is raised and counted, and a first LOST point halts a hump (R128, R136, R169). -/
def Obligations.FailedReturnLosesPoint : Prop :=
  ∀ (p : PointIx) (s : State) (x : Point) (origin : Leg) (expiry : Instant) (kind : ThrowKind),
    s.yard.pointOf p = some x → x.state = .returning origin expiry kind → atOrAfter s.clock expiry = true →
    ∃ t, exec (.returnFailed p) s = .next t ∧ t.yard.pointOf p = some { x with state := .lost .returnFailed } ∧
      (∀ l, Table.look t.yard.drive (driveLine p l) = false) ∧ t.yard.waitingOf p = none ∧ Raised t.yard (.point p) 1 ∧
      t.yard.control.lost = s.yard.control.lost + 1 ∧
      (s.mode = .humping ∧ s.yard.control.lost = 0 → t.mode = .halted ∧
        t.yard.control.halt = s.yard.control.halt ||| reasonBit 4) ∧
      t.yard.lead = s.yard.lead ∧ t.yard.sections = s.yard.sections ∧ t.yard.queues = s.yard.queues ∧
      t.yard.crest = s.yard.crest

/-- DEADLINE_EXPIRY: the entry leaves the list, and the cut at the head of the point's queue is diverted into the leg the
point lies in, bound by that leg's fallback track and its route, with the cause FROZEN under freeze and LATE otherwise and at
most one entry for the point in its list; DIVERTED is raised and the planning state is DIVERTED; with no entry behind, its
axles alone move between the reserved counts (R114, R115, R133, R150, R151, R154). -/
def Obligations.DeadlineExpiryDivertsHead : Prop :=
  ∀ (p : PointIx) (s : State) (w : Waiting) (d : Instant) (j : SlotIx), s.yard.waitingOf p = some w →
    w.claim = .deadline d j → laterThan s.clock d = true →
    ∃ t, exec (.deadlineExpiry p) s = .next t ∧ t.yard.waitingOf p = none ∧
      t.yard.lead = s.yard.lead ∧ t.yard.sections = s.yard.sections ∧ t.yard.queues = s.yard.queues ∧
      t.yard.control.mode = s.yard.control.mode ∧ t.yard.crest = s.yard.crest ∧
      ∀ (m : Leg) (i : SlotIx) (c : Cut) (x : Started) (f : TrackIx),
        s.yard.pointLie p = some m → s.yard.queueHead p = some i → s.yard.cutAt i = some c → c.onLadder = true →
        c.started = some x → s.ladder.fallback p m = some f →
        Raised t.yard (.cut i) 4 ∧
        (∀ r, s.yard.planOf p = some r → planned t.yard p = some (.diverted, some i, some m)) ∧
        ((∀ q, q ≠ p → s.yard.queueHead q ≠ some i) →
          t.yard.startedAt i =
            some (divertedTo s.ladder x p f (if s.yard.control.freezeFlag = true then .frozen else .late))) ∧
        (s.yard.waiting = [w] →
          AxlesMoved s.yard t.yard x.resolved f c.axles ∧ t.yard.points = s.yard.points ∧
          t.yard.drive = s.yard.drive ∧ t.yard.waiting = [])

/-- The throw test: v rounds up and is clamped to 100–15000, v' rounds up, T_arr rounds down, K and the deadline follow, and
the test passes exactly if the elapsed time rounded up is within K; 2^31 ticks are counted where as many or more have
elapsed (R143, R144, R145); for an entry less than 2^30 ticks old it passes exactly while its deadline has not passed (R133,
R149). The evaluation of a point takes the cases of R148 and R149 with the diversions of R151, also where the point's entry stands
in the waiting list already, and the entry check those of R152 and R153. The mark longAgo that tells the elapsed time of a queue
entry is the model's (log entry 7, DEDUCED), and so is the place of a new entry beside one whose deadline has passed (log entry
3, DESIGN CHOICE). -/
def Obligations.ThrowTestComputesMargin : Prop :=
  EvaluationCases ∧ EntryCheck ∧
  ∀ (k : Constants) (c : PointConfig) (q : QueueEntry) (now : Instant), 0 < q.interval →
    ∃ v v' arr : Nat, ∃ d e : Nat, ∃ m : Int,
      throwTest k c q now =
        { speed := v, allowed := v', arrival := arr, margin := m, deadline := q.instant + BitVec.ofInt 32 (10 * m),
          pass := decide ((e : Int) ≤ m), at_ := now } ∧
      100 ≤ v ∧ v ≤ 15000 ∧
      (100 < v → (v - 1) * q.interval < k.spacing * 10000) ∧ (v < 15000 → k.spacing * 10000 ≤ v * q.interval) ∧
      v * (100 + c.grade) ≤ v' * 100 ∧ v' * 100 < v * (100 + c.grade) + 100 ∧
      arr * v' ≤ c.dApp * 10000 ∧ c.dApp * 10000 < (arr + 1) * v' ∧
      m = arr - c.tThrow - k.guard ∧
      d = (if q.longAgo then 2 ^ 31 else min (now - q.instant).toNat (2 ^ 31)) ∧ d ≤ 10 * e ∧ 10 * e < d + 10 ∧
      (PointInRange c → ConstantsInRange k → q.longAgo = false → (now - q.instant).toNat < 2 ^ 30 →
        ((throwTest k c q now).pass = true ↔ laterThan now (throwTest k c q now).deadline = false))

/-- The arbiter grants an eligible first entry whose deadline has not passed while a slot is free: it leaves the list, a slot
is taken, the point is MOVING toward the entry's target from its lie with the timer 10 × T_throw ticks ahead, and the drive
line toward the target alone is energised; a DEADLINE entry's point is SET. The arbiter then goes on with the list behind it;
with no entry behind, nothing more happens. It does nothing without a free slot, under freeze, or at a first entry that is not
eligible, which it does not skip over (R132, R150). A first entry whose deadline has passed is removed, and the cut at the head
of its point's queue diverted with the cause LATE (R133, R151). The list keeps the order of R131 when an entry is placed. -/
def Obligations.ArbiterGrantsEligibleFirstEntry : Prop :=
  WaitingOrder ∧ ExpiredFirstEntry ∧
  (∀ (e : Env) (y : Yard), e.ladder.consts.slots ≤ y.slotsInUse ∨ y.control.freezeFlag = true → y.arbitrate e = y) ∧
  ∀ (e : Env) (y : Yard) (w : Waiting) (rest : List Waiting) (x : Point),
    y.waiting = w :: rest → y.slotsInUse < e.ladder.consts.slots → y.control.freezeFlag = false →
    y.pointOf w.point = some x → (∀ d i, w.claim = .deadline d i → laterThan e.now d = false) →
    (x.state.lie = none ∨ x.barred = true ∨ y.sectionState (.point w.point) ≠ some .clear → y.arbitrate e = y) ∧
    ∀ (cfg : PointConfig) (origin : Leg), x.state.lie = some origin → x.barred = false →
      y.sectionClear (.point w.point) = true → e.ladder.config w.point = some cfg →
      ∃ z, y.arbitrate e = z.arbitrate e ∧ z.waiting = rest ∧ z.slotsInUse = y.slotsInUse + 1 ∧
        z.pointOf w.point =
          some { x with state := .moving w.target origin (e.now + BitVec.ofNat 32 (10 * cfg.tThrow)) w.claim.kind } ∧
        (∀ l, Table.look z.drive (driveLine w.point l) = (l == w.target)) ∧
        (∀ q, q ≠ w.point → z.pointOf q = y.pointOf q ∧ z.planOf q = y.planOf q ∧
          ∀ l, Table.look z.drive (driveLine q l) = Table.look y.drive (driveLine q l)) ∧
        (∀ r, y.planOf w.point = some r → z.planOf w.point =
          some (match w.claim with
            | .deadline _ _ => { r with state := .set }
            | .manual => r)) ∧
        z.slots = y.slots ∧ z.tracks = y.tracks ∧ z.notices = y.notices ∧ z.queues = y.queues ∧
        z.control = y.control ∧ (rest = [] → y.arbitrate e = z)

/-! ## Destinations -/

/-- The lookup of a block code: the lowest-indexed valid entry that covers the code and names a track in use, else the
default track, else the reject track with NO_BLOCK (R111). -/
def Obligations.LookupTakesFirstCoveringEntry : Prop :=
  ∀ (y : Yard) (l : Ladder) (code : Byte),
    (∀ (i : Fin 32) (m : MapEntry), Table.look y.blockMap i = some m →
      code.toNat / 2 ^ m.span = m.code / 2 ^ m.span → l.trackInUse m.track = true →
      (∀ j, j < i → ∀ n, Table.look y.blockMap j = some n → code.toNat / 2 ^ n.span = n.code / 2 ^ n.span →
        l.trackInUse n.track = false) →
      y.lookup l code = (m.track, none)) ∧
    ((∀ (j : Fin 32) (n : MapEntry), Table.look y.blockMap j = some n →
      code.toNat / 2 ^ n.span = n.code / 2 ^ n.span → l.trackInUse n.track = false) →
      (∀ d, l.consts.defaultTrack = some d → y.lookup l code = (d, none)) ∧
      (∀ r, l.consts.defaultTrack = none → l.consts.reject = some r → y.lookup l code = (r, some .noBlock)))

/-- The resolution of a direct track in use: to the reject track with TRACK_CLOSED where the track is closed, with TRACK_FULL
where it is open but has no room, and to the track itself otherwise; the reject track itself passes both tests (R113). A block code
is resolved by closure and room at the track of its lookup, whose cause stands where both are passed (R111, R113). -/
def Obligations.DirectTrackResolvesByClosureAndRoom : Prop :=
  (∀ (y : Yard) (l : Ladder) (code : Byte) (t r : TrackIx) (cause : Option ResolutionCause) (axles : Nat),
    l.consts.reject = some r → y.lookup l code = (t, cause) →
    (t = r → y.resolution l (.block code) axles = (r, cause)) ∧
    (t ≠ r → y.covered l t = true → y.resolution l (.block code) axles = (r, some .trackClosed)) ∧
    (t ≠ r → y.covered l t = false → 0 < (y.trackOf t).capacity →
      (y.trackOf t).capacity < (y.trackOf t).fill + (y.trackOf t).reserved + axles →
      y.resolution l (.block code) axles = (r, some .trackFull)) ∧
    (t ≠ r → y.covered l t = false →
      ((y.trackOf t).capacity = 0 ∨ (y.trackOf t).fill + (y.trackOf t).reserved + axles ≤ (y.trackOf t).capacity) →
      y.resolution l (.block code) axles = (t, cause))) ∧
  ∀ (y : Yard) (l : Ladder) (t r : TrackIx) (axles : Nat), l.consts.reject = some r →
    (l.trackInUse t = false → y.resolution l (.track t) axles = (r, some .noBlock)) ∧
    (l.trackInUse t = true →
      (t = r → y.resolution l (.track t) axles = (r, none)) ∧
      (t ≠ r → y.covered l t = true → y.resolution l (.track t) axles = (r, some .trackClosed)) ∧
      (t ≠ r → y.covered l t = false → 0 < (y.trackOf t).capacity →
        (y.trackOf t).capacity < (y.trackOf t).fill + (y.trackOf t).reserved + axles →
        y.resolution l (.track t) axles = (r, some .trackFull)) ∧
      (t ≠ r → y.covered l t = false →
        ((y.trackOf t).capacity = 0 ∨ (y.trackOf t).fill + (y.trackOf t).reserved + axles ≤ (y.trackOf t).capacity) →
        y.resolution l (.track t) axles = (t, none)))

/-- The arrival of axles in a track: the fill rises to at most 65535, the reserved count falls, OVERFILL is raised exactly
where a track with a capacity that is not the reject track is left above it; no other track changes (R118). The passages that
lead there, each telling the planner of what it clears and brings to the head of a queue (R58, R146): the exit and the phantom
exit (R44, R45), the leg check (R46, R47), the entry of a leading axle (R48), of a further
axle, of an axle without a cut (R49, R50), and into a track (R51), in this order for each downhill passage. That an axle is
the leading one at a leg head where no axle of its entry has left before is the model's reading (log entry 21, DEDUCED), so is
that a leading axle leaves the queue before its entry is recorded and a new head is evaluated after it (log entry 20, DEDUCED),
and the marks longAgo of passages and queue entries are the model's (log entry 7, DEDUCED). -/
def Obligations.ArrivalAccountsFillAndOverfill : Prop :=
  ExitStep ∧ LegCheck ∧ LeadingEntry ∧ FurtherEntry ∧ TrackEntry ∧ DownhillPassage ∧
  ∀ (y : Yard) (l : Ladder) (t : TrackIx) (n : Nat),
    (y.account l t n).trackOf t =
      { capacity := (y.trackOf t).capacity, fill := min ((y.trackOf t).fill + n) 65535,
        reserved := (y.trackOf t).reserved - n } ∧
    (∀ u, u ≠ t → (y.account l t n).trackOf u = y.trackOf u) ∧
    (y.account l t n).notices =
      (if l.consts.reject ≠ some t ∧ 0 < (y.trackOf t).capacity ∧
          (y.trackOf t).capacity < min ((y.trackOf t).fill + n) 65535 then (y.raise (.track t) 1).notices
       else y.notices)

/-! ## Requests: configuration and modes -/

/-- SET POINT and SET YARD in SETUP replace the record of the point, or the yard constants; any other mode refuses them,
and in SETUP the first field out of range is named by BAD_VALUE (R8, R9, R11, R12). That the index
byte beside a target of kind none is not examined is the model's choice (log entry 34, DESIGN CHOICE). -/
def Obligations.ConfigurationRequestsReplaceRecords : Prop :=
  ∀ s : State,
    (s.mode = .setup →
      (∀ (p : PointIx) (c : PointConfig), PointInRange c →
        Answers (.setPoint (pointFields p c)) s ok
          { s with ladder := { s.ladder with points := Table.put s.ladder.points p (some c) } }) ∧
      (∀ (p : PointIx) (f : PointFields), f.point.toNat = p.val → f.inUse = 0 →
        Answers (.setPoint f) s ok
          { s with ladder := { s.ladder with points := Table.put s.ladder.points p none } }) ∧
      (∀ k : Constants, ConstantsInRange k →
        Answers (.setYard (yardFields k)) s ok { s with ladder := { s.ladder with consts := k } })) ∧
    (s.mode = .setup →
      (∀ (f : PointFields) (n : Nat), n ≤ 10 → (n ≤ 1 ∨ f.inUse = 1) → ¬ PointFieldInRange f n →
        (∀ m, m < n → PointFieldInRange f m) → Refuses (.setPoint f) s .badValue [BitVec.ofNat 8 n]) ∧
      (∀ (p : PointIx) (f : PointFields), f.point.toNat = p.val → f.inUse = 1 → (∀ n, PointFieldInRange f n) →
        ∃ c, PointInRange c ∧ Answers (.setPoint f) s ok
          { s with ladder := { s.ladder with points := Table.put s.ladder.points p (some c) } }) ∧
      ∀ (f : YardFields) (n : Nat), ¬ YardFieldInRange f n → (∀ m, m < n → YardFieldInRange f m) →
        Refuses (.setYard f) s .badValue [BitVec.ofNat 8 n]) ∧
    (s.mode ≠ .setup →
      (∀ f, Refuses (.setPoint f) s .badMode []) ∧ (∀ f, Refuses (.setYard f) s .badMode []))

/-- SET LINE in SETUP replaces the record of the line and restarts its filter from the present raw level; the stop and
freeze flags follow their conditions, and a change of the freeze flag is raised on the device notice (R23, R26, R28, R29,
R170). That the present raw level is the line's level at the most recent tick is the model's choice (log entry 36, DESIGN CHOICE).
The raw level of the most recent sample stays, and the mark that a sample has been taken: that SET LINE is no sample is the
model's choice (log entry 24, DESIGN CHOICE). In any other mode it is refused, and in SETUP the first field out of range is named by BAD_VALUE (R23). -/
def Obligations.SetLineRestartsFilter : Prop :=
  (∀ (s : State) (line kind index level cls : Byte),
    (s.mode ≠ .setup → Refuses (.setLine line kind index level cls) s .badMode []) ∧
    (s.mode = .setup → ∀ n : Nat, ¬ LineFieldInRange kind index level cls n →
      (∀ m, m < n → LineFieldInRange kind index level cls m) →
      Refuses (.setLine line kind index level cls) s .badValue [BitVec.ofNat 8 n])) ∧
  ∀ (s : State) (line kind index level cls : Byte) (role : Role) (a : Level) (c : FilterClass),
    s.mode = .setup → NamesRole kind index role →
    (level = 0 ∧ a = .high) ∨ (level = 1 ∧ a = .low) → (cls = 0 ∧ c = .fast) ∨ (cls = 1 ∧ c = .slow) →
    ∃ (i : LineIx) (lines : Table 256 Line) (t : State), i.val = line.toNat ∧
      lines = Table.put s.lines i
        { role := role, active := a, cls := c, filtered := role != .unused && rawLevel s.raw i == a, agreement := 0,
          sampled := (Table.look s.lines i).sampled, everSampled := (Table.look s.lines i).everSampled, due := false } ∧
      Answers (.setLine line kind index level cls) s ok t ∧
      SettledFrom { s with lines := lines }
        { s.yard with
            control := { s.yard.control with stopFlag := stopCondition lines, freezeFlag := freezeCondition lines },
            notices := { s.yard.notices with
              device :=
                if freezeCondition lines = s.yard.control.freezeFlag then s.yard.notices.device
                else s.yard.notices.device ||| reasonBit (if freezeCondition lines then 3 else 4) } } t

/-- COMMISSION in SETUP: a ladder that fails its checks is refused with the index and the reason of the first failure, stage
by stage (that a fallback track lies in a leg's subtree where its route holds the leg is the model's reading, log entry 27,
DEDUCED); a ladder that passes is created in STANDBY, every section DISTURBED with cause STARTUP, every point PROVED or LOST by its
present detection, every configured head IDLE or SETTLING, nothing planned or driven; the lines, the cut table, the tracks,
the map, the windows and the crest unit stand (R14, R31, R32, R39, R42, R126, R142, R164, R174). What the two checks demand
is said on its own (R15 to R21, R31). Any mode but SETUP refuses COMMISSION. -/
def Obligations.CommissionCreatesLadder : Prop :=
  LadderCheck ∧ LadderFailures ∧ LineCheck ∧
  (∀ s : State, s.mode ≠ .setup → Refuses .commission s .badMode []) ∧
  ∀ s : State, s.mode = .setup →
    (∀ n k, s.ladder.check = some (n, k) →
      Refuses .commission s .ladderInvalid [BitVec.ofNat 8 n, BitVec.ofNat 8 k]) ∧
    (∀ n k, s.ladder.check = none → s.ladder.checkLines s.lines = some (n, k) →
      Refuses .commission s .linesInvalid [BitVec.ofNat 8 n, BitVec.ofNat 8 k]) ∧
    (s.ladder.check = none → s.ladder.checkLines s.lines = none →
      ∃ t, Answers .commission s ok t ∧ t.PermitLaw ∧ t.AttnLaw ∧
        t = { s with heads := t.heads, yard := t.yard } ∧
        t.yard.slots = s.yard.slots ∧ t.yard.pendingList = s.yard.pendingList ∧ t.yard.crest = s.yard.crest ∧
        t.yard.tracks = s.yard.tracks ∧ t.yard.windows = s.yard.windows ∧ t.yard.blockMap = s.yard.blockMap ∧
        t.yard.slotsInUse = 0 ∧ t.yard.waiting = [] ∧ (∀ q, t.yard.queueOf q = []) ∧
        (∀ d, Table.look t.yard.drive d = false) ∧
        (∀ sid, t.yard.sectionOf sid =
          ((match sid with
           | .lead => some s.ladder.consts.leadStall
           | .point p => (s.ladder.config p).map PointConfig.stall) : Option Nat).map (fun n =>
            { state := .disturbed, count := 0, occupants := [], stallTimer := none, stallFlag := false, stallLimit := n,
              cause := some .startup })) ∧
        (∀ p, s.ladder.config p = none → t.yard.pointOf p = none ∧ t.yard.planOf p = none) ∧
        (∀ p c, s.ladder.config p = some c →
          t.yard.planOf p = some { state := .idle, head := none, needed := none, test := none } ∧
          ∃ x, t.yard.pointOf p = some x ∧ x.barred = false ∧ x.detectN = roleLevel s.lines (.detectN p) ∧
            x.detectR = roleLevel s.lines (.detectR p) ∧
            (x.detectN = true ∧ x.detectR = false → x.state = .proved .N) ∧
            (x.detectN = false ∧ x.detectR = true → x.state = .proved .R) ∧
            (x.detectN = x.detectR → x.state = .lost .startupUnproved ∧ Raised t.yard (.point p) 1)) ∧
        (∀ h, (Table.look t.heads h).condition = .ok ∧ (Table.look t.heads h).last = none ∧
          (s.ladder.headConfigured h = false → (Table.look t.heads h).state = .off) ∧
          (s.ladder.headConfigured h = true →
            (Table.look t.heads h).state =
              if roleLevel s.lines (.sensorA h) = false ∧ roleLevel s.lines (.sensorB h) = false then .idle
              else .settling)) ∧
        t.mode = .standby ∧ t.yard.control.halt = 0 ∧ t.yard.control.stall = 0 ∧
        t.yard.control.disturbed = ((List.finRange 40).filter (fun p => (s.ladder.config p).isSome)).length + 1 ∧
        t.yard.control.lost =
          ((List.finRange 40).filter (fun p => t.yard.pointStateOf p == some (.lost .startupUnproved))).length ∧
        t.yard.control.stopFlag = s.yard.control.stopFlag ∧ t.yard.control.freezeFlag = s.yard.control.freezeFlag)

/-- DECOMMISSION in STANDBY: refused with BUSY while a cut is on the ladder; otherwise the ladder is gone, every head is OFF,
every drive line de-energised, the crest unit IDLE with its next hump order kept, and the mode is SETUP; cuts, tracks, map,
windows and notices stand but for a marker at the head that the idle crest reaches (R32, R39, R88, R102, R126, R142,
R165, R174). Any mode but STANDBY refuses it. That a head that is OFF
holds no first instant and no gap is the model's choice (log entry 22, DESIGN CHOICE). -/
def Obligations.DecommissionRemovesLadder : Prop :=
  (∀ s : State, s.mode ≠ .standby → Refuses .decommission s .badMode []) ∧
  ∀ s : State, s.mode = .standby →
    (CutOnLadder s.yard → Refuses .decommission s .busy []) ∧
    (¬ CutOnLadder s.yard →
      ∃ (y : Yard) (t : State), Answers .decommission s ok t ∧ SettledFrom { s with heads := Table.fill 82 Head.off } y.judgeMarker t ∧
        (∀ sid, y.sectionOf sid = none) ∧ (∀ q, y.queueOf q = []) ∧ (∀ p, y.pointOf p = none) ∧
        (∀ p, y.planOf p = none) ∧ (∀ d, Table.look y.drive d = false) ∧ y.slotsInUse = 0 ∧ y.waiting = [] ∧
        y.crest = { state := .idle, timer := none, previous := none, nextOrder := s.yard.crest.nextOrder } ∧
        y.control = { s.yard.control with mode := .setup, halt := 0, disturbed := 0, lost := 0, stall := 0 } ∧
        y.slots = s.yard.slots ∧ y.pendingList = s.yard.pendingList ∧ y.tracks = s.yard.tracks ∧
        y.windows = s.yard.windows ∧ y.blockMap = s.yard.blockMap ∧ y.notices = s.yard.notices)

/-- START in STANDBY and RESUME in HALTED: the first live condition refuses with its number, and with none live the
halt-cause set is emptied and the mode is HUMPING. STOP adds STOP_REQUEST and halts a hump with HALTED raised. FINISH in
HUMPING and HALTED is refused with BUSY while a cut is on the ladder, and otherwise empties the set and makes the mode
STANDBY (R166, R167, R168, R169). -/
def Obligations.ModeRequestsChangeMode : Prop :=
  ∀ s : State,
    (∀ c : Instr, (c = .start ∧ s.mode = .standby) ∨ (c = .resume ∧ s.mode = .halted) →
      (s.yard.control.stopFlag = true → Refuses c s .notReady [2]) ∧
      (s.yard.control.stopFlag = false →
        (0 < s.yard.control.disturbed → Refuses c s .notReady [3]) ∧
        (s.yard.control.disturbed = 0 →
          (0 < s.yard.control.lost → Refuses c s .notReady [4]) ∧
          (s.yard.control.lost = 0 →
            (0 < s.yard.control.stall → Refuses c s .notReady [5]) ∧
            (s.yard.control.stall = 0 →
              (s.yard.control.freezeFlag = true → Refuses c s .notReady [6]) ∧
              (s.yard.control.freezeFlag = false →
                AnswersYard c s ok
                  { s.yard with control := { s.yard.control with mode := .humping, halt := 0 } })))))) ∧
    (s.mode = .humping →
      AnswersYard .stop s ok
        { s.yard with
            control := { s.yard.control with mode := .halted, halt := s.yard.control.halt ||| reasonBit 1 },
            notices := { s.yard.notices with device := s.yard.notices.device ||| reasonBit 1 } }) ∧
    (s.mode = .halted →
      AnswersYard .stop s ok
        { s.yard with control := { s.yard.control with halt := s.yard.control.halt ||| reasonBit 1 } }) ∧
    (s.mode = .humping ∨ s.mode = .halted →
      (CutOnLadder s.yard → Refuses .finish s .busy []) ∧
      (¬ CutOnLadder s.yard →
        AnswersYard .finish s ok { s.yard with control := { s.yard.control with mode := .standby, halt := 0 } })) ∧
    (s.mode ≠ .standby → Refuses .start s .badMode []) ∧ (s.mode ≠ .halted → Refuses .resume s .badMode []) ∧
    (s.mode = .setup ∨ s.mode = .standby → Refuses .stop s .badMode [] ∧ Refuses .finish s .badMode [])

/-! ## Requests: the cut table -/

/-- ENTER and HOLD make a record in the lowest free slot, with its notice clear, at the tail of the pending list, and
answer the slot; a marker that comes into an empty list with the crest IDLE is reached at once. A number already live is
refused with DUPLICATE and its slot, a full table with TABLE_FULL, and the first field out of range by its number: the
number, the destination (a direct track not in use while commissioned among them), the axle count (R71, R74, R75, R76, R102). -/
def Obligations.EnterAndHoldAppendRecord : Prop :=
  (∀ (s : State) (n : Word16) (kind value axles : Byte),
    (n = 0 → Refuses (.enter n kind value axles) s .badValue [1] ∧ Refuses (.hold n) s .badValue [1]) ∧
    (n ≠ 0 → ¬ DestinationInRange s kind value → Refuses (.enter n kind value axles) s .badValue [2]) ∧
    (n ≠ 0 → DestinationInRange s kind value → axles.toNat < 2 ∨ 120 < axles.toNat →
      Refuses (.enter n kind value axles) s .badValue [3])) ∧
  ∀ (s : State) (n : Word16), n ≠ 0 →
    (∀ (d : Destination) (axles : Byte), DestinationAccepted s d → 2 ≤ axles.toNat → axles.toNat ≤ 120 →
      (∀ i r, HoldsNumber s.yard n i r →
        Refuses (.enter n (destinationCode d).1 (destinationCode d).2 axles) s .duplicate [BitVec.ofNat 8 i.val]) ∧
      (NumberFree s.yard n →
        ((∀ i, Table.look s.yard.slots i ≠ none) →
          Refuses (.enter n (destinationCode d).1 (destinationCode d).2 axles) s .tableFull []) ∧
        (∀ i, LowestFree s.yard i →
          AnswersYard (.enter n (destinationCode d).1 (destinationCode d).2 axles) s (doneWith [BitVec.ofNat 8 i.val])
            { withFreshSlot s.yard i
                (some (.cut { number := n, dest := d, axles := axles.toNat, state := .pending, started := none,
                              actual := none })) with
              pendingList := s.yard.pendingList ++ [i] }))) ∧
    (∀ i r, HoldsNumber s.yard n i r → Refuses (.hold n) s .duplicate [BitVec.ofNat 8 i.val]) ∧
    (NumberFree s.yard n →
      ((∀ i, Table.look s.yard.slots i ≠ none) → Refuses (.hold n) s .tableFull []) ∧
      (∀ i, LowestFree s.yard i →
        (s.yard.pendingList = [] ∧ s.yard.crest.state = .idle →
          AnswersYard (.hold n) s (doneWith [BitVec.ofNat 8 i.val])
            ({ withFreshSlot s.yard i (some (.hold n true)) with pendingList := [i] }.raise .device 2)) ∧
        (s.yard.pendingList ≠ [] ∨ s.yard.crest.state ≠ .idle →
          AnswersYard (.hold n) s (doneWith [BitVec.ofNat 8 i.val])
            { withFreshSlot s.yard i (some (.hold n false)) with pendingList := s.yard.pendingList ++ [i] })))

/-- AMEND of a PENDING cut replaces the selected fields; a marker, an ARRIVED and a LOST cut refuse it with NOT_ALLOWED and
the slot, and so does a cut on the ladder whose axle count is selected, alone or with the destination (R77, R78). The first
selected field out of range is named by BAD_VALUE, a number of no live record refused with NO_RECORD (R66, R77). -/
def Obligations.AmendReplacesSelectedFields : Prop :=
  (∀ (s : State) (n : Word16) (selection kind value axles : Byte),
    (n = 0 → Refuses (.amend n selection kind value axles) s .badValue [1]) ∧
    (n ≠ 0 → selection.toNat = 0 ∨ 3 < selection.toNat →
      Refuses (.amend n selection kind value axles) s .badValue [2]) ∧
    (n ≠ 0 → selection = 1 ∨ selection = 3 → ¬ DestinationInRange s kind value →
      Refuses (.amend n selection kind value axles) s .badValue [3]) ∧
    (n ≠ 0 → selection = 2 ∨ (selection = 3 ∧ DestinationInRange s kind value) →
      axles.toNat < 2 ∨ 120 < axles.toNat → Refuses (.amend n selection kind value axles) s .badValue [4]) ∧
    (n ≠ 0 → 1 ≤ selection.toNat → selection.toNat ≤ 3 → (selection ≠ 2 → DestinationInRange s kind value) →
      (selection ≠ 1 → 2 ≤ axles.toNat ∧ axles.toNat ≤ 120) → NumberFree s.yard n →
      Refuses (.amend n selection kind value axles) s .noRecord [])) ∧
  ∀ (s : State) (n : Word16) (i : SlotIx) (r : Record) (d : Destination) (axles : Byte), n ≠ 0 →
    HoldsNumber s.yard n i r → DestinationAccepted s d → 2 ≤ axles.toNat → axles.toNat ≤ 120 →
    (∀ c, r = .cut c → c.state = .pending →
      (∀ a, AnswersYard (.amend n 1 (destinationCode d).1 (destinationCode d).2 a) s ok
        { s.yard with slots := Table.put s.yard.slots i (some (.cut { c with dest := d })) }) ∧
      (∀ k v, AnswersYard (.amend n 2 k v axles) s ok
        { s.yard with slots := Table.put s.yard.slots i (some (.cut { c with axles := axles.toNat })) }) ∧
      AnswersYard (.amend n 3 (destinationCode d).1 (destinationCode d).2 axles) s ok
        { s.yard with slots := Table.put s.yard.slots i (some (.cut { c with dest := d, axles := axles.toNat })) }) ∧
    ((∀ c, r = .cut c → c.state ≠ .pending) →
      (∀ k v, Refuses (.amend n 2 k v axles) s .notAllowed [BitVec.ofNat 8 i.val]) ∧
      Refuses (.amend n 3 (destinationCode d).1 (destinationCode d).2 axles) s .notAllowed [BitVec.ofNat 8 i.val]) ∧
    ((∀ c, r = .cut c → c.state = .arrived ∨ c.state = .lost) →
      ∀ a, Refuses (.amend n 1 (destinationCode d).1 (destinationCode d).2 a) s .notAllowed [BitVec.ofNat 8 i.val])

/-- AMEND of the destination of a cut on the ladder, to a track that its entered prefix leads to, that is not closed and has
room (its own axles not counted against a track it is bound for already): the answer names the resolved track after the
request, the destination is replaced, progress and axle counts stand. A cut already bound for the track keeps all else.
Otherwise REROUTED is raised, and a cut at no queue's head is bound for the new track by the new track's route, its axles
moved between the reserved counts; for a cut at the head of the queue of the point ahead, that point is evaluated with the new
route (R79, R80, R81, R114, R117, R156). A track that its prefix does not lead to is refused with
UNREACHABLE and the first point that differs, a closed one with CLOSED, one without room with FULL, in this order. -/
def Obligations.AmendReroutesCutOnLadder : Prop :=
  ∀ (s : State) (n : Word16) (i : SlotIx) (c : Cut) (x : Started) (d : Destination) (a : Byte) (t : TrackIx)
    (cause : Option ResolutionCause), n ≠ 0 → HoldsNumber s.yard n i (.cut c) →
    (c.state = .entering ∨ c.state = .rolling) → c.started = some x → DestinationAccepted s d →
    (∀ u, d = .track u → t = u ∧ cause = none) → (∀ code, d = .block code → (t, cause) = s.yard.lookup s.ladder code) →
    (∀ (k : Nat) (pr : Pair), k < x.progress → x.route[k]? = some pr → (s.ladder.routeOf t)[k]? ≠ some pr →
      (∀ m, m < k → (s.ladder.routeOf t)[m]? = x.route[m]?) →
      Refuses (.amend n 1 (destinationCode d).1 (destinationCode d).2 a) s .unreachable [BitVec.ofNat 8 pr.1.val]) ∧
    (x.route.take x.progress <+: s.ladder.routeOf t → s.yard.closed s.ladder t = true →
      Refuses (.amend n 1 (destinationCode d).1 (destinationCode d).2 a) s .closed [BitVec.ofNat 8 t.val]) ∧
    (x.route.take x.progress <+: s.ladder.routeOf t → s.yard.closed s.ladder t = false →
      s.ladder.consts.reject ≠ some t → (s.yard.trackOf t).capacity ≠ 0 →
      (s.yard.trackOf t).capacity <
        (s.yard.trackOf t).fill +
          ((s.yard.trackOf t).reserved - (if t = x.resolved then c.axles else 0)) + c.axles →
      Refuses (.amend n 1 (destinationCode d).1 (destinationCode d).2 a) s .full [BitVec.ofNat 8 t.val]) ∧
    (x.route.take x.progress <+: s.ladder.routeOf t → s.yard.closed s.ladder t = false →
    (s.ladder.consts.reject = some t ∨ (s.yard.trackOf t).capacity = 0 ∨
      (s.yard.trackOf t).fill +
        ((s.yard.trackOf t).reserved - (if t = x.resolved then c.axles else 0)) + c.axles ≤ (s.yard.trackOf t).capacity) →
    ∃ u c' x', Answers (.amend n 1 (destinationCode d).1 (destinationCode d).2 a) s
        (doneWith [BitVec.ofNat 8 x'.resolved.val]) u ∧
      u.yard.cutAt i = some c' ∧ c'.started = some x' ∧ c'.number = n ∧ c'.dest = d ∧ c'.axles = c.axles ∧
      c'.state = c.state ∧ x'.progress = x.progress ∧ x'.crestAxles = x.crestAxles ∧ x'.inTrack = x.inTrack ∧
      u.mode = s.mode ∧ u.ladder = s.ladder ∧ u.yard.pendingList = s.yard.pendingList ∧ u.yard.crest = s.yard.crest ∧
      (∀ sid, u.yard.sectionOf sid = s.yard.sectionOf sid) ∧ u.yard.queues = s.yard.queues ∧
      (t = x.resolved → x' = x ∧ u.yard.tracks = s.yard.tracks) ∧
      (t ≠ x.resolved → Raised u.yard (.cut i) 7 ∧
        ((∀ q, s.yard.queueHead q ≠ some i) →
          x' = { x with resolved := t, route := s.ladder.routeOf t, cause := cause } ∧
          (u.yard.trackOf t).reserved = (s.yard.trackOf t).reserved + c.axles ∧
          (u.yard.trackOf x.resolved).reserved = (s.yard.trackOf x.resolved).reserved - c.axles ∧
          (∀ k, (u.yard.trackOf k).fill = (s.yard.trackOf k).fill) ∧ u.yard.points = s.yard.points ∧
          u.yard.plans = s.yard.plans) ∧
        ∀ q leg, s.yard.queueHead q = some i → (s.ladder.routeOf t)[x.progress]? = some (q, leg) →
          ∃ w : Yard, SettledFrom { s with link := u.link } (w.evaluate s.env q) u ∧
            w.cutAt i =
              some { c with
                dest := d, started := some { x with resolved := t, route := s.ladder.routeOf t, cause := cause } } ∧
            AxlesMoved s.yard w x.resolved t c.axles ∧ w.queues = s.yard.queues ∧ w.points = s.yard.points ∧
            w.lead = s.yard.lead ∧ w.sections = s.yard.sections ∧ w.plans = s.yard.plans ∧
            w.waiting = s.yard.waiting ∧ w.slotsInUse = s.yard.slotsInUse ∧ w.control = s.yard.control))

/-- WITHDRAW takes a PENDING cut or a marker out of the list and frees its slot with the notice cleared; where it was the
head, the new head is judged. RETIRE frees the slot of an ARRIVED or LOST cut, which the crest unit forgets. Either refuses
the other's records with NOT_ALLOWED and the slot, a number of no live record with NO_RECORD, and the number 0 with BAD_VALUE
(R66, R71, R83, R84, R98). That BAD_VALUE names field 1 is the model's reading (log entry 13, DEDUCED). -/
def Obligations.WithdrawAndRetireFreeSlot : Prop :=
  (∀ s : State, Refuses (.withdraw 0) s .badValue [1] ∧ Refuses (.retire 0) s .badValue [1]) ∧
  ∀ (s : State) (n : Word16), n ≠ 0 →
    (NumberFree s.yard n → Refuses (.withdraw n) s .noRecord [] ∧ Refuses (.retire n) s .noRecord []) ∧
    (∀ i r, HoldsNumber s.yard n i r →
      ((∀ c, r = .cut c → c.state = .pending) →
        Refuses (.retire n) s .notAllowed [BitVec.ofNat 8 i.val] ∧
        AnswersYard (.withdraw n) s ok
          (if s.yard.pendingList.head? = some i then
            { withFreshSlot s.yard i none with
                pendingList := s.yard.pendingList.filter (fun j => j != i) }.judgeMarker
           else { withFreshSlot s.yard i none with pendingList := s.yard.pendingList.filter (fun j => j != i) })) ∧
      (∀ c, r = .cut c → c.state = .entering ∨ c.state = .rolling →
        Refuses (.retire n) s .notAllowed [BitVec.ofNat 8 i.val]) ∧
      (∀ c, r = .cut c → c.state ≠ .pending → Refuses (.withdraw n) s .notAllowed [BitVec.ofNat 8 i.val]) ∧
      (∀ c, r = .cut c → c.state = .arrived ∨ c.state = .lost →
        ∃ z, AnswersYard (.retire n) s ok { withFreshSlot s.yard i none with crest := z } ∧
          z.timer = s.yard.crest.timer ∧ z.nextOrder = s.yard.crest.nextOrder ∧
          z.previous = s.yard.crest.previous.filter (fun p => p.slot != i) ∧
          (∀ x, s.yard.crest.state = .absorbing (some i) x → z.state = .absorbing none x) ∧
          ((∀ x, s.yard.crest.state ≠ .absorbing (some i) x) → z.state = s.yard.crest.state)))

/-! ## Requests: tracks, points, sections, notices -/

/-- SET WINDOW, SET MAP, SET TRACK, SET FILL and PULL with their checks in field order: what each replaces, what it answers,
and the field that BAD_VALUE names (R109, R112, R120, R121). -/
def Obligations.TrackRequestsReplaceSettings : Prop :=
  ∀ s : State,
    (∀ (w first last : Byte),
      (∀ i : Fin 4, w.toNat = i.val → first.toNat ≤ 40 →
        AnswersYard (.setWindow w first last) s ok
          { s.yard with windows := Table.put s.yard.windows i { first := first.toNat, last := last.toNat } }) ∧
      (3 < w.toNat → Refuses (.setWindow w first last) s .badValue [0]) ∧
      (w.toNat ≤ 3 → 40 < first.toNat → Refuses (.setWindow w first last) s .badValue [1])) ∧
    (∀ (entry valid code span track : Byte),
      (31 < entry.toNat → Refuses (.setMap entry valid code span track) s .badValue [0]) ∧
      (∀ i : Fin 32, entry.toNat = i.val →
        (1 < valid.toNat → Refuses (.setMap entry valid code span track) s .badValue [1]) ∧
        (valid = 0 →
          AnswersYard (.setMap entry valid code span track) s ok
            { s.yard with blockMap := Table.put s.yard.blockMap i none }) ∧
        (valid = 1 →
          (7 < span.toNat → Refuses (.setMap entry valid code span track) s .badValue [3]) ∧
          (span.toNat ≤ 7 →
            (40 < track.toNat → Refuses (.setMap entry valid code span track) s .badValue [4]) ∧
            (∀ t : TrackIx, track.toNat = t.val →
              (¬ TrackAccepted s t → Refuses (.setMap entry valid code span track) s .badValue [4]) ∧
              (TrackAccepted s t →
                AnswersYard (.setMap entry valid code span track) s ok
                  { s.yard with
                      blockMap := Table.put s.yard.blockMap i
                        (some { code := code.toNat, span := span.toNat, track := t }) })))))) ∧
    (∀ (track : Byte) (capacity count : Word16) (value : Word32),
      (40 < track.toNat ∨ (∃ t : TrackIx, track.toNat = t.val ∧ ¬ TrackAccepted s t) →
        Refuses (.setTrack track capacity) s .badValue [0] ∧ Refuses (.setFill track value) s .badValue [0] ∧
        Refuses (.pull track count) s .badValue [0]) ∧
      (∀ t : TrackIx, track.toNat = t.val → TrackAccepted s t →
        (4095 < capacity.toNat → Refuses (.setTrack track capacity) s .badValue [1]) ∧
        (capacity.toNat ≤ 4095 →
          AnswersYard (.setTrack track capacity) s ok
            { s.yard with
                tracks := Table.put s.yard.tracks t { s.yard.trackOf t with capacity := capacity.toNat } }) ∧
        AnswersYard (.setFill track value) s (doneWith (le16 (BitVec.ofNat 16 (min value.toNat 65535))))
          { s.yard with
              tracks := Table.put s.yard.tracks t { s.yard.trackOf t with fill := min value.toNat 65535 } } ∧
        AnswersYard (.pull track count) s (doneWith (le16 (BitVec.ofNat 16 ((s.yard.trackOf t).fill - count.toNat))))
          { s.yard with
              tracks := Table.put s.yard.tracks t
                { s.yard.trackOf t with fill := (s.yard.trackOf t).fill - count.toNat } }))

/-- Every read request, whatever its fields, changes nothing but the link. It is DONE where it names something that the part
holds, with every byte of its rule's fields and the payload lengths of section 11.5, and refused by its field or record
otherwise. READ PENDING gives the length and at most 24 numbers. The presence bytes of READ MAP, READ HEAD, READ TRACK and READ
SECTION, and with them the places of the fields behind them, are the model's (log entry 11, DEDUCED), the codes of raw levels
too (log entry 12, DEDUCED), and so are the raw level of a line not sampled since hardware reset (log entry 24, DESIGN CHOICE)
and the 0 of READ POINT beside a target of kind none (log entry 34, DESIGN CHOICE) (R30, R38, R64, R66, R85, R86, R123, R124,
R141, R172, R177, R186 to R190). -/
def Obligations.ReadsAnswerAndChangeNothing : Prop :=
  ∀ s : State,
    (∀ c, IsRead c → ∃ r, Answers c s r s) ∧ ReadRefusals s ∧
    (∀ i r, Table.look s.yard.slots i = some r →
      ∃ bytes, bytes = recordAnswer i r (s.yard.notices.reasons (.cut i)) ∧
        Answers (.readCut 1 (BitVec.ofNat 16 i.val)) s (doneWith bytes) s ∧
        bytes.length = (if recordKind r = 0 then 59 else 6) ∧
        (r.number ≠ 0 → HoldsNumber s.yard r.number i r → Answers (.readCut 0 r.number) s (doneWith bytes) s)) ∧
    (∀ start : Byte, start.toNat < 64 →
      ∃ numbers : List Word16, Answers (.readPending start) s
          (doneWith (BitVec.ofNat 8 s.yard.pendingList.length :: BitVec.ofNat 8 numbers.length ::
            numbers.flatMap le16)) s ∧
        numbers.length = min 24 (s.yard.pendingList.length - start.toNat) ∧
        ∀ k i r, k < numbers.length → s.yard.pendingList[start.toNat + k]? = some i → Table.look s.yard.slots i = some r →
          numbers[k]? = some r.number) ∧
    (∀ t : TrackIx, ∃ b, Answers (.readTrack (BitVec.ofNat 8 t.val)) s (doneWith b) s ∧ TrackAnswer s t b) ∧
    (∀ i : Fin 32, ∃ b, Answers (.readMap 0 (BitVec.ofNat 8 i.val)) s (doneWith b) s ∧
      (Table.look s.yard.blockMap i = none → b = List.replicate 9 0) ∧
      ∀ m, Table.look s.yard.blockMap i = some m →
        b = [1, 1, BitVec.ofNat 8 m.code, 1, BitVec.ofNat 8 m.span, 1, BitVec.ofNat 8 m.track.val, 1,
             boolCode (s.ladder.trackInUse m.track)]) ∧
    (∀ i : Fin 4, ∃ b, Answers (.readMap 1 (BitVec.ofNat 8 i.val)) s (doneWith b) s ∧ WindowAnswer s i b) ∧
    (∀ p : PointIx, Answers (.readPoint (BitVec.ofNat 8 p.val)) s (doneWith (pointAnswer s p)) s ∧
      (pointAnswer s p).length = (if s.yard.pointOf p = none then 17 else 62)) ∧
    (∀ sid x (start : Byte), s.mode ≠ .setup → s.yard.sectionOf sid = some x → start.toNat < 64 →
      (sid = .lead → Answers (.readSection (selectorCode sid) 0 start) s
        (doneWith (sectionAnswer x 0 ++
          BitVec.ofNat 8 (min 4 (x.occupants.length - start.toNat)) ::
          ((x.occupants.drop start.toNat).take 4).flatMap (fun o =>
            le16 (numberIn s.yard o.slot) ++ [BitVec.ofNat 8 o.entered, BitVec.ofNat 8 o.exited]))) s) ∧
      (∀ p, sid = .point p →
        Answers (.readSection (selectorCode sid) 0 start) s
          (doneWith (sectionAnswer x (s.yard.queueOf p).length ++
            BitVec.ofNat 8 (min 4 (x.occupants.length - start.toNat)) ::
            ((x.occupants.drop start.toNat).take 4).flatMap (fun o =>
              le16 (numberIn s.yard o.slot) ++ [BitVec.ofNat 8 o.entered, BitVec.ofNat 8 o.exited]))) s ∧
        Answers (.readSection (selectorCode sid) 1 start) s
          (doneWith (sectionAnswer x (s.yard.queueOf p).length ++
            BitVec.ofNat 8 (min 4 ((s.yard.queueOf p).length - start.toNat)) ::
            (((s.yard.queueOf p).drop start.toNat).take 4).flatMap (fun a =>
              le16 (numberIn s.yard a.slot) ++ le32 a.instant ++ le16 (BitVec.ofNat 16 a.interval)))) s)) ∧
    (∀ h : HeadIx, ∃ b, Answers (.readHead (BitVec.ofNat 8 h.val)) s (doneWith b) s ∧
      (Configured s.ladder h → b = headAnswer true (Table.look s.heads h)) ∧
      (¬ Configured s.ladder h → b = headAnswer false (Table.look s.heads h))) ∧
    (∀ line : Byte, ∃ (i : LineIx) (b : List Byte), i.val = line.toNat ∧ Answers (.readLine line) s (doneWith b) s ∧
      LineAnswer s i b) ∧
    (∃ b, Answers .readDevice s (doneWith b) s ∧ b.length = 54 ∧ DeviceControlBytes s b ∧ DeviceCrestBytes s b ∧
      DeviceTailBytes s b) ∧
    ∃ b, Answers .readNotices s (doneWith b) s ∧ NoticesAnswer s.yard.notices b

/-- THROW of a point that passes every check: into the leg it lies in, no movement, PROVED, evaluated, IN_POSITION; into the other leg,
PLACED: with a free slot and an empty list the throw starts at once, and with no free slot a MANUAL entry stands at the
tail of the list and the point rests (R131, R132, R138). The first check that fails refuses it: the leg, a throw in flight,
a LOST point, the bar, a waiting entry, the section, the queue, freeze; before them the checks common to the requests on points:
the mode, the index, in use (section 7.6). -/
def Obligations.ThrowProvesPlacesOrStarts : Prop :=
  (∀ leg, PointChecks (fun b => .throw b leg)) ∧
  (∀ (s : State) (p : PointIx) (x : Point) (leg : Byte), s.mode ≠ .setup → s.yard.pointOf p = some x →
    (1 < leg.toNat → Refuses (.throw (BitVec.ofNat 8 p.val) leg) s .badValue [1]) ∧
    (leg.toNat ≤ 1 →
      (x.state.inMotion = true →
        Refuses (.throw (BitVec.ofNat 8 p.val) leg) s .busy [BitVec.ofNat 8 p.val]) ∧
      ((∃ c, x.state = .lost c) →
        Refuses (.throw (BitVec.ofNat 8 p.val) leg) s .notProved [BitVec.ofNat 8 p.val]) ∧
      ((∃ m, x.state.lie = some m) →
        (x.barred = true → Refuses (.throw (BitVec.ofNat 8 p.val) leg) s .barred [BitVec.ofNat 8 p.val]) ∧
        (x.barred = false →
          (s.yard.waitingOf p ≠ none →
            Refuses (.throw (BitVec.ofNat 8 p.val) leg) s .busy [BitVec.ofNat 8 p.val]) ∧
          (s.yard.waitingOf p = none →
            (s.yard.sectionState (.point p) ≠ some .clear →
              Refuses (.throw (BitVec.ofNat 8 p.val) leg) s .occupied [BitVec.ofNat 8 p.val]) ∧
            (s.yard.sectionState (.point p) = some .clear →
              (s.yard.queueOf p ≠ [] →
                Refuses (.throw (BitVec.ofNat 8 p.val) leg) s .busy [BitVec.ofNat 8 p.val]) ∧
              (s.yard.queueOf p = [] → s.yard.control.freezeFlag = true →
                Refuses (.throw (BitVec.ofNat 8 p.val) leg) s .frozen [BitVec.ofNat 8 p.val]))))))) ∧
  ∀ (s : State) (p : PointIx) (x : Point) (m l : Leg) (cfg : PointConfig), s.mode ≠ .setup → s.yard.pointOf p = some x →
    x.state.lie = some m → x.barred = false → s.yard.waitingOf p = none → s.yard.sectionClear (.point p) = true →
    s.yard.queueOf p = [] → s.yard.control.freezeFlag = false → s.ladder.config p = some cfg →
    ∃ t, t.pending = s.pending ∧ t.lines = s.lines ∧ t.heads = s.heads ∧ t.ladder = s.ladder ∧ t.clock = s.clock ∧
      t.yard.control.mode = s.yard.control.mode ∧ t.yard.lead = s.yard.lead ∧ t.yard.sections = s.yard.sections ∧
      t.yard.queues = s.yard.queues ∧ t.yard.crest = s.yard.crest ∧ t.yard.pendingList = s.yard.pendingList ∧
      (l = m →
        Answers (.throw (BitVec.ofNat 8 p.val) (legCode l)) s (doneWith [0]) t ∧
        t.yard.pointOf p = some { x with state := .proved l } ∧ (∀ q, q ≠ p → t.yard.pointOf q = s.yard.pointOf q) ∧
        t.yard.drive = s.yard.drive ∧ t.yard.slotsInUse = s.yard.slotsInUse ∧ t.yard.waiting = s.yard.waiting ∧
        t.yard.slots = s.yard.slots ∧
        SettledFrom { s with link := t.link }
          (({ s.yard with points := Table.put s.yard.points p (some { x with state := .proved l }) } : Yard).evaluate
            s.env p) t) ∧
      (l ≠ m →
        Answers (.throw (BitVec.ofNat 8 p.val) (legCode l)) s (doneWith [1]) t ∧
        (s.yard.waiting = [] → s.yard.slotsInUse < s.ladder.consts.slots →
          t.yard.pointOf p =
            some { x with state := .moving l m (s.clock + BitVec.ofNat 32 (10 * cfg.tThrow)) .manual } ∧
          (∀ q, q ≠ p → t.yard.pointOf q = s.yard.pointOf q) ∧ t.yard.waiting = [] ∧
          t.yard.slotsInUse = s.yard.slotsInUse + 1 ∧
          (∀ k, Table.look t.yard.drive (driveLine p k) = (k == l)) ∧ t.yard.slots = s.yard.slots) ∧
        (s.ladder.consts.slots ≤ s.yard.slotsInUse →
          t.yard.points = s.yard.points ∧ t.yard.drive = s.yard.drive ∧ t.yard.slotsInUse = s.yard.slotsInUse ∧
          t.yard.waiting = s.yard.waiting ++ [{ point := p, target := l, claim := .manual }] ∧
          t.yard.slots = s.yard.slots))

/-- BAR sets the bar of a point at rest and takes its entry out of the waiting list; UNBAR clears the bar; either changes
nothing where the bar already stands so. RESTORE of a FAULTY or LOST point whose detection proves a leg makes it PROVED in
that leg with its bar kept and a LOST point no longer counted, and answers the leg. After each of the three that has an effect
the planner evaluates the point (R146), after BAR with the arbiter acting first where an entry has left the list (R132).
The refusals by state name the point (R139, R140, R163); before them stand the common checks of section 7.6. -/
def Obligations.BarUnbarRestoreChangePoint : Prop :=
  PointChecks .bar ∧ PointChecks .unbar ∧ PointChecks .restore ∧
  ∀ (s : State) (p : PointIx) (x : Point), s.mode ≠ .setup → s.yard.pointOf p = some x →
    (x.state.inMotion = true →
      Refuses (.bar (BitVec.ofNat 8 p.val)) s .busy [BitVec.ofNat 8 p.val] ∧
      Refuses (.restore (BitVec.ofNat 8 p.val)) s .busy [BitVec.ofNat 8 p.val]) ∧
    ((∃ c, x.state = .lost c) → Refuses (.bar (BitVec.ofNat 8 p.val)) s .notAllowed [BitVec.ofNat 8 p.val]) ∧
    ((∃ l, x.state = .proved l) → Refuses (.restore (BitVec.ofNat 8 p.val)) s .notAllowed [BitVec.ofNat 8 p.val]) ∧
    ((∃ m, x.state.lie = some m) →
      (x.barred = true → Answers (.bar (BitVec.ofNat 8 p.val)) s ok s) ∧
      (x.barred = false →
        ∃ t, Answers (.bar (BitVec.ofNat 8 p.val)) s ok t ∧ t.yard.pointOf p = some { x with barred := true } ∧
          t.yard.waitingOf p = none ∧ t.yard.lead = s.yard.lead ∧ t.yard.sections = s.yard.sections ∧
          t.yard.queues = s.yard.queues ∧ t.yard.control.mode = s.yard.control.mode ∧
          (∀ k, Table.look t.yard.drive (driveLine p k) = Table.look s.yard.drive (driveLine p k)) ∧
          ∃ w : Yard, w = { s.yard with
              points := Table.put s.yard.points p (some { x with barred := true }),
              waiting := s.yard.waiting.filter (fun a => a.point ≠ p) } ∧
            SettledFrom { s with link := t.link }
              ((if s.yard.waitingOf p = none then w else w.arbitrate s.env).evaluate s.env p) t)) ∧
    (x.barred = false → Answers (.unbar (BitVec.ofNat 8 p.val)) s ok s) ∧
    (x.barred = true →
      ∃ t, Answers (.unbar (BitVec.ofNat 8 p.val)) s ok t ∧
        (t.yard.pointOf p).map (fun z => z.barred) = some false ∧
        (s.yard.queueOf p = [] → t.yard.pointOf p = some { x with barred := false }) ∧ t.yard.lead = s.yard.lead ∧
        t.yard.sections = s.yard.sections ∧ t.yard.queues = s.yard.queues ∧
        SettledFrom { s with link := t.link }
          (({ s.yard with points := Table.put s.yard.points p (some { x with barred := false }) } : Yard).evaluate
            s.env p) t) ∧
    ((∃ l c, x.state = .faulty l c) ∨ (∃ c, x.state = .lost c) →
      (x.detectN = x.detectR → Refuses (.restore (BitVec.ofNat 8 p.val)) s .notProved [BitVec.ofNat 8 p.val]) ∧
      (x.detectN ≠ x.detectR →
        ∃ l t, l = (if x.detectN = true then Leg.N else Leg.R) ∧
          Answers (.restore (BitVec.ofNat 8 p.val)) s (doneWith [legCode l]) t ∧
          (t.yard.pointOf p).map (fun z => z.barred) = some x.barred ∧
          (s.yard.queueOf p = [] → t.yard.pointOf p = some { x with state := .proved l }) ∧
          t.yard.control =
            { s.yard.control with
                lost := if x.state.isLost = true then s.yard.control.lost - 1 else s.yard.control.lost,
                permit := t.yard.control.permit } ∧
          t.yard.sections = s.yard.sections ∧ t.yard.queues = s.yard.queues ∧
          SettledFrom { s with link := t.link }
            (({ s.yard with
                points := Table.put s.yard.points p (some { x with state := .proved l }),
                control := { s.yard.control with
                  lost := if x.state.isLost = true then s.yard.control.lost - 1 else s.yard.control.lost } } :
              Yard).evaluate s.env p) t))

/-- RESET SECTION of a section whose point rests and no FAULTY adjoining head of which has an ACTIVE sensor: the FAULTY
adjoining heads are OK and IDLE, the section is CLEAR with nothing listed, every cut it listed that was on the ladder is
LOST, its point, whose queue is not its matter, is evaluated, and the counts fall where it was DISTURBED or stalled; a CLEAR section keeps all
but its heads' faults. It is refused in SETUP, for an index out of range, for a point not in use, for a moving point and for a
blocking head, in this order (R37, R62, R63; the CLEAR section by log entry 23, DEDUCED).
That the root's section returns C to OK too, where no sensor of C is ACTIVE, is the model's reading of R104 (log entry 32,
DESIGN CHOICE). -/
def Obligations.ResetSectionClearsSection : Prop :=
  (∀ (s : State) (sel : Byte),
    (s.mode = .setup → Refuses (.resetSection sel) s .badMode []) ∧
    (s.mode ≠ .setup →
      (39 < sel.toNat → sel ≠ 255 → Refuses (.resetSection sel) s .badValue [0]) ∧
      ∀ p : PointIx, sel.toNat = p.val → s.yard.sectionOf (.point p) = none →
        Refuses (.resetSection sel) s .noRecord [sel])) ∧
  ∀ (s : State) (sid : SectionId) (x : Section), s.mode ≠ .setup → s.yard.sectionOf sid = some x →
    (∀ p, sid = .point p → s.yard.pointInMotion p = true →
      Refuses (.resetSection (selectorCode sid)) s .busy [BitVec.ofNat 8 p.val]) ∧
    ((∀ p, sid = .point p → s.yard.pointInMotion p = false) →
      (∀ h, h ∈ s.ladder.headsOf sid → Blocks s h → (∀ k, k ∈ s.ladder.headsOf sid → Blocks s k → h ≤ k) →
        Refuses (.resetSection (selectorCode sid)) s .sensorActive [BitVec.ofNat 8 h.val]) ∧
      ((∀ h, h ∈ s.ladder.headsOf sid → ¬ Blocks s h) →
        ∃ t, Answers (.resetSection (selectorCode sid)) s ok t ∧ t.PermitLaw ∧ t.AttnLaw ∧
          (∀ h, Restores s sid h → Table.look t.heads h =
            { Table.look s.heads h with state := .idle, condition := .ok, fault := none }) ∧
          (∀ h, ¬ Restores s sid h → Table.look t.heads h = Table.look s.heads h) ∧
          t.lines = s.lines ∧ t.ladder = s.ladder ∧ t.clock = s.clock ∧
          (x.state = .clear → SettledFrom { s with heads := t.heads } s.yard t) ∧
          (x.state ≠ .clear →
            t.yard.sectionOf sid =
              some { x with state := .clear, count := 0, occupants := [], stallTimer := none, stallFlag := false,
                            cause := none } ∧
            (∀ o c, o ∈ x.occupants → s.yard.cutAt o.slot = some c → (c.state = .entering ∨ c.state = .rolling) →
              ∃ c', t.yard.cutAt o.slot = some c' ∧ c'.state = .lost ∧ c'.number = c.number ∧
                Raised t.yard (.cut o.slot) 2) ∧
            ((∀ o ∈ x.occupants, ∀ other z, other ≠ sid → s.yard.sectionOf other = some z →
                ∀ a ∈ z.occupants, a.slot ≠ o.slot) →
              t.yard.control.disturbed = s.yard.control.disturbed - (if x.state = .disturbed then 1 else 0) ∧
              t.yard.control.stall = s.yard.control.stall - (if x.stallFlag = true then 1 else 0) ∧
              t.yard.control.lost = s.yard.control.lost ∧ t.mode = s.mode ∧
              ∀ other, other ≠ sid → t.yard.sectionOf other = s.yard.sectionOf other) ∧
            (x.occupants = [] → t.yard.queues = s.yard.queues) ∧
            ∀ p, sid = .point p →
              ∃ w : Yard, SettledFrom { s with heads := t.heads, link := t.link }
                  { w.evaluate s.env p with control := t.yard.control } t ∧
                w.sectionOf sid = t.yard.sectionOf sid ∧ w.queueOf p = t.yard.queueOf p ∧
                (x.occupants = [] → w = s.yard.putSection sid (t.yard.sectionOf sid)))))

/-- ACK with one to seven reasons removes them from the reason set of the notice named and answers what is left. A reason that the
class does not have is refused by field 2, a class out of range by field 0, and an index that names no notice of its class by
field 1. No other notice changes, and ATTN is judged in the same event (R173, R175, R178). -/
def Obligations.AckRemovesNamedReasons : Prop :=
  ∀ (s : State) (k : NoticeKey) (reasons : List Byte), 1 ≤ reasons.length → reasons.length ≤ 7 →
    ((∀ r ∈ reasons, 1 ≤ r.toNat ∧ r.toNat ≤ reasonsOf k) →
      ∃ (left : Byte) (n : Notices), (∀ b : Nat, b < 8 →
          left.getLsbD b = ((s.yard.notices.reasons k).getLsbD b && !(reasons.any (fun r => r.toNat == b + 1)))) ∧
        n.reasons k = left ∧ (∀ j, j ≠ k → n.reasons j = s.yard.notices.reasons j) ∧
        n.enables = s.yard.notices.enables ∧ n.mask = s.yard.notices.mask ∧
        AnswersYard (.ack (noticeCode k).1 (noticeCode k).2 reasons) s (doneWith [left]) { s.yard with notices := n }) ∧
    ((∃ r ∈ reasons, r.toNat = 0 ∨ reasonsOf k < r.toNat) →
      Refuses (.ack (noticeCode k).1 (noticeCode k).2 reasons) s .badValue [2]) ∧
    (∀ cls index, (∀ j, noticeCode j ≠ (cls, index)) →
      Refuses (.ack cls index reasons) s .badValue [if cls.toNat ≤ 4 then 1 else 0])

/-- SET ATTENTION replaces the five class enables and the mask together, and ATTN is judged on them; the first field that is
neither on nor off is named by BAD_VALUE (R178, R179). -/
def Obligations.SetAttentionReplacesEnables : Prop :=
  ∀ (s : State) (e : Fin 5 → Bool) (mask : Bool),
    (∃ enables : Table 5 Bool, (∀ c, Table.look enables c = e c) ∧
      AnswersYard
        (.setAttention (boolCode (e 0)) (boolCode (e 1)) (boolCode (e 2)) (boolCode (e 3)) (boolCode (e 4)) (boolCode mask))
        s ok { s.yard with notices := { s.yard.notices with enables := enables, mask := mask } }) ∧
    ∀ e0 e1 e2 e3 e4 m : Byte,
      (∃ k : Nat, k < 6 ∧ 1 < ([e0, e1, e2, e3, e4, m].getD k 0).toNat) →
      ∃ k : Nat, k < 6 ∧ 1 < ([e0, e1, e2, e3, e4, m].getD k 0).toNat ∧
        (∀ j, j < k → ([e0, e1, e2, e3, e4, m].getD j 0).toNat ≤ 1) ∧
        Refuses (.setAttention e0 e1 e2 e3 e4 m) s .badValue [BitVec.ofNat 8 k]
end

