-- ==== Sys2Proof/Laws/State.lean ====
section
/-! SUPPORT. One lemma for each field and each update of the records: what an update leaves alone. -/

namespace Sys2Proof.Machine

open Sys2Proof

/-! ## The state after an event of its yard -/

@[simp] theorem State.withYard_clock (s : State) (y : Yard) : (s.withYard y).clock = s.clock := rfl
@[simp] theorem State.withYard_straps (s : State) (y : Yard) : (s.withYard y).straps = s.straps := rfl
@[simp] theorem State.withYard_raw (s : State) (y : Yard) : (s.withYard y).raw = s.raw := rfl
@[simp] theorem State.withYard_ladder (s : State) (y : Yard) : (s.withYard y).ladder = s.ladder := rfl
@[simp] theorem State.withYard_lines (s : State) (y : Yard) : (s.withYard y).lines = s.lines := rfl
@[simp] theorem State.withYard_heads (s : State) (y : Yard) : (s.withYard y).heads = s.heads := rfl
@[simp] theorem State.withYard_link (s : State) (y : Yard) : (s.withYard y).link = s.link := rfl
@[simp] theorem State.withYard_pending (s : State) (y : Yard) : (s.withYard y).pending = s.pending := rfl
@[simp] theorem State.withYard_yard (s : State) (y : Yard) : (s.withYard y).yard = y.settle := rfl

/-! ## Settling the outputs -/

@[simp] theorem Yard.settle_lead (y : Yard) : y.settle.lead = y.lead := rfl
@[simp] theorem Yard.settle_sections (y : Yard) : y.settle.sections = y.sections := rfl
@[simp] theorem Yard.settle_queues (y : Yard) : y.settle.queues = y.queues := rfl
@[simp] theorem Yard.settle_slots (y : Yard) : y.settle.slots = y.slots := rfl
@[simp] theorem Yard.settle_pendingList (y : Yard) : y.settle.pendingList = y.pendingList := rfl
@[simp] theorem Yard.settle_crest (y : Yard) : y.settle.crest = y.crest := rfl
@[simp] theorem Yard.settle_tracks (y : Yard) : y.settle.tracks = y.tracks := rfl
@[simp] theorem Yard.settle_windows (y : Yard) : y.settle.windows = y.windows := rfl
@[simp] theorem Yard.settle_blockMap (y : Yard) : y.settle.blockMap = y.blockMap := rfl
@[simp] theorem Yard.settle_points (y : Yard) : y.settle.points = y.points := rfl
@[simp] theorem Yard.settle_drive (y : Yard) : y.settle.drive = y.drive := rfl
@[simp] theorem Yard.settle_slotsInUse (y : Yard) : y.settle.slotsInUse = y.slotsInUse := rfl
@[simp] theorem Yard.settle_waiting (y : Yard) : y.settle.waiting = y.waiting := rfl
@[simp] theorem Yard.settle_plans (y : Yard) : y.settle.plans = y.plans := rfl
@[simp] theorem Yard.settle_control_mode (y : Yard) : y.settle.control.mode = y.control.mode := rfl
@[simp] theorem Yard.settle_control_halt (y : Yard) : y.settle.control.halt = y.control.halt := rfl
@[simp] theorem Yard.settle_control_disturbed (y : Yard) : y.settle.control.disturbed = y.control.disturbed := rfl
@[simp] theorem Yard.settle_control_lost (y : Yard) : y.settle.control.lost = y.control.lost := rfl
@[simp] theorem Yard.settle_control_stall (y : Yard) : y.settle.control.stall = y.control.stall := rfl
@[simp] theorem Yard.settle_control_stopFlag (y : Yard) : y.settle.control.stopFlag = y.control.stopFlag := rfl
@[simp] theorem Yard.settle_control_freezeFlag (y : Yard) : y.settle.control.freezeFlag = y.control.freezeFlag := rfl
@[simp] theorem Yard.settle_control_permit (y : Yard) : y.settle.control.permit = permitLaw y := rfl
@[simp] theorem Yard.settle_notices_cut (y : Yard) : y.settle.notices.cut = y.notices.cut := rfl
@[simp] theorem Yard.settle_notices_point (y : Yard) : y.settle.notices.point = y.notices.point := rfl
@[simp] theorem Yard.settle_notices_lead (y : Yard) : y.settle.notices.lead = y.notices.lead := rfl
@[simp] theorem Yard.settle_notices_track (y : Yard) : y.settle.notices.track = y.notices.track := rfl
@[simp] theorem Yard.settle_notices_device (y : Yard) : y.settle.notices.device = y.notices.device := rfl
@[simp] theorem Yard.settle_notices_enables (y : Yard) : y.settle.notices.enables = y.notices.enables := rfl
@[simp] theorem Yard.settle_notices_mask (y : Yard) : y.settle.notices.mask = y.notices.mask := rfl
@[simp] theorem Yard.settle_notices_attn (y : Yard) : y.settle.notices.attn = attnLaw y.notices := rfl

/-! ## `putSection` -/

@[simp] theorem Yard.putSection_queues (sid : SectionId) (x : Option Section) (y : Yard) : (y.putSection sid x).queues = y.queues := by cases sid <;> rfl
@[simp] theorem Yard.putSection_slots (sid : SectionId) (x : Option Section) (y : Yard) : (y.putSection sid x).slots = y.slots := by cases sid <;> rfl
@[simp] theorem Yard.putSection_pendingList (sid : SectionId) (x : Option Section) (y : Yard) : (y.putSection sid x).pendingList = y.pendingList := by cases sid <;> rfl
@[simp] theorem Yard.putSection_crest (sid : SectionId) (x : Option Section) (y : Yard) : (y.putSection sid x).crest = y.crest := by cases sid <;> rfl
@[simp] theorem Yard.putSection_tracks (sid : SectionId) (x : Option Section) (y : Yard) : (y.putSection sid x).tracks = y.tracks := by cases sid <;> rfl
@[simp] theorem Yard.putSection_windows (sid : SectionId) (x : Option Section) (y : Yard) : (y.putSection sid x).windows = y.windows := by cases sid <;> rfl
@[simp] theorem Yard.putSection_blockMap (sid : SectionId) (x : Option Section) (y : Yard) : (y.putSection sid x).blockMap = y.blockMap := by cases sid <;> rfl
@[simp] theorem Yard.putSection_points (sid : SectionId) (x : Option Section) (y : Yard) : (y.putSection sid x).points = y.points := by cases sid <;> rfl
@[simp] theorem Yard.putSection_drive (sid : SectionId) (x : Option Section) (y : Yard) : (y.putSection sid x).drive = y.drive := by cases sid <;> rfl
@[simp] theorem Yard.putSection_slotsInUse (sid : SectionId) (x : Option Section) (y : Yard) : (y.putSection sid x).slotsInUse = y.slotsInUse := by cases sid <;> rfl
@[simp] theorem Yard.putSection_waiting (sid : SectionId) (x : Option Section) (y : Yard) : (y.putSection sid x).waiting = y.waiting := by cases sid <;> rfl
@[simp] theorem Yard.putSection_plans (sid : SectionId) (x : Option Section) (y : Yard) : (y.putSection sid x).plans = y.plans := by cases sid <;> rfl
@[simp] theorem Yard.putSection_control (sid : SectionId) (x : Option Section) (y : Yard) : (y.putSection sid x).control = y.control := by cases sid <;> rfl
@[simp] theorem Yard.putSection_notices (sid : SectionId) (x : Option Section) (y : Yard) : (y.putSection sid x).notices = y.notices := by cases sid <;> rfl

/-! ## `modifySection` -/

@[simp] theorem Yard.modifySection_queues (sid : SectionId) (f : Section → Section) (y : Yard) : (y.modifySection sid f).queues = y.queues := by
  unfold Yard.modifySection; split <;> simp
@[simp] theorem Yard.modifySection_slots (sid : SectionId) (f : Section → Section) (y : Yard) : (y.modifySection sid f).slots = y.slots := by
  unfold Yard.modifySection; split <;> simp
@[simp] theorem Yard.modifySection_pendingList (sid : SectionId) (f : Section → Section) (y : Yard) : (y.modifySection sid f).pendingList = y.pendingList := by
  unfold Yard.modifySection; split <;> simp
@[simp] theorem Yard.modifySection_crest (sid : SectionId) (f : Section → Section) (y : Yard) : (y.modifySection sid f).crest = y.crest := by
  unfold Yard.modifySection; split <;> simp
@[simp] theorem Yard.modifySection_tracks (sid : SectionId) (f : Section → Section) (y : Yard) : (y.modifySection sid f).tracks = y.tracks := by
  unfold Yard.modifySection; split <;> simp
@[simp] theorem Yard.modifySection_windows (sid : SectionId) (f : Section → Section) (y : Yard) : (y.modifySection sid f).windows = y.windows := by
  unfold Yard.modifySection; split <;> simp
@[simp] theorem Yard.modifySection_blockMap (sid : SectionId) (f : Section → Section) (y : Yard) : (y.modifySection sid f).blockMap = y.blockMap := by
  unfold Yard.modifySection; split <;> simp
@[simp] theorem Yard.modifySection_points (sid : SectionId) (f : Section → Section) (y : Yard) : (y.modifySection sid f).points = y.points := by
  unfold Yard.modifySection; split <;> simp
@[simp] theorem Yard.modifySection_drive (sid : SectionId) (f : Section → Section) (y : Yard) : (y.modifySection sid f).drive = y.drive := by
  unfold Yard.modifySection; split <;> simp
@[simp] theorem Yard.modifySection_slotsInUse (sid : SectionId) (f : Section → Section) (y : Yard) : (y.modifySection sid f).slotsInUse = y.slotsInUse := by
  unfold Yard.modifySection; split <;> simp
@[simp] theorem Yard.modifySection_waiting (sid : SectionId) (f : Section → Section) (y : Yard) : (y.modifySection sid f).waiting = y.waiting := by
  unfold Yard.modifySection; split <;> simp
@[simp] theorem Yard.modifySection_plans (sid : SectionId) (f : Section → Section) (y : Yard) : (y.modifySection sid f).plans = y.plans := by
  unfold Yard.modifySection; split <;> simp
@[simp] theorem Yard.modifySection_control (sid : SectionId) (f : Section → Section) (y : Yard) : (y.modifySection sid f).control = y.control := by
  unfold Yard.modifySection; split <;> simp
@[simp] theorem Yard.modifySection_notices (sid : SectionId) (f : Section → Section) (y : Yard) : (y.modifySection sid f).notices = y.notices := by
  unfold Yard.modifySection; split <;> simp

/-! ## `putQueue` -/

@[simp] theorem Yard.putQueue_lead (q : PointIx) (l : List QueueEntry) (y : Yard) : (y.putQueue q l).lead = y.lead := rfl
@[simp] theorem Yard.putQueue_sections (q : PointIx) (l : List QueueEntry) (y : Yard) : (y.putQueue q l).sections = y.sections := rfl
@[simp] theorem Yard.putQueue_slots (q : PointIx) (l : List QueueEntry) (y : Yard) : (y.putQueue q l).slots = y.slots := rfl
@[simp] theorem Yard.putQueue_pendingList (q : PointIx) (l : List QueueEntry) (y : Yard) : (y.putQueue q l).pendingList = y.pendingList := rfl
@[simp] theorem Yard.putQueue_crest (q : PointIx) (l : List QueueEntry) (y : Yard) : (y.putQueue q l).crest = y.crest := rfl
@[simp] theorem Yard.putQueue_tracks (q : PointIx) (l : List QueueEntry) (y : Yard) : (y.putQueue q l).tracks = y.tracks := rfl
@[simp] theorem Yard.putQueue_windows (q : PointIx) (l : List QueueEntry) (y : Yard) : (y.putQueue q l).windows = y.windows := rfl
@[simp] theorem Yard.putQueue_blockMap (q : PointIx) (l : List QueueEntry) (y : Yard) : (y.putQueue q l).blockMap = y.blockMap := rfl
@[simp] theorem Yard.putQueue_points (q : PointIx) (l : List QueueEntry) (y : Yard) : (y.putQueue q l).points = y.points := rfl
@[simp] theorem Yard.putQueue_drive (q : PointIx) (l : List QueueEntry) (y : Yard) : (y.putQueue q l).drive = y.drive := rfl
@[simp] theorem Yard.putQueue_slotsInUse (q : PointIx) (l : List QueueEntry) (y : Yard) : (y.putQueue q l).slotsInUse = y.slotsInUse := rfl
@[simp] theorem Yard.putQueue_waiting (q : PointIx) (l : List QueueEntry) (y : Yard) : (y.putQueue q l).waiting = y.waiting := rfl
@[simp] theorem Yard.putQueue_plans (q : PointIx) (l : List QueueEntry) (y : Yard) : (y.putQueue q l).plans = y.plans := rfl
@[simp] theorem Yard.putQueue_control (q : PointIx) (l : List QueueEntry) (y : Yard) : (y.putQueue q l).control = y.control := rfl
@[simp] theorem Yard.putQueue_notices (q : PointIx) (l : List QueueEntry) (y : Yard) : (y.putQueue q l).notices = y.notices := rfl

/-! ## `putSlot` -/

@[simp] theorem Yard.putSlot_lead (i : SlotIx) (r : Option Record) (y : Yard) : (y.putSlot i r).lead = y.lead := rfl
@[simp] theorem Yard.putSlot_sections (i : SlotIx) (r : Option Record) (y : Yard) : (y.putSlot i r).sections = y.sections := rfl
@[simp] theorem Yard.putSlot_queues (i : SlotIx) (r : Option Record) (y : Yard) : (y.putSlot i r).queues = y.queues := rfl
@[simp] theorem Yard.putSlot_pendingList (i : SlotIx) (r : Option Record) (y : Yard) : (y.putSlot i r).pendingList = y.pendingList := rfl
@[simp] theorem Yard.putSlot_crest (i : SlotIx) (r : Option Record) (y : Yard) : (y.putSlot i r).crest = y.crest := rfl
@[simp] theorem Yard.putSlot_tracks (i : SlotIx) (r : Option Record) (y : Yard) : (y.putSlot i r).tracks = y.tracks := rfl
@[simp] theorem Yard.putSlot_windows (i : SlotIx) (r : Option Record) (y : Yard) : (y.putSlot i r).windows = y.windows := rfl
@[simp] theorem Yard.putSlot_blockMap (i : SlotIx) (r : Option Record) (y : Yard) : (y.putSlot i r).blockMap = y.blockMap := rfl
@[simp] theorem Yard.putSlot_points (i : SlotIx) (r : Option Record) (y : Yard) : (y.putSlot i r).points = y.points := rfl
@[simp] theorem Yard.putSlot_drive (i : SlotIx) (r : Option Record) (y : Yard) : (y.putSlot i r).drive = y.drive := rfl
@[simp] theorem Yard.putSlot_slotsInUse (i : SlotIx) (r : Option Record) (y : Yard) : (y.putSlot i r).slotsInUse = y.slotsInUse := rfl
@[simp] theorem Yard.putSlot_waiting (i : SlotIx) (r : Option Record) (y : Yard) : (y.putSlot i r).waiting = y.waiting := rfl
@[simp] theorem Yard.putSlot_plans (i : SlotIx) (r : Option Record) (y : Yard) : (y.putSlot i r).plans = y.plans := rfl
@[simp] theorem Yard.putSlot_control (i : SlotIx) (r : Option Record) (y : Yard) : (y.putSlot i r).control = y.control := rfl
@[simp] theorem Yard.putSlot_notices (i : SlotIx) (r : Option Record) (y : Yard) : (y.putSlot i r).notices = y.notices := rfl

/-! ## `modifyCut` -/

@[simp] theorem Yard.modifyCut_lead (i : SlotIx) (f : Cut → Cut) (y : Yard) : (y.modifyCut i f).lead = y.lead := by
  unfold Yard.modifyCut; split <;> rfl
@[simp] theorem Yard.modifyCut_sections (i : SlotIx) (f : Cut → Cut) (y : Yard) : (y.modifyCut i f).sections = y.sections := by
  unfold Yard.modifyCut; split <;> rfl
@[simp] theorem Yard.modifyCut_queues (i : SlotIx) (f : Cut → Cut) (y : Yard) : (y.modifyCut i f).queues = y.queues := by
  unfold Yard.modifyCut; split <;> rfl
@[simp] theorem Yard.modifyCut_pendingList (i : SlotIx) (f : Cut → Cut) (y : Yard) : (y.modifyCut i f).pendingList = y.pendingList := by
  unfold Yard.modifyCut; split <;> rfl
@[simp] theorem Yard.modifyCut_crest (i : SlotIx) (f : Cut → Cut) (y : Yard) : (y.modifyCut i f).crest = y.crest := by
  unfold Yard.modifyCut; split <;> rfl
@[simp] theorem Yard.modifyCut_tracks (i : SlotIx) (f : Cut → Cut) (y : Yard) : (y.modifyCut i f).tracks = y.tracks := by
  unfold Yard.modifyCut; split <;> rfl
@[simp] theorem Yard.modifyCut_windows (i : SlotIx) (f : Cut → Cut) (y : Yard) : (y.modifyCut i f).windows = y.windows := by
  unfold Yard.modifyCut; split <;> rfl
@[simp] theorem Yard.modifyCut_blockMap (i : SlotIx) (f : Cut → Cut) (y : Yard) : (y.modifyCut i f).blockMap = y.blockMap := by
  unfold Yard.modifyCut; split <;> rfl
@[simp] theorem Yard.modifyCut_points (i : SlotIx) (f : Cut → Cut) (y : Yard) : (y.modifyCut i f).points = y.points := by
  unfold Yard.modifyCut; split <;> rfl
@[simp] theorem Yard.modifyCut_drive (i : SlotIx) (f : Cut → Cut) (y : Yard) : (y.modifyCut i f).drive = y.drive := by
  unfold Yard.modifyCut; split <;> rfl
@[simp] theorem Yard.modifyCut_slotsInUse (i : SlotIx) (f : Cut → Cut) (y : Yard) : (y.modifyCut i f).slotsInUse = y.slotsInUse := by
  unfold Yard.modifyCut; split <;> rfl
@[simp] theorem Yard.modifyCut_waiting (i : SlotIx) (f : Cut → Cut) (y : Yard) : (y.modifyCut i f).waiting = y.waiting := by
  unfold Yard.modifyCut; split <;> rfl
@[simp] theorem Yard.modifyCut_plans (i : SlotIx) (f : Cut → Cut) (y : Yard) : (y.modifyCut i f).plans = y.plans := by
  unfold Yard.modifyCut; split <;> rfl
@[simp] theorem Yard.modifyCut_control (i : SlotIx) (f : Cut → Cut) (y : Yard) : (y.modifyCut i f).control = y.control := by
  unfold Yard.modifyCut; split <;> rfl
@[simp] theorem Yard.modifyCut_notices (i : SlotIx) (f : Cut → Cut) (y : Yard) : (y.modifyCut i f).notices = y.notices := by
  unfold Yard.modifyCut; split <;> rfl

/-! ## `modifyStarted` -/

@[simp] theorem Yard.modifyStarted_lead (i : SlotIx) (f : Started → Started) (y : Yard) : (y.modifyStarted i f).lead = y.lead := by
  simp [Yard.modifyStarted]
@[simp] theorem Yard.modifyStarted_sections (i : SlotIx) (f : Started → Started) (y : Yard) : (y.modifyStarted i f).sections = y.sections := by
  simp [Yard.modifyStarted]
@[simp] theorem Yard.modifyStarted_queues (i : SlotIx) (f : Started → Started) (y : Yard) : (y.modifyStarted i f).queues = y.queues := by
  simp [Yard.modifyStarted]
@[simp] theorem Yard.modifyStarted_pendingList (i : SlotIx) (f : Started → Started) (y : Yard) : (y.modifyStarted i f).pendingList = y.pendingList := by
  simp [Yard.modifyStarted]
@[simp] theorem Yard.modifyStarted_crest (i : SlotIx) (f : Started → Started) (y : Yard) : (y.modifyStarted i f).crest = y.crest := by
  simp [Yard.modifyStarted]
@[simp] theorem Yard.modifyStarted_tracks (i : SlotIx) (f : Started → Started) (y : Yard) : (y.modifyStarted i f).tracks = y.tracks := by
  simp [Yard.modifyStarted]
@[simp] theorem Yard.modifyStarted_windows (i : SlotIx) (f : Started → Started) (y : Yard) : (y.modifyStarted i f).windows = y.windows := by
  simp [Yard.modifyStarted]
@[simp] theorem Yard.modifyStarted_blockMap (i : SlotIx) (f : Started → Started) (y : Yard) : (y.modifyStarted i f).blockMap = y.blockMap := by
  simp [Yard.modifyStarted]
@[simp] theorem Yard.modifyStarted_points (i : SlotIx) (f : Started → Started) (y : Yard) : (y.modifyStarted i f).points = y.points := by
  simp [Yard.modifyStarted]
@[simp] theorem Yard.modifyStarted_drive (i : SlotIx) (f : Started → Started) (y : Yard) : (y.modifyStarted i f).drive = y.drive := by
  simp [Yard.modifyStarted]
@[simp] theorem Yard.modifyStarted_slotsInUse (i : SlotIx) (f : Started → Started) (y : Yard) : (y.modifyStarted i f).slotsInUse = y.slotsInUse := by
  simp [Yard.modifyStarted]
@[simp] theorem Yard.modifyStarted_waiting (i : SlotIx) (f : Started → Started) (y : Yard) : (y.modifyStarted i f).waiting = y.waiting := by
  simp [Yard.modifyStarted]
@[simp] theorem Yard.modifyStarted_plans (i : SlotIx) (f : Started → Started) (y : Yard) : (y.modifyStarted i f).plans = y.plans := by
  simp [Yard.modifyStarted]
@[simp] theorem Yard.modifyStarted_control (i : SlotIx) (f : Started → Started) (y : Yard) : (y.modifyStarted i f).control = y.control := by
  simp [Yard.modifyStarted]
@[simp] theorem Yard.modifyStarted_notices (i : SlotIx) (f : Started → Started) (y : Yard) : (y.modifyStarted i f).notices = y.notices := by
  simp [Yard.modifyStarted]

/-! ## `modifyPoint` -/

@[simp] theorem Yard.modifyPoint_lead (p : PointIx) (f : Point → Point) (y : Yard) : (y.modifyPoint p f).lead = y.lead := by
  unfold Yard.modifyPoint; split <;> rfl
@[simp] theorem Yard.modifyPoint_sections (p : PointIx) (f : Point → Point) (y : Yard) : (y.modifyPoint p f).sections = y.sections := by
  unfold Yard.modifyPoint; split <;> rfl
@[simp] theorem Yard.modifyPoint_queues (p : PointIx) (f : Point → Point) (y : Yard) : (y.modifyPoint p f).queues = y.queues := by
  unfold Yard.modifyPoint; split <;> rfl
@[simp] theorem Yard.modifyPoint_slots (p : PointIx) (f : Point → Point) (y : Yard) : (y.modifyPoint p f).slots = y.slots := by
  unfold Yard.modifyPoint; split <;> rfl
@[simp] theorem Yard.modifyPoint_pendingList (p : PointIx) (f : Point → Point) (y : Yard) : (y.modifyPoint p f).pendingList = y.pendingList := by
  unfold Yard.modifyPoint; split <;> rfl
@[simp] theorem Yard.modifyPoint_crest (p : PointIx) (f : Point → Point) (y : Yard) : (y.modifyPoint p f).crest = y.crest := by
  unfold Yard.modifyPoint; split <;> rfl
@[simp] theorem Yard.modifyPoint_tracks (p : PointIx) (f : Point → Point) (y : Yard) : (y.modifyPoint p f).tracks = y.tracks := by
  unfold Yard.modifyPoint; split <;> rfl
@[simp] theorem Yard.modifyPoint_windows (p : PointIx) (f : Point → Point) (y : Yard) : (y.modifyPoint p f).windows = y.windows := by
  unfold Yard.modifyPoint; split <;> rfl
@[simp] theorem Yard.modifyPoint_blockMap (p : PointIx) (f : Point → Point) (y : Yard) : (y.modifyPoint p f).blockMap = y.blockMap := by
  unfold Yard.modifyPoint; split <;> rfl
@[simp] theorem Yard.modifyPoint_drive (p : PointIx) (f : Point → Point) (y : Yard) : (y.modifyPoint p f).drive = y.drive := by
  unfold Yard.modifyPoint; split <;> rfl
@[simp] theorem Yard.modifyPoint_slotsInUse (p : PointIx) (f : Point → Point) (y : Yard) : (y.modifyPoint p f).slotsInUse = y.slotsInUse := by
  unfold Yard.modifyPoint; split <;> rfl
@[simp] theorem Yard.modifyPoint_waiting (p : PointIx) (f : Point → Point) (y : Yard) : (y.modifyPoint p f).waiting = y.waiting := by
  unfold Yard.modifyPoint; split <;> rfl
@[simp] theorem Yard.modifyPoint_plans (p : PointIx) (f : Point → Point) (y : Yard) : (y.modifyPoint p f).plans = y.plans := by
  unfold Yard.modifyPoint; split <;> rfl
@[simp] theorem Yard.modifyPoint_control (p : PointIx) (f : Point → Point) (y : Yard) : (y.modifyPoint p f).control = y.control := by
  unfold Yard.modifyPoint; split <;> rfl
@[simp] theorem Yard.modifyPoint_notices (p : PointIx) (f : Point → Point) (y : Yard) : (y.modifyPoint p f).notices = y.notices := by
  unfold Yard.modifyPoint; split <;> rfl

/-! ## `setPointState` -/

@[simp] theorem Yard.setPointState_lead (p : PointIx) (st : PointState) (y : Yard) : (y.setPointState p st).lead = y.lead := by
  simp [Yard.setPointState]
@[simp] theorem Yard.setPointState_sections (p : PointIx) (st : PointState) (y : Yard) : (y.setPointState p st).sections = y.sections := by
  simp [Yard.setPointState]
@[simp] theorem Yard.setPointState_queues (p : PointIx) (st : PointState) (y : Yard) : (y.setPointState p st).queues = y.queues := by
  simp [Yard.setPointState]
@[simp] theorem Yard.setPointState_slots (p : PointIx) (st : PointState) (y : Yard) : (y.setPointState p st).slots = y.slots := by
  simp [Yard.setPointState]
@[simp] theorem Yard.setPointState_pendingList (p : PointIx) (st : PointState) (y : Yard) : (y.setPointState p st).pendingList = y.pendingList := by
  simp [Yard.setPointState]
@[simp] theorem Yard.setPointState_crest (p : PointIx) (st : PointState) (y : Yard) : (y.setPointState p st).crest = y.crest := by
  simp [Yard.setPointState]
@[simp] theorem Yard.setPointState_tracks (p : PointIx) (st : PointState) (y : Yard) : (y.setPointState p st).tracks = y.tracks := by
  simp [Yard.setPointState]
@[simp] theorem Yard.setPointState_windows (p : PointIx) (st : PointState) (y : Yard) : (y.setPointState p st).windows = y.windows := by
  simp [Yard.setPointState]
@[simp] theorem Yard.setPointState_blockMap (p : PointIx) (st : PointState) (y : Yard) : (y.setPointState p st).blockMap = y.blockMap := by
  simp [Yard.setPointState]
@[simp] theorem Yard.setPointState_drive (p : PointIx) (st : PointState) (y : Yard) : (y.setPointState p st).drive = y.drive := by
  simp [Yard.setPointState]
@[simp] theorem Yard.setPointState_slotsInUse (p : PointIx) (st : PointState) (y : Yard) : (y.setPointState p st).slotsInUse = y.slotsInUse := by
  simp [Yard.setPointState]
@[simp] theorem Yard.setPointState_waiting (p : PointIx) (st : PointState) (y : Yard) : (y.setPointState p st).waiting = y.waiting := by
  simp [Yard.setPointState]
@[simp] theorem Yard.setPointState_plans (p : PointIx) (st : PointState) (y : Yard) : (y.setPointState p st).plans = y.plans := by
  simp [Yard.setPointState]
@[simp] theorem Yard.setPointState_control (p : PointIx) (st : PointState) (y : Yard) : (y.setPointState p st).control = y.control := by
  simp [Yard.setPointState]
@[simp] theorem Yard.setPointState_notices (p : PointIx) (st : PointState) (y : Yard) : (y.setPointState p st).notices = y.notices := by
  simp [Yard.setPointState]

/-! ## `modifyPlan` -/

@[simp] theorem Yard.modifyPlan_lead (q : PointIx) (f : Plan → Plan) (y : Yard) : (y.modifyPlan q f).lead = y.lead := by
  unfold Yard.modifyPlan; split <;> rfl
@[simp] theorem Yard.modifyPlan_sections (q : PointIx) (f : Plan → Plan) (y : Yard) : (y.modifyPlan q f).sections = y.sections := by
  unfold Yard.modifyPlan; split <;> rfl
@[simp] theorem Yard.modifyPlan_queues (q : PointIx) (f : Plan → Plan) (y : Yard) : (y.modifyPlan q f).queues = y.queues := by
  unfold Yard.modifyPlan; split <;> rfl
@[simp] theorem Yard.modifyPlan_slots (q : PointIx) (f : Plan → Plan) (y : Yard) : (y.modifyPlan q f).slots = y.slots := by
  unfold Yard.modifyPlan; split <;> rfl
@[simp] theorem Yard.modifyPlan_pendingList (q : PointIx) (f : Plan → Plan) (y : Yard) : (y.modifyPlan q f).pendingList = y.pendingList := by
  unfold Yard.modifyPlan; split <;> rfl
@[simp] theorem Yard.modifyPlan_crest (q : PointIx) (f : Plan → Plan) (y : Yard) : (y.modifyPlan q f).crest = y.crest := by
  unfold Yard.modifyPlan; split <;> rfl
@[simp] theorem Yard.modifyPlan_tracks (q : PointIx) (f : Plan → Plan) (y : Yard) : (y.modifyPlan q f).tracks = y.tracks := by
  unfold Yard.modifyPlan; split <;> rfl
@[simp] theorem Yard.modifyPlan_windows (q : PointIx) (f : Plan → Plan) (y : Yard) : (y.modifyPlan q f).windows = y.windows := by
  unfold Yard.modifyPlan; split <;> rfl
@[simp] theorem Yard.modifyPlan_blockMap (q : PointIx) (f : Plan → Plan) (y : Yard) : (y.modifyPlan q f).blockMap = y.blockMap := by
  unfold Yard.modifyPlan; split <;> rfl
@[simp] theorem Yard.modifyPlan_points (q : PointIx) (f : Plan → Plan) (y : Yard) : (y.modifyPlan q f).points = y.points := by
  unfold Yard.modifyPlan; split <;> rfl
@[simp] theorem Yard.modifyPlan_drive (q : PointIx) (f : Plan → Plan) (y : Yard) : (y.modifyPlan q f).drive = y.drive := by
  unfold Yard.modifyPlan; split <;> rfl
@[simp] theorem Yard.modifyPlan_slotsInUse (q : PointIx) (f : Plan → Plan) (y : Yard) : (y.modifyPlan q f).slotsInUse = y.slotsInUse := by
  unfold Yard.modifyPlan; split <;> rfl
@[simp] theorem Yard.modifyPlan_waiting (q : PointIx) (f : Plan → Plan) (y : Yard) : (y.modifyPlan q f).waiting = y.waiting := by
  unfold Yard.modifyPlan; split <;> rfl
@[simp] theorem Yard.modifyPlan_control (q : PointIx) (f : Plan → Plan) (y : Yard) : (y.modifyPlan q f).control = y.control := by
  unfold Yard.modifyPlan; split <;> rfl
@[simp] theorem Yard.modifyPlan_notices (q : PointIx) (f : Plan → Plan) (y : Yard) : (y.modifyPlan q f).notices = y.notices := by
  unfold Yard.modifyPlan; split <;> rfl

/-! ## `removeWaiting` -/

@[simp] theorem Yard.removeWaiting_lead (p : PointIx) (y : Yard) : (y.removeWaiting p).lead = y.lead := rfl
@[simp] theorem Yard.removeWaiting_sections (p : PointIx) (y : Yard) : (y.removeWaiting p).sections = y.sections := rfl
@[simp] theorem Yard.removeWaiting_queues (p : PointIx) (y : Yard) : (y.removeWaiting p).queues = y.queues := rfl
@[simp] theorem Yard.removeWaiting_slots (p : PointIx) (y : Yard) : (y.removeWaiting p).slots = y.slots := rfl
@[simp] theorem Yard.removeWaiting_pendingList (p : PointIx) (y : Yard) : (y.removeWaiting p).pendingList = y.pendingList := rfl
@[simp] theorem Yard.removeWaiting_crest (p : PointIx) (y : Yard) : (y.removeWaiting p).crest = y.crest := rfl
@[simp] theorem Yard.removeWaiting_tracks (p : PointIx) (y : Yard) : (y.removeWaiting p).tracks = y.tracks := rfl
@[simp] theorem Yard.removeWaiting_windows (p : PointIx) (y : Yard) : (y.removeWaiting p).windows = y.windows := rfl
@[simp] theorem Yard.removeWaiting_blockMap (p : PointIx) (y : Yard) : (y.removeWaiting p).blockMap = y.blockMap := rfl
@[simp] theorem Yard.removeWaiting_points (p : PointIx) (y : Yard) : (y.removeWaiting p).points = y.points := rfl
@[simp] theorem Yard.removeWaiting_drive (p : PointIx) (y : Yard) : (y.removeWaiting p).drive = y.drive := rfl
@[simp] theorem Yard.removeWaiting_slotsInUse (p : PointIx) (y : Yard) : (y.removeWaiting p).slotsInUse = y.slotsInUse := rfl
@[simp] theorem Yard.removeWaiting_plans (p : PointIx) (y : Yard) : (y.removeWaiting p).plans = y.plans := rfl
@[simp] theorem Yard.removeWaiting_control (p : PointIx) (y : Yard) : (y.removeWaiting p).control = y.control := rfl
@[simp] theorem Yard.removeWaiting_notices (p : PointIx) (y : Yard) : (y.removeWaiting p).notices = y.notices := rfl

/-! ## `releaseDrive` -/

@[simp] theorem Yard.releaseDrive_lead (p : PointIx) (y : Yard) : (y.releaseDrive p).lead = y.lead := rfl
@[simp] theorem Yard.releaseDrive_sections (p : PointIx) (y : Yard) : (y.releaseDrive p).sections = y.sections := rfl
@[simp] theorem Yard.releaseDrive_queues (p : PointIx) (y : Yard) : (y.releaseDrive p).queues = y.queues := rfl
@[simp] theorem Yard.releaseDrive_slots (p : PointIx) (y : Yard) : (y.releaseDrive p).slots = y.slots := rfl
@[simp] theorem Yard.releaseDrive_pendingList (p : PointIx) (y : Yard) : (y.releaseDrive p).pendingList = y.pendingList := rfl
@[simp] theorem Yard.releaseDrive_crest (p : PointIx) (y : Yard) : (y.releaseDrive p).crest = y.crest := rfl
@[simp] theorem Yard.releaseDrive_tracks (p : PointIx) (y : Yard) : (y.releaseDrive p).tracks = y.tracks := rfl
@[simp] theorem Yard.releaseDrive_windows (p : PointIx) (y : Yard) : (y.releaseDrive p).windows = y.windows := rfl
@[simp] theorem Yard.releaseDrive_blockMap (p : PointIx) (y : Yard) : (y.releaseDrive p).blockMap = y.blockMap := rfl
@[simp] theorem Yard.releaseDrive_points (p : PointIx) (y : Yard) : (y.releaseDrive p).points = y.points := rfl
@[simp] theorem Yard.releaseDrive_slotsInUse (p : PointIx) (y : Yard) : (y.releaseDrive p).slotsInUse = y.slotsInUse := rfl
@[simp] theorem Yard.releaseDrive_waiting (p : PointIx) (y : Yard) : (y.releaseDrive p).waiting = y.waiting := rfl
@[simp] theorem Yard.releaseDrive_plans (p : PointIx) (y : Yard) : (y.releaseDrive p).plans = y.plans := rfl
@[simp] theorem Yard.releaseDrive_control (p : PointIx) (y : Yard) : (y.releaseDrive p).control = y.control := rfl
@[simp] theorem Yard.releaseDrive_notices (p : PointIx) (y : Yard) : (y.releaseDrive p).notices = y.notices := rfl

/-! ## `energise` -/

@[simp] theorem Yard.energise_lead (p : PointIx) (l : Leg) (y : Yard) : (y.energise p l).lead = y.lead := rfl
@[simp] theorem Yard.energise_sections (p : PointIx) (l : Leg) (y : Yard) : (y.energise p l).sections = y.sections := rfl
@[simp] theorem Yard.energise_queues (p : PointIx) (l : Leg) (y : Yard) : (y.energise p l).queues = y.queues := rfl
@[simp] theorem Yard.energise_slots (p : PointIx) (l : Leg) (y : Yard) : (y.energise p l).slots = y.slots := rfl
@[simp] theorem Yard.energise_pendingList (p : PointIx) (l : Leg) (y : Yard) : (y.energise p l).pendingList = y.pendingList := rfl
@[simp] theorem Yard.energise_crest (p : PointIx) (l : Leg) (y : Yard) : (y.energise p l).crest = y.crest := rfl
@[simp] theorem Yard.energise_tracks (p : PointIx) (l : Leg) (y : Yard) : (y.energise p l).tracks = y.tracks := rfl
@[simp] theorem Yard.energise_windows (p : PointIx) (l : Leg) (y : Yard) : (y.energise p l).windows = y.windows := rfl
@[simp] theorem Yard.energise_blockMap (p : PointIx) (l : Leg) (y : Yard) : (y.energise p l).blockMap = y.blockMap := rfl
@[simp] theorem Yard.energise_points (p : PointIx) (l : Leg) (y : Yard) : (y.energise p l).points = y.points := rfl
@[simp] theorem Yard.energise_slotsInUse (p : PointIx) (l : Leg) (y : Yard) : (y.energise p l).slotsInUse = y.slotsInUse := rfl
@[simp] theorem Yard.energise_waiting (p : PointIx) (l : Leg) (y : Yard) : (y.energise p l).waiting = y.waiting := rfl
@[simp] theorem Yard.energise_plans (p : PointIx) (l : Leg) (y : Yard) : (y.energise p l).plans = y.plans := rfl
@[simp] theorem Yard.energise_control (p : PointIx) (l : Leg) (y : Yard) : (y.energise p l).control = y.control := rfl
@[simp] theorem Yard.energise_notices (p : PointIx) (l : Leg) (y : Yard) : (y.energise p l).notices = y.notices := rfl

/-! ## `modifyTrack` -/

@[simp] theorem Yard.modifyTrack_lead (t : TrackIx) (f : Track → Track) (y : Yard) : (y.modifyTrack t f).lead = y.lead := rfl
@[simp] theorem Yard.modifyTrack_sections (t : TrackIx) (f : Track → Track) (y : Yard) : (y.modifyTrack t f).sections = y.sections := rfl
@[simp] theorem Yard.modifyTrack_queues (t : TrackIx) (f : Track → Track) (y : Yard) : (y.modifyTrack t f).queues = y.queues := rfl
@[simp] theorem Yard.modifyTrack_slots (t : TrackIx) (f : Track → Track) (y : Yard) : (y.modifyTrack t f).slots = y.slots := rfl
@[simp] theorem Yard.modifyTrack_pendingList (t : TrackIx) (f : Track → Track) (y : Yard) : (y.modifyTrack t f).pendingList = y.pendingList := rfl
@[simp] theorem Yard.modifyTrack_crest (t : TrackIx) (f : Track → Track) (y : Yard) : (y.modifyTrack t f).crest = y.crest := rfl
@[simp] theorem Yard.modifyTrack_windows (t : TrackIx) (f : Track → Track) (y : Yard) : (y.modifyTrack t f).windows = y.windows := rfl
@[simp] theorem Yard.modifyTrack_blockMap (t : TrackIx) (f : Track → Track) (y : Yard) : (y.modifyTrack t f).blockMap = y.blockMap := rfl
@[simp] theorem Yard.modifyTrack_points (t : TrackIx) (f : Track → Track) (y : Yard) : (y.modifyTrack t f).points = y.points := rfl
@[simp] theorem Yard.modifyTrack_drive (t : TrackIx) (f : Track → Track) (y : Yard) : (y.modifyTrack t f).drive = y.drive := rfl
@[simp] theorem Yard.modifyTrack_slotsInUse (t : TrackIx) (f : Track → Track) (y : Yard) : (y.modifyTrack t f).slotsInUse = y.slotsInUse := rfl
@[simp] theorem Yard.modifyTrack_waiting (t : TrackIx) (f : Track → Track) (y : Yard) : (y.modifyTrack t f).waiting = y.waiting := rfl
@[simp] theorem Yard.modifyTrack_plans (t : TrackIx) (f : Track → Track) (y : Yard) : (y.modifyTrack t f).plans = y.plans := rfl
@[simp] theorem Yard.modifyTrack_control (t : TrackIx) (f : Track → Track) (y : Yard) : (y.modifyTrack t f).control = y.control := rfl
@[simp] theorem Yard.modifyTrack_notices (t : TrackIx) (f : Track → Track) (y : Yard) : (y.modifyTrack t f).notices = y.notices := rfl

/-! ## `reserve` -/

@[simp] theorem Yard.reserve_lead (t : TrackIx) (n : Nat) (y : Yard) : (y.reserve t n).lead = y.lead := rfl
@[simp] theorem Yard.reserve_sections (t : TrackIx) (n : Nat) (y : Yard) : (y.reserve t n).sections = y.sections := rfl
@[simp] theorem Yard.reserve_queues (t : TrackIx) (n : Nat) (y : Yard) : (y.reserve t n).queues = y.queues := rfl
@[simp] theorem Yard.reserve_slots (t : TrackIx) (n : Nat) (y : Yard) : (y.reserve t n).slots = y.slots := rfl
@[simp] theorem Yard.reserve_pendingList (t : TrackIx) (n : Nat) (y : Yard) : (y.reserve t n).pendingList = y.pendingList := rfl
@[simp] theorem Yard.reserve_crest (t : TrackIx) (n : Nat) (y : Yard) : (y.reserve t n).crest = y.crest := rfl
@[simp] theorem Yard.reserve_windows (t : TrackIx) (n : Nat) (y : Yard) : (y.reserve t n).windows = y.windows := rfl
@[simp] theorem Yard.reserve_blockMap (t : TrackIx) (n : Nat) (y : Yard) : (y.reserve t n).blockMap = y.blockMap := rfl
@[simp] theorem Yard.reserve_points (t : TrackIx) (n : Nat) (y : Yard) : (y.reserve t n).points = y.points := rfl
@[simp] theorem Yard.reserve_drive (t : TrackIx) (n : Nat) (y : Yard) : (y.reserve t n).drive = y.drive := rfl
@[simp] theorem Yard.reserve_slotsInUse (t : TrackIx) (n : Nat) (y : Yard) : (y.reserve t n).slotsInUse = y.slotsInUse := rfl
@[simp] theorem Yard.reserve_waiting (t : TrackIx) (n : Nat) (y : Yard) : (y.reserve t n).waiting = y.waiting := rfl
@[simp] theorem Yard.reserve_plans (t : TrackIx) (n : Nat) (y : Yard) : (y.reserve t n).plans = y.plans := rfl
@[simp] theorem Yard.reserve_control (t : TrackIx) (n : Nat) (y : Yard) : (y.reserve t n).control = y.control := rfl
@[simp] theorem Yard.reserve_notices (t : TrackIx) (n : Nat) (y : Yard) : (y.reserve t n).notices = y.notices := rfl

/-! ## `release` -/

@[simp] theorem Yard.release_lead (t : TrackIx) (n : Nat) (y : Yard) : (y.release t n).lead = y.lead := rfl
@[simp] theorem Yard.release_sections (t : TrackIx) (n : Nat) (y : Yard) : (y.release t n).sections = y.sections := rfl
@[simp] theorem Yard.release_queues (t : TrackIx) (n : Nat) (y : Yard) : (y.release t n).queues = y.queues := rfl
@[simp] theorem Yard.release_slots (t : TrackIx) (n : Nat) (y : Yard) : (y.release t n).slots = y.slots := rfl
@[simp] theorem Yard.release_pendingList (t : TrackIx) (n : Nat) (y : Yard) : (y.release t n).pendingList = y.pendingList := rfl
@[simp] theorem Yard.release_crest (t : TrackIx) (n : Nat) (y : Yard) : (y.release t n).crest = y.crest := rfl
@[simp] theorem Yard.release_windows (t : TrackIx) (n : Nat) (y : Yard) : (y.release t n).windows = y.windows := rfl
@[simp] theorem Yard.release_blockMap (t : TrackIx) (n : Nat) (y : Yard) : (y.release t n).blockMap = y.blockMap := rfl
@[simp] theorem Yard.release_points (t : TrackIx) (n : Nat) (y : Yard) : (y.release t n).points = y.points := rfl
@[simp] theorem Yard.release_drive (t : TrackIx) (n : Nat) (y : Yard) : (y.release t n).drive = y.drive := rfl
@[simp] theorem Yard.release_slotsInUse (t : TrackIx) (n : Nat) (y : Yard) : (y.release t n).slotsInUse = y.slotsInUse := rfl
@[simp] theorem Yard.release_waiting (t : TrackIx) (n : Nat) (y : Yard) : (y.release t n).waiting = y.waiting := rfl
@[simp] theorem Yard.release_plans (t : TrackIx) (n : Nat) (y : Yard) : (y.release t n).plans = y.plans := rfl
@[simp] theorem Yard.release_control (t : TrackIx) (n : Nat) (y : Yard) : (y.release t n).control = y.control := rfl
@[simp] theorem Yard.release_notices (t : TrackIx) (n : Nat) (y : Yard) : (y.release t n).notices = y.notices := rfl

/-! ## `modifyNotices` -/

@[simp] theorem Yard.modifyNotices_lead (f : Notices → Notices) (y : Yard) : (y.modifyNotices f).lead = y.lead := rfl
@[simp] theorem Yard.modifyNotices_sections (f : Notices → Notices) (y : Yard) : (y.modifyNotices f).sections = y.sections := rfl
@[simp] theorem Yard.modifyNotices_queues (f : Notices → Notices) (y : Yard) : (y.modifyNotices f).queues = y.queues := rfl
@[simp] theorem Yard.modifyNotices_slots (f : Notices → Notices) (y : Yard) : (y.modifyNotices f).slots = y.slots := rfl
@[simp] theorem Yard.modifyNotices_pendingList (f : Notices → Notices) (y : Yard) : (y.modifyNotices f).pendingList = y.pendingList := rfl
@[simp] theorem Yard.modifyNotices_crest (f : Notices → Notices) (y : Yard) : (y.modifyNotices f).crest = y.crest := rfl
@[simp] theorem Yard.modifyNotices_tracks (f : Notices → Notices) (y : Yard) : (y.modifyNotices f).tracks = y.tracks := rfl
@[simp] theorem Yard.modifyNotices_windows (f : Notices → Notices) (y : Yard) : (y.modifyNotices f).windows = y.windows := rfl
@[simp] theorem Yard.modifyNotices_blockMap (f : Notices → Notices) (y : Yard) : (y.modifyNotices f).blockMap = y.blockMap := rfl
@[simp] theorem Yard.modifyNotices_points (f : Notices → Notices) (y : Yard) : (y.modifyNotices f).points = y.points := rfl
@[simp] theorem Yard.modifyNotices_drive (f : Notices → Notices) (y : Yard) : (y.modifyNotices f).drive = y.drive := rfl
@[simp] theorem Yard.modifyNotices_slotsInUse (f : Notices → Notices) (y : Yard) : (y.modifyNotices f).slotsInUse = y.slotsInUse := rfl
@[simp] theorem Yard.modifyNotices_waiting (f : Notices → Notices) (y : Yard) : (y.modifyNotices f).waiting = y.waiting := rfl
@[simp] theorem Yard.modifyNotices_plans (f : Notices → Notices) (y : Yard) : (y.modifyNotices f).plans = y.plans := rfl
@[simp] theorem Yard.modifyNotices_control (f : Notices → Notices) (y : Yard) : (y.modifyNotices f).control = y.control := rfl

/-! ## `raise` -/

@[simp] theorem Yard.raise_lead (k : NoticeKey) (n : Nat) (y : Yard) : (y.raise k n).lead = y.lead := rfl
@[simp] theorem Yard.raise_sections (k : NoticeKey) (n : Nat) (y : Yard) : (y.raise k n).sections = y.sections := rfl
@[simp] theorem Yard.raise_queues (k : NoticeKey) (n : Nat) (y : Yard) : (y.raise k n).queues = y.queues := rfl
@[simp] theorem Yard.raise_slots (k : NoticeKey) (n : Nat) (y : Yard) : (y.raise k n).slots = y.slots := rfl
@[simp] theorem Yard.raise_pendingList (k : NoticeKey) (n : Nat) (y : Yard) : (y.raise k n).pendingList = y.pendingList := rfl
@[simp] theorem Yard.raise_crest (k : NoticeKey) (n : Nat) (y : Yard) : (y.raise k n).crest = y.crest := rfl
@[simp] theorem Yard.raise_tracks (k : NoticeKey) (n : Nat) (y : Yard) : (y.raise k n).tracks = y.tracks := rfl
@[simp] theorem Yard.raise_windows (k : NoticeKey) (n : Nat) (y : Yard) : (y.raise k n).windows = y.windows := rfl
@[simp] theorem Yard.raise_blockMap (k : NoticeKey) (n : Nat) (y : Yard) : (y.raise k n).blockMap = y.blockMap := rfl
@[simp] theorem Yard.raise_points (k : NoticeKey) (n : Nat) (y : Yard) : (y.raise k n).points = y.points := rfl
@[simp] theorem Yard.raise_drive (k : NoticeKey) (n : Nat) (y : Yard) : (y.raise k n).drive = y.drive := rfl
@[simp] theorem Yard.raise_slotsInUse (k : NoticeKey) (n : Nat) (y : Yard) : (y.raise k n).slotsInUse = y.slotsInUse := rfl
@[simp] theorem Yard.raise_waiting (k : NoticeKey) (n : Nat) (y : Yard) : (y.raise k n).waiting = y.waiting := rfl
@[simp] theorem Yard.raise_plans (k : NoticeKey) (n : Nat) (y : Yard) : (y.raise k n).plans = y.plans := rfl
@[simp] theorem Yard.raise_control (k : NoticeKey) (n : Nat) (y : Yard) : (y.raise k n).control = y.control := rfl

/-! ## `clearNotice` -/

@[simp] theorem Yard.clearNotice_lead (k : NoticeKey) (y : Yard) : (y.clearNotice k).lead = y.lead := rfl
@[simp] theorem Yard.clearNotice_sections (k : NoticeKey) (y : Yard) : (y.clearNotice k).sections = y.sections := rfl
@[simp] theorem Yard.clearNotice_queues (k : NoticeKey) (y : Yard) : (y.clearNotice k).queues = y.queues := rfl
@[simp] theorem Yard.clearNotice_slots (k : NoticeKey) (y : Yard) : (y.clearNotice k).slots = y.slots := rfl
@[simp] theorem Yard.clearNotice_pendingList (k : NoticeKey) (y : Yard) : (y.clearNotice k).pendingList = y.pendingList := rfl
@[simp] theorem Yard.clearNotice_crest (k : NoticeKey) (y : Yard) : (y.clearNotice k).crest = y.crest := rfl
@[simp] theorem Yard.clearNotice_tracks (k : NoticeKey) (y : Yard) : (y.clearNotice k).tracks = y.tracks := rfl
@[simp] theorem Yard.clearNotice_windows (k : NoticeKey) (y : Yard) : (y.clearNotice k).windows = y.windows := rfl
@[simp] theorem Yard.clearNotice_blockMap (k : NoticeKey) (y : Yard) : (y.clearNotice k).blockMap = y.blockMap := rfl
@[simp] theorem Yard.clearNotice_points (k : NoticeKey) (y : Yard) : (y.clearNotice k).points = y.points := rfl
@[simp] theorem Yard.clearNotice_drive (k : NoticeKey) (y : Yard) : (y.clearNotice k).drive = y.drive := rfl
@[simp] theorem Yard.clearNotice_slotsInUse (k : NoticeKey) (y : Yard) : (y.clearNotice k).slotsInUse = y.slotsInUse := rfl
@[simp] theorem Yard.clearNotice_waiting (k : NoticeKey) (y : Yard) : (y.clearNotice k).waiting = y.waiting := rfl
@[simp] theorem Yard.clearNotice_plans (k : NoticeKey) (y : Yard) : (y.clearNotice k).plans = y.plans := rfl
@[simp] theorem Yard.clearNotice_control (k : NoticeKey) (y : Yard) : (y.clearNotice k).control = y.control := rfl

/-! ## `raiseCut` -/

@[simp] theorem Yard.raiseCut_lead (i : SlotIx) (r : CutReason) (y : Yard) : (y.raiseCut i r).lead = y.lead := rfl
@[simp] theorem Yard.raiseCut_sections (i : SlotIx) (r : CutReason) (y : Yard) : (y.raiseCut i r).sections = y.sections := rfl
@[simp] theorem Yard.raiseCut_queues (i : SlotIx) (r : CutReason) (y : Yard) : (y.raiseCut i r).queues = y.queues := rfl
@[simp] theorem Yard.raiseCut_slots (i : SlotIx) (r : CutReason) (y : Yard) : (y.raiseCut i r).slots = y.slots := rfl
@[simp] theorem Yard.raiseCut_pendingList (i : SlotIx) (r : CutReason) (y : Yard) : (y.raiseCut i r).pendingList = y.pendingList := rfl
@[simp] theorem Yard.raiseCut_crest (i : SlotIx) (r : CutReason) (y : Yard) : (y.raiseCut i r).crest = y.crest := rfl
@[simp] theorem Yard.raiseCut_tracks (i : SlotIx) (r : CutReason) (y : Yard) : (y.raiseCut i r).tracks = y.tracks := rfl
@[simp] theorem Yard.raiseCut_windows (i : SlotIx) (r : CutReason) (y : Yard) : (y.raiseCut i r).windows = y.windows := rfl
@[simp] theorem Yard.raiseCut_blockMap (i : SlotIx) (r : CutReason) (y : Yard) : (y.raiseCut i r).blockMap = y.blockMap := rfl
@[simp] theorem Yard.raiseCut_points (i : SlotIx) (r : CutReason) (y : Yard) : (y.raiseCut i r).points = y.points := rfl
@[simp] theorem Yard.raiseCut_drive (i : SlotIx) (r : CutReason) (y : Yard) : (y.raiseCut i r).drive = y.drive := rfl
@[simp] theorem Yard.raiseCut_slotsInUse (i : SlotIx) (r : CutReason) (y : Yard) : (y.raiseCut i r).slotsInUse = y.slotsInUse := rfl
@[simp] theorem Yard.raiseCut_waiting (i : SlotIx) (r : CutReason) (y : Yard) : (y.raiseCut i r).waiting = y.waiting := rfl
@[simp] theorem Yard.raiseCut_plans (i : SlotIx) (r : CutReason) (y : Yard) : (y.raiseCut i r).plans = y.plans := rfl
@[simp] theorem Yard.raiseCut_control (i : SlotIx) (r : CutReason) (y : Yard) : (y.raiseCut i r).control = y.control := rfl

/-! ## `raisePoint` -/

@[simp] theorem Yard.raisePoint_lead (p : PointIx) (r : PointReason) (y : Yard) : (y.raisePoint p r).lead = y.lead := rfl
@[simp] theorem Yard.raisePoint_sections (p : PointIx) (r : PointReason) (y : Yard) : (y.raisePoint p r).sections = y.sections := rfl
@[simp] theorem Yard.raisePoint_queues (p : PointIx) (r : PointReason) (y : Yard) : (y.raisePoint p r).queues = y.queues := rfl
@[simp] theorem Yard.raisePoint_slots (p : PointIx) (r : PointReason) (y : Yard) : (y.raisePoint p r).slots = y.slots := rfl
@[simp] theorem Yard.raisePoint_pendingList (p : PointIx) (r : PointReason) (y : Yard) : (y.raisePoint p r).pendingList = y.pendingList := rfl
@[simp] theorem Yard.raisePoint_crest (p : PointIx) (r : PointReason) (y : Yard) : (y.raisePoint p r).crest = y.crest := rfl
@[simp] theorem Yard.raisePoint_tracks (p : PointIx) (r : PointReason) (y : Yard) : (y.raisePoint p r).tracks = y.tracks := rfl
@[simp] theorem Yard.raisePoint_windows (p : PointIx) (r : PointReason) (y : Yard) : (y.raisePoint p r).windows = y.windows := rfl
@[simp] theorem Yard.raisePoint_blockMap (p : PointIx) (r : PointReason) (y : Yard) : (y.raisePoint p r).blockMap = y.blockMap := rfl
@[simp] theorem Yard.raisePoint_points (p : PointIx) (r : PointReason) (y : Yard) : (y.raisePoint p r).points = y.points := rfl
@[simp] theorem Yard.raisePoint_drive (p : PointIx) (r : PointReason) (y : Yard) : (y.raisePoint p r).drive = y.drive := rfl
@[simp] theorem Yard.raisePoint_slotsInUse (p : PointIx) (r : PointReason) (y : Yard) : (y.raisePoint p r).slotsInUse = y.slotsInUse := rfl
@[simp] theorem Yard.raisePoint_waiting (p : PointIx) (r : PointReason) (y : Yard) : (y.raisePoint p r).waiting = y.waiting := rfl
@[simp] theorem Yard.raisePoint_plans (p : PointIx) (r : PointReason) (y : Yard) : (y.raisePoint p r).plans = y.plans := rfl
@[simp] theorem Yard.raisePoint_control (p : PointIx) (r : PointReason) (y : Yard) : (y.raisePoint p r).control = y.control := rfl

/-! ## `raiseDevice` -/

@[simp] theorem Yard.raiseDevice_lead (r : DeviceReason) (y : Yard) : (y.raiseDevice r).lead = y.lead := rfl
@[simp] theorem Yard.raiseDevice_sections (r : DeviceReason) (y : Yard) : (y.raiseDevice r).sections = y.sections := rfl
@[simp] theorem Yard.raiseDevice_queues (r : DeviceReason) (y : Yard) : (y.raiseDevice r).queues = y.queues := rfl
@[simp] theorem Yard.raiseDevice_slots (r : DeviceReason) (y : Yard) : (y.raiseDevice r).slots = y.slots := rfl
@[simp] theorem Yard.raiseDevice_pendingList (r : DeviceReason) (y : Yard) : (y.raiseDevice r).pendingList = y.pendingList := rfl
@[simp] theorem Yard.raiseDevice_crest (r : DeviceReason) (y : Yard) : (y.raiseDevice r).crest = y.crest := rfl
@[simp] theorem Yard.raiseDevice_tracks (r : DeviceReason) (y : Yard) : (y.raiseDevice r).tracks = y.tracks := rfl
@[simp] theorem Yard.raiseDevice_windows (r : DeviceReason) (y : Yard) : (y.raiseDevice r).windows = y.windows := rfl
@[simp] theorem Yard.raiseDevice_blockMap (r : DeviceReason) (y : Yard) : (y.raiseDevice r).blockMap = y.blockMap := rfl
@[simp] theorem Yard.raiseDevice_points (r : DeviceReason) (y : Yard) : (y.raiseDevice r).points = y.points := rfl
@[simp] theorem Yard.raiseDevice_drive (r : DeviceReason) (y : Yard) : (y.raiseDevice r).drive = y.drive := rfl
@[simp] theorem Yard.raiseDevice_slotsInUse (r : DeviceReason) (y : Yard) : (y.raiseDevice r).slotsInUse = y.slotsInUse := rfl
@[simp] theorem Yard.raiseDevice_waiting (r : DeviceReason) (y : Yard) : (y.raiseDevice r).waiting = y.waiting := rfl
@[simp] theorem Yard.raiseDevice_plans (r : DeviceReason) (y : Yard) : (y.raiseDevice r).plans = y.plans := rfl
@[simp] theorem Yard.raiseDevice_control (r : DeviceReason) (y : Yard) : (y.raiseDevice r).control = y.control := rfl

/-! ## `raiseDisturbed` -/

@[simp] theorem Yard.raiseDisturbed_lead (sid : SectionId) (y : Yard) : (y.raiseDisturbed sid).lead = y.lead := by
  cases sid <;> rfl
@[simp] theorem Yard.raiseDisturbed_sections (sid : SectionId) (y : Yard) : (y.raiseDisturbed sid).sections = y.sections := by
  cases sid <;> rfl
@[simp] theorem Yard.raiseDisturbed_queues (sid : SectionId) (y : Yard) : (y.raiseDisturbed sid).queues = y.queues := by
  cases sid <;> rfl
@[simp] theorem Yard.raiseDisturbed_slots (sid : SectionId) (y : Yard) : (y.raiseDisturbed sid).slots = y.slots := by
  cases sid <;> rfl
@[simp] theorem Yard.raiseDisturbed_pendingList (sid : SectionId) (y : Yard) : (y.raiseDisturbed sid).pendingList = y.pendingList := by
  cases sid <;> rfl
@[simp] theorem Yard.raiseDisturbed_crest (sid : SectionId) (y : Yard) : (y.raiseDisturbed sid).crest = y.crest := by
  cases sid <;> rfl
@[simp] theorem Yard.raiseDisturbed_tracks (sid : SectionId) (y : Yard) : (y.raiseDisturbed sid).tracks = y.tracks := by
  cases sid <;> rfl
@[simp] theorem Yard.raiseDisturbed_windows (sid : SectionId) (y : Yard) : (y.raiseDisturbed sid).windows = y.windows := by
  cases sid <;> rfl
@[simp] theorem Yard.raiseDisturbed_blockMap (sid : SectionId) (y : Yard) : (y.raiseDisturbed sid).blockMap = y.blockMap := by
  cases sid <;> rfl
@[simp] theorem Yard.raiseDisturbed_points (sid : SectionId) (y : Yard) : (y.raiseDisturbed sid).points = y.points := by
  cases sid <;> rfl
@[simp] theorem Yard.raiseDisturbed_drive (sid : SectionId) (y : Yard) : (y.raiseDisturbed sid).drive = y.drive := by
  cases sid <;> rfl
@[simp] theorem Yard.raiseDisturbed_slotsInUse (sid : SectionId) (y : Yard) : (y.raiseDisturbed sid).slotsInUse = y.slotsInUse := by
  cases sid <;> rfl
@[simp] theorem Yard.raiseDisturbed_waiting (sid : SectionId) (y : Yard) : (y.raiseDisturbed sid).waiting = y.waiting := by
  cases sid <;> rfl
@[simp] theorem Yard.raiseDisturbed_plans (sid : SectionId) (y : Yard) : (y.raiseDisturbed sid).plans = y.plans := by
  cases sid <;> rfl
@[simp] theorem Yard.raiseDisturbed_control (sid : SectionId) (y : Yard) : (y.raiseDisturbed sid).control = y.control := by
  cases sid <;> rfl

/-! ## `raiseStall` -/

@[simp] theorem Yard.raiseStall_lead (sid : SectionId) (y : Yard) : (y.raiseStall sid).lead = y.lead := by
  cases sid <;> rfl
@[simp] theorem Yard.raiseStall_sections (sid : SectionId) (y : Yard) : (y.raiseStall sid).sections = y.sections := by
  cases sid <;> rfl
@[simp] theorem Yard.raiseStall_queues (sid : SectionId) (y : Yard) : (y.raiseStall sid).queues = y.queues := by
  cases sid <;> rfl
@[simp] theorem Yard.raiseStall_slots (sid : SectionId) (y : Yard) : (y.raiseStall sid).slots = y.slots := by
  cases sid <;> rfl
@[simp] theorem Yard.raiseStall_pendingList (sid : SectionId) (y : Yard) : (y.raiseStall sid).pendingList = y.pendingList := by
  cases sid <;> rfl
@[simp] theorem Yard.raiseStall_crest (sid : SectionId) (y : Yard) : (y.raiseStall sid).crest = y.crest := by
  cases sid <;> rfl
@[simp] theorem Yard.raiseStall_tracks (sid : SectionId) (y : Yard) : (y.raiseStall sid).tracks = y.tracks := by
  cases sid <;> rfl
@[simp] theorem Yard.raiseStall_windows (sid : SectionId) (y : Yard) : (y.raiseStall sid).windows = y.windows := by
  cases sid <;> rfl
@[simp] theorem Yard.raiseStall_blockMap (sid : SectionId) (y : Yard) : (y.raiseStall sid).blockMap = y.blockMap := by
  cases sid <;> rfl
@[simp] theorem Yard.raiseStall_points (sid : SectionId) (y : Yard) : (y.raiseStall sid).points = y.points := by
  cases sid <;> rfl
@[simp] theorem Yard.raiseStall_drive (sid : SectionId) (y : Yard) : (y.raiseStall sid).drive = y.drive := by
  cases sid <;> rfl
@[simp] theorem Yard.raiseStall_slotsInUse (sid : SectionId) (y : Yard) : (y.raiseStall sid).slotsInUse = y.slotsInUse := by
  cases sid <;> rfl
@[simp] theorem Yard.raiseStall_waiting (sid : SectionId) (y : Yard) : (y.raiseStall sid).waiting = y.waiting := by
  cases sid <;> rfl
@[simp] theorem Yard.raiseStall_plans (sid : SectionId) (y : Yard) : (y.raiseStall sid).plans = y.plans := by
  cases sid <;> rfl
@[simp] theorem Yard.raiseStall_control (sid : SectionId) (y : Yard) : (y.raiseStall sid).control = y.control := by
  cases sid <;> rfl

/-! ## `modifyControl` -/

@[simp] theorem Yard.modifyControl_lead (f : ModeControl → ModeControl) (y : Yard) : (y.modifyControl f).lead = y.lead := rfl
@[simp] theorem Yard.modifyControl_sections (f : ModeControl → ModeControl) (y : Yard) : (y.modifyControl f).sections = y.sections := rfl
@[simp] theorem Yard.modifyControl_queues (f : ModeControl → ModeControl) (y : Yard) : (y.modifyControl f).queues = y.queues := rfl
@[simp] theorem Yard.modifyControl_slots (f : ModeControl → ModeControl) (y : Yard) : (y.modifyControl f).slots = y.slots := rfl
@[simp] theorem Yard.modifyControl_pendingList (f : ModeControl → ModeControl) (y : Yard) : (y.modifyControl f).pendingList = y.pendingList := rfl
@[simp] theorem Yard.modifyControl_crest (f : ModeControl → ModeControl) (y : Yard) : (y.modifyControl f).crest = y.crest := rfl
@[simp] theorem Yard.modifyControl_tracks (f : ModeControl → ModeControl) (y : Yard) : (y.modifyControl f).tracks = y.tracks := rfl
@[simp] theorem Yard.modifyControl_windows (f : ModeControl → ModeControl) (y : Yard) : (y.modifyControl f).windows = y.windows := rfl
@[simp] theorem Yard.modifyControl_blockMap (f : ModeControl → ModeControl) (y : Yard) : (y.modifyControl f).blockMap = y.blockMap := rfl
@[simp] theorem Yard.modifyControl_points (f : ModeControl → ModeControl) (y : Yard) : (y.modifyControl f).points = y.points := rfl
@[simp] theorem Yard.modifyControl_drive (f : ModeControl → ModeControl) (y : Yard) : (y.modifyControl f).drive = y.drive := rfl
@[simp] theorem Yard.modifyControl_slotsInUse (f : ModeControl → ModeControl) (y : Yard) : (y.modifyControl f).slotsInUse = y.slotsInUse := rfl
@[simp] theorem Yard.modifyControl_waiting (f : ModeControl → ModeControl) (y : Yard) : (y.modifyControl f).waiting = y.waiting := rfl
@[simp] theorem Yard.modifyControl_plans (f : ModeControl → ModeControl) (y : Yard) : (y.modifyControl f).plans = y.plans := rfl
@[simp] theorem Yard.modifyControl_notices (f : ModeControl → ModeControl) (y : Yard) : (y.modifyControl f).notices = y.notices := rfl

/-! ## `enterCause` -/

@[simp] theorem Yard.enterCause_lead (c : HaltCause) (y : Yard) : (y.enterCause c).lead = y.lead := by
  unfold Yard.enterCause; split <;> rfl
@[simp] theorem Yard.enterCause_sections (c : HaltCause) (y : Yard) : (y.enterCause c).sections = y.sections := by
  unfold Yard.enterCause; split <;> rfl
@[simp] theorem Yard.enterCause_queues (c : HaltCause) (y : Yard) : (y.enterCause c).queues = y.queues := by
  unfold Yard.enterCause; split <;> rfl
@[simp] theorem Yard.enterCause_slots (c : HaltCause) (y : Yard) : (y.enterCause c).slots = y.slots := by
  unfold Yard.enterCause; split <;> rfl
@[simp] theorem Yard.enterCause_pendingList (c : HaltCause) (y : Yard) : (y.enterCause c).pendingList = y.pendingList := by
  unfold Yard.enterCause; split <;> rfl
@[simp] theorem Yard.enterCause_crest (c : HaltCause) (y : Yard) : (y.enterCause c).crest = y.crest := by
  unfold Yard.enterCause; split <;> rfl
@[simp] theorem Yard.enterCause_tracks (c : HaltCause) (y : Yard) : (y.enterCause c).tracks = y.tracks := by
  unfold Yard.enterCause; split <;> rfl
@[simp] theorem Yard.enterCause_windows (c : HaltCause) (y : Yard) : (y.enterCause c).windows = y.windows := by
  unfold Yard.enterCause; split <;> rfl
@[simp] theorem Yard.enterCause_blockMap (c : HaltCause) (y : Yard) : (y.enterCause c).blockMap = y.blockMap := by
  unfold Yard.enterCause; split <;> rfl
@[simp] theorem Yard.enterCause_points (c : HaltCause) (y : Yard) : (y.enterCause c).points = y.points := by
  unfold Yard.enterCause; split <;> rfl
@[simp] theorem Yard.enterCause_drive (c : HaltCause) (y : Yard) : (y.enterCause c).drive = y.drive := by
  unfold Yard.enterCause; split <;> rfl
@[simp] theorem Yard.enterCause_slotsInUse (c : HaltCause) (y : Yard) : (y.enterCause c).slotsInUse = y.slotsInUse := by
  unfold Yard.enterCause; split <;> rfl
@[simp] theorem Yard.enterCause_waiting (c : HaltCause) (y : Yard) : (y.enterCause c).waiting = y.waiting := by
  unfold Yard.enterCause; split <;> rfl
@[simp] theorem Yard.enterCause_plans (c : HaltCause) (y : Yard) : (y.enterCause c).plans = y.plans := by
  unfold Yard.enterCause; split <;> rfl

/-! ## `reportDisturbed` -/

@[simp] theorem Yard.reportDisturbed_lead (y : Yard) : (y.reportDisturbed).lead = y.lead := by
  unfold Yard.reportDisturbed; dsimp only; split <;> simp
@[simp] theorem Yard.reportDisturbed_sections (y : Yard) : (y.reportDisturbed).sections = y.sections := by
  unfold Yard.reportDisturbed; dsimp only; split <;> simp
@[simp] theorem Yard.reportDisturbed_queues (y : Yard) : (y.reportDisturbed).queues = y.queues := by
  unfold Yard.reportDisturbed; dsimp only; split <;> simp
@[simp] theorem Yard.reportDisturbed_slots (y : Yard) : (y.reportDisturbed).slots = y.slots := by
  unfold Yard.reportDisturbed; dsimp only; split <;> simp
@[simp] theorem Yard.reportDisturbed_pendingList (y : Yard) : (y.reportDisturbed).pendingList = y.pendingList := by
  unfold Yard.reportDisturbed; dsimp only; split <;> simp
@[simp] theorem Yard.reportDisturbed_crest (y : Yard) : (y.reportDisturbed).crest = y.crest := by
  unfold Yard.reportDisturbed; dsimp only; split <;> simp
@[simp] theorem Yard.reportDisturbed_tracks (y : Yard) : (y.reportDisturbed).tracks = y.tracks := by
  unfold Yard.reportDisturbed; dsimp only; split <;> simp
@[simp] theorem Yard.reportDisturbed_windows (y : Yard) : (y.reportDisturbed).windows = y.windows := by
  unfold Yard.reportDisturbed; dsimp only; split <;> simp
@[simp] theorem Yard.reportDisturbed_blockMap (y : Yard) : (y.reportDisturbed).blockMap = y.blockMap := by
  unfold Yard.reportDisturbed; dsimp only; split <;> simp
@[simp] theorem Yard.reportDisturbed_points (y : Yard) : (y.reportDisturbed).points = y.points := by
  unfold Yard.reportDisturbed; dsimp only; split <;> simp
@[simp] theorem Yard.reportDisturbed_drive (y : Yard) : (y.reportDisturbed).drive = y.drive := by
  unfold Yard.reportDisturbed; dsimp only; split <;> simp
@[simp] theorem Yard.reportDisturbed_slotsInUse (y : Yard) : (y.reportDisturbed).slotsInUse = y.slotsInUse := by
  unfold Yard.reportDisturbed; dsimp only; split <;> simp
@[simp] theorem Yard.reportDisturbed_waiting (y : Yard) : (y.reportDisturbed).waiting = y.waiting := by
  unfold Yard.reportDisturbed; dsimp only; split <;> simp
@[simp] theorem Yard.reportDisturbed_plans (y : Yard) : (y.reportDisturbed).plans = y.plans := by
  unfold Yard.reportDisturbed; dsimp only; split <;> simp

/-! ## `reportLost` -/

@[simp] theorem Yard.reportLost_lead (y : Yard) : (y.reportLost).lead = y.lead := by
  unfold Yard.reportLost; dsimp only; split <;> simp
@[simp] theorem Yard.reportLost_sections (y : Yard) : (y.reportLost).sections = y.sections := by
  unfold Yard.reportLost; dsimp only; split <;> simp
@[simp] theorem Yard.reportLost_queues (y : Yard) : (y.reportLost).queues = y.queues := by
  unfold Yard.reportLost; dsimp only; split <;> simp
@[simp] theorem Yard.reportLost_slots (y : Yard) : (y.reportLost).slots = y.slots := by
  unfold Yard.reportLost; dsimp only; split <;> simp
@[simp] theorem Yard.reportLost_pendingList (y : Yard) : (y.reportLost).pendingList = y.pendingList := by
  unfold Yard.reportLost; dsimp only; split <;> simp
@[simp] theorem Yard.reportLost_crest (y : Yard) : (y.reportLost).crest = y.crest := by
  unfold Yard.reportLost; dsimp only; split <;> simp
@[simp] theorem Yard.reportLost_tracks (y : Yard) : (y.reportLost).tracks = y.tracks := by
  unfold Yard.reportLost; dsimp only; split <;> simp
@[simp] theorem Yard.reportLost_windows (y : Yard) : (y.reportLost).windows = y.windows := by
  unfold Yard.reportLost; dsimp only; split <;> simp
@[simp] theorem Yard.reportLost_blockMap (y : Yard) : (y.reportLost).blockMap = y.blockMap := by
  unfold Yard.reportLost; dsimp only; split <;> simp
@[simp] theorem Yard.reportLost_points (y : Yard) : (y.reportLost).points = y.points := by
  unfold Yard.reportLost; dsimp only; split <;> simp
@[simp] theorem Yard.reportLost_drive (y : Yard) : (y.reportLost).drive = y.drive := by
  unfold Yard.reportLost; dsimp only; split <;> simp
@[simp] theorem Yard.reportLost_slotsInUse (y : Yard) : (y.reportLost).slotsInUse = y.slotsInUse := by
  unfold Yard.reportLost; dsimp only; split <;> simp
@[simp] theorem Yard.reportLost_waiting (y : Yard) : (y.reportLost).waiting = y.waiting := by
  unfold Yard.reportLost; dsimp only; split <;> simp
@[simp] theorem Yard.reportLost_plans (y : Yard) : (y.reportLost).plans = y.plans := by
  unfold Yard.reportLost; dsimp only; split <;> simp

/-! ## `reportStall` -/

@[simp] theorem Yard.reportStall_lead (y : Yard) : (y.reportStall).lead = y.lead := by
  unfold Yard.reportStall; dsimp only; split <;> simp
@[simp] theorem Yard.reportStall_sections (y : Yard) : (y.reportStall).sections = y.sections := by
  unfold Yard.reportStall; dsimp only; split <;> simp
@[simp] theorem Yard.reportStall_queues (y : Yard) : (y.reportStall).queues = y.queues := by
  unfold Yard.reportStall; dsimp only; split <;> simp
@[simp] theorem Yard.reportStall_slots (y : Yard) : (y.reportStall).slots = y.slots := by
  unfold Yard.reportStall; dsimp only; split <;> simp
@[simp] theorem Yard.reportStall_pendingList (y : Yard) : (y.reportStall).pendingList = y.pendingList := by
  unfold Yard.reportStall; dsimp only; split <;> simp
@[simp] theorem Yard.reportStall_crest (y : Yard) : (y.reportStall).crest = y.crest := by
  unfold Yard.reportStall; dsimp only; split <;> simp
@[simp] theorem Yard.reportStall_tracks (y : Yard) : (y.reportStall).tracks = y.tracks := by
  unfold Yard.reportStall; dsimp only; split <;> simp
@[simp] theorem Yard.reportStall_windows (y : Yard) : (y.reportStall).windows = y.windows := by
  unfold Yard.reportStall; dsimp only; split <;> simp
@[simp] theorem Yard.reportStall_blockMap (y : Yard) : (y.reportStall).blockMap = y.blockMap := by
  unfold Yard.reportStall; dsimp only; split <;> simp
@[simp] theorem Yard.reportStall_points (y : Yard) : (y.reportStall).points = y.points := by
  unfold Yard.reportStall; dsimp only; split <;> simp
@[simp] theorem Yard.reportStall_drive (y : Yard) : (y.reportStall).drive = y.drive := by
  unfold Yard.reportStall; dsimp only; split <;> simp
@[simp] theorem Yard.reportStall_slotsInUse (y : Yard) : (y.reportStall).slotsInUse = y.slotsInUse := by
  unfold Yard.reportStall; dsimp only; split <;> simp
@[simp] theorem Yard.reportStall_waiting (y : Yard) : (y.reportStall).waiting = y.waiting := by
  unfold Yard.reportStall; dsimp only; split <;> simp
@[simp] theorem Yard.reportStall_plans (y : Yard) : (y.reportStall).plans = y.plans := by
  unfold Yard.reportStall; dsimp only; split <;> simp

/-! ## `reportUndisturbed` -/

@[simp] theorem Yard.reportUndisturbed_lead (y : Yard) : (y.reportUndisturbed).lead = y.lead := rfl
@[simp] theorem Yard.reportUndisturbed_sections (y : Yard) : (y.reportUndisturbed).sections = y.sections := rfl
@[simp] theorem Yard.reportUndisturbed_queues (y : Yard) : (y.reportUndisturbed).queues = y.queues := rfl
@[simp] theorem Yard.reportUndisturbed_slots (y : Yard) : (y.reportUndisturbed).slots = y.slots := rfl
@[simp] theorem Yard.reportUndisturbed_pendingList (y : Yard) : (y.reportUndisturbed).pendingList = y.pendingList := rfl
@[simp] theorem Yard.reportUndisturbed_crest (y : Yard) : (y.reportUndisturbed).crest = y.crest := rfl
@[simp] theorem Yard.reportUndisturbed_tracks (y : Yard) : (y.reportUndisturbed).tracks = y.tracks := rfl
@[simp] theorem Yard.reportUndisturbed_windows (y : Yard) : (y.reportUndisturbed).windows = y.windows := rfl
@[simp] theorem Yard.reportUndisturbed_blockMap (y : Yard) : (y.reportUndisturbed).blockMap = y.blockMap := rfl
@[simp] theorem Yard.reportUndisturbed_points (y : Yard) : (y.reportUndisturbed).points = y.points := rfl
@[simp] theorem Yard.reportUndisturbed_drive (y : Yard) : (y.reportUndisturbed).drive = y.drive := rfl
@[simp] theorem Yard.reportUndisturbed_slotsInUse (y : Yard) : (y.reportUndisturbed).slotsInUse = y.slotsInUse := rfl
@[simp] theorem Yard.reportUndisturbed_waiting (y : Yard) : (y.reportUndisturbed).waiting = y.waiting := rfl
@[simp] theorem Yard.reportUndisturbed_plans (y : Yard) : (y.reportUndisturbed).plans = y.plans := rfl
@[simp] theorem Yard.reportUndisturbed_notices (y : Yard) : (y.reportUndisturbed).notices = y.notices := rfl

/-! ## `reportRestored` -/

@[simp] theorem Yard.reportRestored_lead (y : Yard) : (y.reportRestored).lead = y.lead := rfl
@[simp] theorem Yard.reportRestored_sections (y : Yard) : (y.reportRestored).sections = y.sections := rfl
@[simp] theorem Yard.reportRestored_queues (y : Yard) : (y.reportRestored).queues = y.queues := rfl
@[simp] theorem Yard.reportRestored_slots (y : Yard) : (y.reportRestored).slots = y.slots := rfl
@[simp] theorem Yard.reportRestored_pendingList (y : Yard) : (y.reportRestored).pendingList = y.pendingList := rfl
@[simp] theorem Yard.reportRestored_crest (y : Yard) : (y.reportRestored).crest = y.crest := rfl
@[simp] theorem Yard.reportRestored_tracks (y : Yard) : (y.reportRestored).tracks = y.tracks := rfl
@[simp] theorem Yard.reportRestored_windows (y : Yard) : (y.reportRestored).windows = y.windows := rfl
@[simp] theorem Yard.reportRestored_blockMap (y : Yard) : (y.reportRestored).blockMap = y.blockMap := rfl
@[simp] theorem Yard.reportRestored_points (y : Yard) : (y.reportRestored).points = y.points := rfl
@[simp] theorem Yard.reportRestored_drive (y : Yard) : (y.reportRestored).drive = y.drive := rfl
@[simp] theorem Yard.reportRestored_slotsInUse (y : Yard) : (y.reportRestored).slotsInUse = y.slotsInUse := rfl
@[simp] theorem Yard.reportRestored_waiting (y : Yard) : (y.reportRestored).waiting = y.waiting := rfl
@[simp] theorem Yard.reportRestored_plans (y : Yard) : (y.reportRestored).plans = y.plans := rfl
@[simp] theorem Yard.reportRestored_notices (y : Yard) : (y.reportRestored).notices = y.notices := rfl

/-! ## `reportUnstalled` -/

@[simp] theorem Yard.reportUnstalled_lead (y : Yard) : (y.reportUnstalled).lead = y.lead := rfl
@[simp] theorem Yard.reportUnstalled_sections (y : Yard) : (y.reportUnstalled).sections = y.sections := rfl
@[simp] theorem Yard.reportUnstalled_queues (y : Yard) : (y.reportUnstalled).queues = y.queues := rfl
@[simp] theorem Yard.reportUnstalled_slots (y : Yard) : (y.reportUnstalled).slots = y.slots := rfl
@[simp] theorem Yard.reportUnstalled_pendingList (y : Yard) : (y.reportUnstalled).pendingList = y.pendingList := rfl
@[simp] theorem Yard.reportUnstalled_crest (y : Yard) : (y.reportUnstalled).crest = y.crest := rfl
@[simp] theorem Yard.reportUnstalled_tracks (y : Yard) : (y.reportUnstalled).tracks = y.tracks := rfl
@[simp] theorem Yard.reportUnstalled_windows (y : Yard) : (y.reportUnstalled).windows = y.windows := rfl
@[simp] theorem Yard.reportUnstalled_blockMap (y : Yard) : (y.reportUnstalled).blockMap = y.blockMap := rfl
@[simp] theorem Yard.reportUnstalled_points (y : Yard) : (y.reportUnstalled).points = y.points := rfl
@[simp] theorem Yard.reportUnstalled_drive (y : Yard) : (y.reportUnstalled).drive = y.drive := rfl
@[simp] theorem Yard.reportUnstalled_slotsInUse (y : Yard) : (y.reportUnstalled).slotsInUse = y.slotsInUse := rfl
@[simp] theorem Yard.reportUnstalled_waiting (y : Yard) : (y.reportUnstalled).waiting = y.waiting := rfl
@[simp] theorem Yard.reportUnstalled_plans (y : Yard) : (y.reportUnstalled).plans = y.plans := rfl
@[simp] theorem Yard.reportUnstalled_notices (y : Yard) : (y.reportUnstalled).notices = y.notices := rfl

/-! ## `clearStallFlag` -/

@[simp] theorem Yard.clearStallFlag_queues (sid : SectionId) (y : Yard) : (y.clearStallFlag sid).queues = y.queues := by
  unfold Yard.clearStallFlag; repeat' split
  all_goals simp [Yard.reportUnstalled]
@[simp] theorem Yard.clearStallFlag_slots (sid : SectionId) (y : Yard) : (y.clearStallFlag sid).slots = y.slots := by
  unfold Yard.clearStallFlag; repeat' split
  all_goals simp [Yard.reportUnstalled]
@[simp] theorem Yard.clearStallFlag_pendingList (sid : SectionId) (y : Yard) : (y.clearStallFlag sid).pendingList = y.pendingList := by
  unfold Yard.clearStallFlag; repeat' split
  all_goals simp [Yard.reportUnstalled]
@[simp] theorem Yard.clearStallFlag_crest (sid : SectionId) (y : Yard) : (y.clearStallFlag sid).crest = y.crest := by
  unfold Yard.clearStallFlag; repeat' split
  all_goals simp [Yard.reportUnstalled]
@[simp] theorem Yard.clearStallFlag_tracks (sid : SectionId) (y : Yard) : (y.clearStallFlag sid).tracks = y.tracks := by
  unfold Yard.clearStallFlag; repeat' split
  all_goals simp [Yard.reportUnstalled]
@[simp] theorem Yard.clearStallFlag_windows (sid : SectionId) (y : Yard) : (y.clearStallFlag sid).windows = y.windows := by
  unfold Yard.clearStallFlag; repeat' split
  all_goals simp [Yard.reportUnstalled]
@[simp] theorem Yard.clearStallFlag_blockMap (sid : SectionId) (y : Yard) : (y.clearStallFlag sid).blockMap = y.blockMap := by
  unfold Yard.clearStallFlag; repeat' split
  all_goals simp [Yard.reportUnstalled]
@[simp] theorem Yard.clearStallFlag_points (sid : SectionId) (y : Yard) : (y.clearStallFlag sid).points = y.points := by
  unfold Yard.clearStallFlag; repeat' split
  all_goals simp [Yard.reportUnstalled]
@[simp] theorem Yard.clearStallFlag_drive (sid : SectionId) (y : Yard) : (y.clearStallFlag sid).drive = y.drive := by
  unfold Yard.clearStallFlag; repeat' split
  all_goals simp [Yard.reportUnstalled]
@[simp] theorem Yard.clearStallFlag_slotsInUse (sid : SectionId) (y : Yard) : (y.clearStallFlag sid).slotsInUse = y.slotsInUse := by
  unfold Yard.clearStallFlag; repeat' split
  all_goals simp [Yard.reportUnstalled]
@[simp] theorem Yard.clearStallFlag_waiting (sid : SectionId) (y : Yard) : (y.clearStallFlag sid).waiting = y.waiting := by
  unfold Yard.clearStallFlag; repeat' split
  all_goals simp [Yard.reportUnstalled]
@[simp] theorem Yard.clearStallFlag_plans (sid : SectionId) (y : Yard) : (y.clearStallFlag sid).plans = y.plans := by
  unfold Yard.clearStallFlag; repeat' split
  all_goals simp [Yard.reportUnstalled]
@[simp] theorem Yard.clearStallFlag_notices (sid : SectionId) (y : Yard) : (y.clearStallFlag sid).notices = y.notices := by
  unfold Yard.clearStallFlag; repeat' split
  all_goals simp [Yard.reportUnstalled]

/-! ## `modifyCrest` -/

@[simp] theorem Yard.modifyCrest_lead (f : Crest → Crest) (y : Yard) : (y.modifyCrest f).lead = y.lead := rfl
@[simp] theorem Yard.modifyCrest_sections (f : Crest → Crest) (y : Yard) : (y.modifyCrest f).sections = y.sections := rfl
@[simp] theorem Yard.modifyCrest_queues (f : Crest → Crest) (y : Yard) : (y.modifyCrest f).queues = y.queues := rfl
@[simp] theorem Yard.modifyCrest_slots (f : Crest → Crest) (y : Yard) : (y.modifyCrest f).slots = y.slots := rfl
@[simp] theorem Yard.modifyCrest_pendingList (f : Crest → Crest) (y : Yard) : (y.modifyCrest f).pendingList = y.pendingList := rfl
@[simp] theorem Yard.modifyCrest_tracks (f : Crest → Crest) (y : Yard) : (y.modifyCrest f).tracks = y.tracks := rfl
@[simp] theorem Yard.modifyCrest_windows (f : Crest → Crest) (y : Yard) : (y.modifyCrest f).windows = y.windows := rfl
@[simp] theorem Yard.modifyCrest_blockMap (f : Crest → Crest) (y : Yard) : (y.modifyCrest f).blockMap = y.blockMap := rfl
@[simp] theorem Yard.modifyCrest_points (f : Crest → Crest) (y : Yard) : (y.modifyCrest f).points = y.points := rfl
@[simp] theorem Yard.modifyCrest_drive (f : Crest → Crest) (y : Yard) : (y.modifyCrest f).drive = y.drive := rfl
@[simp] theorem Yard.modifyCrest_slotsInUse (f : Crest → Crest) (y : Yard) : (y.modifyCrest f).slotsInUse = y.slotsInUse := rfl
@[simp] theorem Yard.modifyCrest_waiting (f : Crest → Crest) (y : Yard) : (y.modifyCrest f).waiting = y.waiting := rfl
@[simp] theorem Yard.modifyCrest_plans (f : Crest → Crest) (y : Yard) : (y.modifyCrest f).plans = y.plans := rfl
@[simp] theorem Yard.modifyCrest_control (f : Crest → Crest) (y : Yard) : (y.modifyCrest f).control = y.control := rfl
@[simp] theorem Yard.modifyCrest_notices (f : Crest → Crest) (y : Yard) : (y.modifyCrest f).notices = y.notices := rfl

/-! ## `putMap` -/

@[simp] theorem Yard.putMap_lead (i : Fin 32) (m : Option MapEntry) (y : Yard) : (y.putMap i m).lead = y.lead := rfl
@[simp] theorem Yard.putMap_sections (i : Fin 32) (m : Option MapEntry) (y : Yard) : (y.putMap i m).sections = y.sections := rfl
@[simp] theorem Yard.putMap_queues (i : Fin 32) (m : Option MapEntry) (y : Yard) : (y.putMap i m).queues = y.queues := rfl
@[simp] theorem Yard.putMap_slots (i : Fin 32) (m : Option MapEntry) (y : Yard) : (y.putMap i m).slots = y.slots := rfl
@[simp] theorem Yard.putMap_pendingList (i : Fin 32) (m : Option MapEntry) (y : Yard) : (y.putMap i m).pendingList = y.pendingList := rfl
@[simp] theorem Yard.putMap_crest (i : Fin 32) (m : Option MapEntry) (y : Yard) : (y.putMap i m).crest = y.crest := rfl
@[simp] theorem Yard.putMap_tracks (i : Fin 32) (m : Option MapEntry) (y : Yard) : (y.putMap i m).tracks = y.tracks := rfl
@[simp] theorem Yard.putMap_windows (i : Fin 32) (m : Option MapEntry) (y : Yard) : (y.putMap i m).windows = y.windows := rfl
@[simp] theorem Yard.putMap_points (i : Fin 32) (m : Option MapEntry) (y : Yard) : (y.putMap i m).points = y.points := rfl
@[simp] theorem Yard.putMap_drive (i : Fin 32) (m : Option MapEntry) (y : Yard) : (y.putMap i m).drive = y.drive := rfl
@[simp] theorem Yard.putMap_slotsInUse (i : Fin 32) (m : Option MapEntry) (y : Yard) : (y.putMap i m).slotsInUse = y.slotsInUse := rfl
@[simp] theorem Yard.putMap_waiting (i : Fin 32) (m : Option MapEntry) (y : Yard) : (y.putMap i m).waiting = y.waiting := rfl
@[simp] theorem Yard.putMap_plans (i : Fin 32) (m : Option MapEntry) (y : Yard) : (y.putMap i m).plans = y.plans := rfl
@[simp] theorem Yard.putMap_control (i : Fin 32) (m : Option MapEntry) (y : Yard) : (y.putMap i m).control = y.control := rfl
@[simp] theorem Yard.putMap_notices (i : Fin 32) (m : Option MapEntry) (y : Yard) : (y.putMap i m).notices = y.notices := rfl

/-! ## `putWindow` -/

@[simp] theorem Yard.putWindow_lead (i : Fin 4) (w : Window) (y : Yard) : (y.putWindow i w).lead = y.lead := rfl
@[simp] theorem Yard.putWindow_sections (i : Fin 4) (w : Window) (y : Yard) : (y.putWindow i w).sections = y.sections := rfl
@[simp] theorem Yard.putWindow_queues (i : Fin 4) (w : Window) (y : Yard) : (y.putWindow i w).queues = y.queues := rfl
@[simp] theorem Yard.putWindow_slots (i : Fin 4) (w : Window) (y : Yard) : (y.putWindow i w).slots = y.slots := rfl
@[simp] theorem Yard.putWindow_pendingList (i : Fin 4) (w : Window) (y : Yard) : (y.putWindow i w).pendingList = y.pendingList := rfl
@[simp] theorem Yard.putWindow_crest (i : Fin 4) (w : Window) (y : Yard) : (y.putWindow i w).crest = y.crest := rfl
@[simp] theorem Yard.putWindow_tracks (i : Fin 4) (w : Window) (y : Yard) : (y.putWindow i w).tracks = y.tracks := rfl
@[simp] theorem Yard.putWindow_blockMap (i : Fin 4) (w : Window) (y : Yard) : (y.putWindow i w).blockMap = y.blockMap := rfl
@[simp] theorem Yard.putWindow_points (i : Fin 4) (w : Window) (y : Yard) : (y.putWindow i w).points = y.points := rfl
@[simp] theorem Yard.putWindow_drive (i : Fin 4) (w : Window) (y : Yard) : (y.putWindow i w).drive = y.drive := rfl
@[simp] theorem Yard.putWindow_slotsInUse (i : Fin 4) (w : Window) (y : Yard) : (y.putWindow i w).slotsInUse = y.slotsInUse := rfl
@[simp] theorem Yard.putWindow_waiting (i : Fin 4) (w : Window) (y : Yard) : (y.putWindow i w).waiting = y.waiting := rfl
@[simp] theorem Yard.putWindow_plans (i : Fin 4) (w : Window) (y : Yard) : (y.putWindow i w).plans = y.plans := rfl
@[simp] theorem Yard.putWindow_control (i : Fin 4) (w : Window) (y : Yard) : (y.putWindow i w).control = y.control := rfl
@[simp] theorem Yard.putWindow_notices (i : Fin 4) (w : Window) (y : Yard) : (y.putWindow i w).notices = y.notices := rfl

/-! ## `removeOccupant` -/

@[simp] theorem Yard.removeOccupant_queues (sid : SectionId) (i : SlotIx) (y : Yard) : (y.removeOccupant sid i).queues = y.queues := by
  simp [Yard.removeOccupant]
@[simp] theorem Yard.removeOccupant_slots (sid : SectionId) (i : SlotIx) (y : Yard) : (y.removeOccupant sid i).slots = y.slots := by
  simp [Yard.removeOccupant]
@[simp] theorem Yard.removeOccupant_pendingList (sid : SectionId) (i : SlotIx) (y : Yard) : (y.removeOccupant sid i).pendingList = y.pendingList := by
  simp [Yard.removeOccupant]
@[simp] theorem Yard.removeOccupant_crest (sid : SectionId) (i : SlotIx) (y : Yard) : (y.removeOccupant sid i).crest = y.crest := by
  simp [Yard.removeOccupant]
@[simp] theorem Yard.removeOccupant_tracks (sid : SectionId) (i : SlotIx) (y : Yard) : (y.removeOccupant sid i).tracks = y.tracks := by
  simp [Yard.removeOccupant]
@[simp] theorem Yard.removeOccupant_windows (sid : SectionId) (i : SlotIx) (y : Yard) : (y.removeOccupant sid i).windows = y.windows := by
  simp [Yard.removeOccupant]
@[simp] theorem Yard.removeOccupant_blockMap (sid : SectionId) (i : SlotIx) (y : Yard) : (y.removeOccupant sid i).blockMap = y.blockMap := by
  simp [Yard.removeOccupant]
@[simp] theorem Yard.removeOccupant_points (sid : SectionId) (i : SlotIx) (y : Yard) : (y.removeOccupant sid i).points = y.points := by
  simp [Yard.removeOccupant]
@[simp] theorem Yard.removeOccupant_drive (sid : SectionId) (i : SlotIx) (y : Yard) : (y.removeOccupant sid i).drive = y.drive := by
  simp [Yard.removeOccupant]
@[simp] theorem Yard.removeOccupant_slotsInUse (sid : SectionId) (i : SlotIx) (y : Yard) : (y.removeOccupant sid i).slotsInUse = y.slotsInUse := by
  simp [Yard.removeOccupant]
@[simp] theorem Yard.removeOccupant_waiting (sid : SectionId) (i : SlotIx) (y : Yard) : (y.removeOccupant sid i).waiting = y.waiting := by
  simp [Yard.removeOccupant]
@[simp] theorem Yard.removeOccupant_plans (sid : SectionId) (i : SlotIx) (y : Yard) : (y.removeOccupant sid i).plans = y.plans := by
  simp [Yard.removeOccupant]
@[simp] theorem Yard.removeOccupant_control (sid : SectionId) (i : SlotIx) (y : Yard) : (y.removeOccupant sid i).control = y.control := by
  simp [Yard.removeOccupant]
@[simp] theorem Yard.removeOccupant_notices (sid : SectionId) (i : SlotIx) (y : Yard) : (y.removeOccupant sid i).notices = y.notices := by
  simp [Yard.removeOccupant]

/-! ## `raiseRaw` -/

@[simp] theorem Yard.raiseRaw_queues (sid : SectionId) (y : Yard) : (y.raiseRaw sid).queues = y.queues := by
  simp [Yard.raiseRaw]
@[simp] theorem Yard.raiseRaw_slots (sid : SectionId) (y : Yard) : (y.raiseRaw sid).slots = y.slots := by
  simp [Yard.raiseRaw]
@[simp] theorem Yard.raiseRaw_pendingList (sid : SectionId) (y : Yard) : (y.raiseRaw sid).pendingList = y.pendingList := by
  simp [Yard.raiseRaw]
@[simp] theorem Yard.raiseRaw_crest (sid : SectionId) (y : Yard) : (y.raiseRaw sid).crest = y.crest := by
  simp [Yard.raiseRaw]
@[simp] theorem Yard.raiseRaw_tracks (sid : SectionId) (y : Yard) : (y.raiseRaw sid).tracks = y.tracks := by
  simp [Yard.raiseRaw]
@[simp] theorem Yard.raiseRaw_windows (sid : SectionId) (y : Yard) : (y.raiseRaw sid).windows = y.windows := by
  simp [Yard.raiseRaw]
@[simp] theorem Yard.raiseRaw_blockMap (sid : SectionId) (y : Yard) : (y.raiseRaw sid).blockMap = y.blockMap := by
  simp [Yard.raiseRaw]
@[simp] theorem Yard.raiseRaw_points (sid : SectionId) (y : Yard) : (y.raiseRaw sid).points = y.points := by
  simp [Yard.raiseRaw]
@[simp] theorem Yard.raiseRaw_drive (sid : SectionId) (y : Yard) : (y.raiseRaw sid).drive = y.drive := by
  simp [Yard.raiseRaw]
@[simp] theorem Yard.raiseRaw_slotsInUse (sid : SectionId) (y : Yard) : (y.raiseRaw sid).slotsInUse = y.slotsInUse := by
  simp [Yard.raiseRaw]
@[simp] theorem Yard.raiseRaw_waiting (sid : SectionId) (y : Yard) : (y.raiseRaw sid).waiting = y.waiting := by
  simp [Yard.raiseRaw]
@[simp] theorem Yard.raiseRaw_plans (sid : SectionId) (y : Yard) : (y.raiseRaw sid).plans = y.plans := by
  simp [Yard.raiseRaw]
@[simp] theorem Yard.raiseRaw_control (sid : SectionId) (y : Yard) : (y.raiseRaw sid).control = y.control := by
  simp [Yard.raiseRaw]
@[simp] theorem Yard.raiseRaw_notices (sid : SectionId) (y : Yard) : (y.raiseRaw sid).notices = y.notices := by
  simp [Yard.raiseRaw]

/-! ## `lowerRaw` -/

@[simp] theorem Yard.lowerRaw_queues (sid : SectionId) (y : Yard) : (y.lowerRaw sid).queues = y.queues := by
  simp [Yard.lowerRaw]
@[simp] theorem Yard.lowerRaw_slots (sid : SectionId) (y : Yard) : (y.lowerRaw sid).slots = y.slots := by
  simp [Yard.lowerRaw]
@[simp] theorem Yard.lowerRaw_pendingList (sid : SectionId) (y : Yard) : (y.lowerRaw sid).pendingList = y.pendingList := by
  simp [Yard.lowerRaw]
@[simp] theorem Yard.lowerRaw_crest (sid : SectionId) (y : Yard) : (y.lowerRaw sid).crest = y.crest := by
  simp [Yard.lowerRaw]
@[simp] theorem Yard.lowerRaw_tracks (sid : SectionId) (y : Yard) : (y.lowerRaw sid).tracks = y.tracks := by
  simp [Yard.lowerRaw]
@[simp] theorem Yard.lowerRaw_windows (sid : SectionId) (y : Yard) : (y.lowerRaw sid).windows = y.windows := by
  simp [Yard.lowerRaw]
@[simp] theorem Yard.lowerRaw_blockMap (sid : SectionId) (y : Yard) : (y.lowerRaw sid).blockMap = y.blockMap := by
  simp [Yard.lowerRaw]
@[simp] theorem Yard.lowerRaw_points (sid : SectionId) (y : Yard) : (y.lowerRaw sid).points = y.points := by
  simp [Yard.lowerRaw]
@[simp] theorem Yard.lowerRaw_drive (sid : SectionId) (y : Yard) : (y.lowerRaw sid).drive = y.drive := by
  simp [Yard.lowerRaw]
@[simp] theorem Yard.lowerRaw_slotsInUse (sid : SectionId) (y : Yard) : (y.lowerRaw sid).slotsInUse = y.slotsInUse := by
  simp [Yard.lowerRaw]
@[simp] theorem Yard.lowerRaw_waiting (sid : SectionId) (y : Yard) : (y.lowerRaw sid).waiting = y.waiting := by
  simp [Yard.lowerRaw]
@[simp] theorem Yard.lowerRaw_plans (sid : SectionId) (y : Yard) : (y.lowerRaw sid).plans = y.plans := by
  simp [Yard.lowerRaw]
@[simp] theorem Yard.lowerRaw_control (sid : SectionId) (y : Yard) : (y.lowerRaw sid).control = y.control := by
  simp [Yard.lowerRaw]
@[simp] theorem Yard.lowerRaw_notices (sid : SectionId) (y : Yard) : (y.lowerRaw sid).notices = y.notices := by
  simp [Yard.lowerRaw]

/-! ## Mode control: what a report leaves alone -/

@[simp] theorem Yard.enterCause_control_disturbed (c : HaltCause) (y : Yard) : (y.enterCause c).control.disturbed = y.control.disturbed := by
  unfold Yard.enterCause; split <;> rfl
@[simp] theorem Yard.enterCause_control_lost (c : HaltCause) (y : Yard) : (y.enterCause c).control.lost = y.control.lost := by
  unfold Yard.enterCause; split <;> rfl
@[simp] theorem Yard.enterCause_control_stall (c : HaltCause) (y : Yard) : (y.enterCause c).control.stall = y.control.stall := by
  unfold Yard.enterCause; split <;> rfl
@[simp] theorem Yard.enterCause_control_stopFlag (c : HaltCause) (y : Yard) : (y.enterCause c).control.stopFlag = y.control.stopFlag := by
  unfold Yard.enterCause; split <;> rfl
@[simp] theorem Yard.enterCause_control_freezeFlag (c : HaltCause) (y : Yard) : (y.enterCause c).control.freezeFlag = y.control.freezeFlag := by
  unfold Yard.enterCause; split <;> rfl
@[simp] theorem Yard.reportDisturbed_control_disturbed (y : Yard) : y.reportDisturbed.control.disturbed = y.control.disturbed + 1 := by
  unfold Yard.reportDisturbed; dsimp only; split <;> simp [Yard.modifyControl]
@[simp] theorem Yard.reportDisturbed_control_lost (y : Yard) : y.reportDisturbed.control.lost = y.control.lost := by
  unfold Yard.reportDisturbed; dsimp only; split <;> simp [Yard.modifyControl]
@[simp] theorem Yard.reportDisturbed_control_stall (y : Yard) : y.reportDisturbed.control.stall = y.control.stall := by
  unfold Yard.reportDisturbed; dsimp only; split <;> simp [Yard.modifyControl]
@[simp] theorem Yard.reportDisturbed_control_stopFlag (y : Yard) : y.reportDisturbed.control.stopFlag = y.control.stopFlag := by
  unfold Yard.reportDisturbed; dsimp only; split <;> simp [Yard.modifyControl]
@[simp] theorem Yard.reportDisturbed_control_freezeFlag (y : Yard) : y.reportDisturbed.control.freezeFlag = y.control.freezeFlag := by
  unfold Yard.reportDisturbed; dsimp only; split <;> simp [Yard.modifyControl]
@[simp] theorem Yard.reportLost_control_disturbed (y : Yard) : y.reportLost.control.disturbed = y.control.disturbed := by
  unfold Yard.reportLost; dsimp only; split <;> simp [Yard.modifyControl]
@[simp] theorem Yard.reportLost_control_lost (y : Yard) : y.reportLost.control.lost = y.control.lost + 1 := by
  unfold Yard.reportLost; dsimp only; split <;> simp [Yard.modifyControl]
@[simp] theorem Yard.reportLost_control_stall (y : Yard) : y.reportLost.control.stall = y.control.stall := by
  unfold Yard.reportLost; dsimp only; split <;> simp [Yard.modifyControl]
@[simp] theorem Yard.reportLost_control_stopFlag (y : Yard) : y.reportLost.control.stopFlag = y.control.stopFlag := by
  unfold Yard.reportLost; dsimp only; split <;> simp [Yard.modifyControl]
@[simp] theorem Yard.reportLost_control_freezeFlag (y : Yard) : y.reportLost.control.freezeFlag = y.control.freezeFlag := by
  unfold Yard.reportLost; dsimp only; split <;> simp [Yard.modifyControl]
@[simp] theorem Yard.reportStall_control_disturbed (y : Yard) : y.reportStall.control.disturbed = y.control.disturbed := by
  unfold Yard.reportStall; dsimp only; split <;> simp [Yard.modifyControl]
@[simp] theorem Yard.reportStall_control_lost (y : Yard) : y.reportStall.control.lost = y.control.lost := by
  unfold Yard.reportStall; dsimp only; split <;> simp [Yard.modifyControl]
@[simp] theorem Yard.reportStall_control_stall (y : Yard) : y.reportStall.control.stall = y.control.stall + 1 := by
  unfold Yard.reportStall; dsimp only; split <;> simp [Yard.modifyControl]
@[simp] theorem Yard.reportStall_control_stopFlag (y : Yard) : y.reportStall.control.stopFlag = y.control.stopFlag := by
  unfold Yard.reportStall; dsimp only; split <;> simp [Yard.modifyControl]
@[simp] theorem Yard.reportStall_control_freezeFlag (y : Yard) : y.reportStall.control.freezeFlag = y.control.freezeFlag := by
  unfold Yard.reportStall; dsimp only; split <;> simp [Yard.modifyControl]

/-! ## Lines, heads and the memories of 2^31 elapsed ticks -/

@[simp] theorem Line.restarted_sampled (r : Role) (a : Level) (c : FilterClass) (v : Level) (l : Line) :
    (l.restarted r a c v).sampled = l.sampled := rfl
@[simp] theorem Line.restarted_everSampled (r : Role) (a : Level) (c : FilterClass) (v : Level) (l : Line) :
    (l.restarted r a c v).everSampled = l.everSampled := rfl
@[simp] theorem Line.restarted_role (r : Role) (a : Level) (c : FilterClass) (v : Level) (l : Line) :
    (l.restarted r a c v).role = r := rfl
@[simp] theorem Line.restarted_due (r : Role) (a : Level) (c : FilterClass) (v : Level) (l : Line) :
    (l.restarted r a c v).due = false := rfl
@[simp] theorem Line.restarted_agreement (r : Role) (a : Level) (c : FilterClass) (v : Level) (l : Line) :
    (l.restarted r a c v).agreement = 0 := rfl
@[simp] theorem Head.tick_state (now : Instant) (h : Head) : (h.tick now).state = h.state := rfl
@[simp] theorem Head.tick_condition (now : Instant) (h : Head) : (h.tick now).condition = h.condition := rfl
@[simp] theorem Head.tick_first (now : Instant) (h : Head) : (h.tick now).first = h.first := rfl
@[simp] theorem Head.tick_gap (now : Instant) (h : Head) : (h.tick now).gap = h.gap := rfl
@[simp] theorem Head.tick_timer (now : Instant) (h : Head) : (h.tick now).timer = h.timer := rfl
@[simp] theorem Head.tick_fault (now : Instant) (h : Head) : (h.tick now).fault = h.fault := rfl
@[simp] theorem Head.tick_last (now : Instant) (h : Head) : (h.tick now).last = h.last := rfl
@[simp] theorem GapTimer.tick_origin (now : Instant) (t : GapTimer) : (t.tick now).origin = t.origin := rfl
@[simp] theorem GapTimer.tick_expiry (now : Instant) (t : GapTimer) : (t.tick now).expiry = t.expiry := rfl
@[simp] theorem Passage.entryOf_slot (p : Passage) (i : SlotIx) : (p.entryOf i).slot = i := rfl
@[simp] theorem Passage.entryOf_longAgo (p : Passage) (i : SlotIx) : (p.entryOf i).longAgo = p.longAgo := rfl
@[simp] theorem Section.relist_state (l : List Occupant) (x : Section) : (x.relist l).state = x.state := rfl
@[simp] theorem Section.relist_occupants (l : List Occupant) (x : Section) : (x.relist l).occupants = l := rfl
@[simp] theorem Section.relist_count (l : List Occupant) (x : Section) : (x.relist l).count = axleCount l := rfl
@[simp] theorem Section.relist_stallTimer (l : List Occupant) (x : Section) : (x.relist l).stallTimer = x.stallTimer := rfl
@[simp] theorem Section.relist_stallFlag (l : List Occupant) (x : Section) : (x.relist l).stallFlag = x.stallFlag := rfl
@[simp] theorem Section.relist_stallLimit (l : List Occupant) (x : Section) : (x.relist l).stallLimit = x.stallLimit := rfl
@[simp] theorem Section.relist_cause (l : List Occupant) (x : Section) : (x.relist l).cause = x.cause := rfl

end Sys2Proof.Machine
end

