-- ==== Sys2Proof/Laws/Records.lean ====
section
/-! SUPPORT. What reading a record gives after each named update: one lemma for each reader and update. -/

namespace Sys2Proof.Machine

open Sys2Proof

/-! ## Sections -/

theorem Yard.sectionOf_putSection (sid sid' : SectionId) (x : Option Section) (y : Yard) :
    (y.putSection sid x).sectionOf sid' = if sid = sid' then x else y.sectionOf sid' := by
  cases sid <;> cases sid' <;> simp [Yard.putSection, Yard.sectionOf, Table.look_put]

theorem Yard.sectionOf_modifySection (sid sid' : SectionId) (f : Section → Section) (y : Yard) :
    (y.modifySection sid f).sectionOf sid' =
      if sid = sid' then (y.sectionOf sid').map f else y.sectionOf sid' := by
  unfold Yard.modifySection
  split
  · next x h =>
    rw [Yard.sectionOf_putSection]
    split
    · next e => subst e; simp [h]
    · rfl
  · next h =>
    split
    · next e => subst e; simp [h]
    · rfl

/-- A reader of sections depends on the lead and the sections alone. -/
theorem Yard.sectionOf_congr {y z : Yard} (hl : z.lead = y.lead) (hs : z.sections = y.sections) (sid : SectionId) :
    z.sectionOf sid = y.sectionOf sid := by
  cases sid <;> simp [Yard.sectionOf, hl, hs]

/-! ## Queues, slots, cuts -/

theorem Yard.queueOf_putQueue (q r : PointIx) (l : List QueueEntry) (y : Yard) :
    (y.putQueue q l).queueOf r = if q = r then l else y.queueOf r := by
  simp [Yard.putQueue, Yard.queueOf, Table.look_put]

theorem Yard.look_putSlot (i j : SlotIx) (r : Option Record) (y : Yard) :
    Table.look (y.putSlot i r).slots j = if i = j then r else Table.look y.slots j := by
  simp [Yard.putSlot, Table.look_put]

theorem Yard.cutAt_putSlot_cut (i j : SlotIx) (c : Cut) (y : Yard) :
    (y.putSlot i (some (.cut c))).cutAt j = if i = j then some c else y.cutAt j := by
  unfold Yard.cutAt
  rw [Yard.look_putSlot]
  by_cases e : i = j <;> simp [e]

theorem Yard.cutAt_putSlot_none (i j : SlotIx) (y : Yard) :
    (y.putSlot i none).cutAt j = if i = j then none else y.cutAt j := by
  unfold Yard.cutAt
  rw [Yard.look_putSlot]
  by_cases e : i = j <;> simp [e]

theorem Yard.cutAt_putSlot_hold (i j : SlotIx) (n : Word16) (b : Bool) (y : Yard) :
    (y.putSlot i (some (.hold n b))).cutAt j = if i = j then none else y.cutAt j := by
  unfold Yard.cutAt
  rw [Yard.look_putSlot]
  by_cases e : i = j <;> simp [e]

theorem Yard.cutAt_modifyCut (i j : SlotIx) (f : Cut → Cut) (y : Yard) :
    (y.modifyCut i f).cutAt j = if i = j then (y.cutAt j).map f else y.cutAt j := by
  unfold Yard.modifyCut
  split
  · next c h =>
    rw [Yard.cutAt_putSlot_cut]
    split
    · next e => subst e; simp [h]
    · rfl
  · next h =>
    split
    · next e => subst e; simp [h]
    · rfl

theorem Yard.cutAt_modifyStarted (i j : SlotIx) (f : Started → Started) (y : Yard) :
    (y.modifyStarted i f).cutAt j =
      if i = j then (y.cutAt j).map (fun c => { c with started := c.started.map f }) else y.cutAt j := by
  rw [Yard.modifyStarted, Yard.cutAt_modifyCut]

/-- A reader of cuts depends on the slots alone. -/
theorem Yard.cutAt_congr {y z : Yard} (h : z.slots = y.slots) (i : SlotIx) : z.cutAt i = y.cutAt i := by
  simp [Yard.cutAt, h]

/-! ## Points, plans, the waiting list -/

theorem Yard.pointOf_modifyPoint (p q : PointIx) (f : Point → Point) (y : Yard) :
    (y.modifyPoint p f).pointOf q = if p = q then (y.pointOf q).map f else y.pointOf q := by
  unfold Yard.modifyPoint
  split
  · next x h =>
    by_cases e : p = q
    · subst e; simp [Yard.pointOf] at *; simp [h]
    · simp [Yard.pointOf, Table.look_put, e]
  · next h =>
    split
    · next e => subst e; simp [h]
    · rfl

theorem Yard.pointStateOf_setPointState (p q : PointIx) (st : PointState) (y : Yard) :
    (y.setPointState p st).pointStateOf q =
      if p = q then (y.pointStateOf q).map (fun _ => st) else y.pointStateOf q := by
  unfold Yard.pointStateOf Yard.setPointState
  rw [Yard.pointOf_modifyPoint]
  split
  · simp [Option.map_map]; rfl
  · rfl

/-- A reader of points depends on the points alone. -/
theorem Yard.pointOf_congr {y z : Yard} (h : z.points = y.points) (p : PointIx) : z.pointOf p = y.pointOf p := by
  simp [Yard.pointOf, h]

theorem Yard.planOf_modifyPlan (p q : PointIx) (f : Plan → Plan) (y : Yard) :
    (y.modifyPlan p f).planOf q = if p = q then (y.planOf q).map f else y.planOf q := by
  unfold Yard.modifyPlan
  split
  · next x h =>
    by_cases e : p = q
    · subst e; simp [Yard.planOf] at *; simp [h]
    · simp [Yard.planOf, Table.look_put, e]
  · next h =>
    split
    · next e => subst e; simp [h]
    · rfl

theorem Yard.mem_removeWaiting (p : PointIx) (w : Waiting) (y : Yard) :
    w ∈ (y.removeWaiting p).waiting ↔ w ∈ y.waiting ∧ w.point ≠ p := by
  simp [Yard.removeWaiting]

@[simp] theorem Yard.waitingOf_removeWaiting_self (p : PointIx) (y : Yard) :
    (y.removeWaiting p).waitingOf p = none := by
  simp [Yard.waitingOf, Yard.removeWaiting]

/-! ## Tracks -/

theorem Yard.trackOf_modifyTrack (t u : TrackIx) (f : Track → Track) (y : Yard) :
    (y.modifyTrack t f).trackOf u = if t = u then f (y.trackOf u) else y.trackOf u := by
  simp only [Yard.modifyTrack, Yard.trackOf, Table.look_put]
  split
  · next e => subst e; rfl
  · rfl

theorem Yard.trackOf_reserve (t u : TrackIx) (n : Nat) (y : Yard) :
    (y.reserve t n).trackOf u =
      if t = u then { y.trackOf u with reserved := (y.trackOf u).reserved + n } else y.trackOf u := by
  rw [Yard.reserve, Yard.trackOf_modifyTrack]

theorem Yard.trackOf_release (t u : TrackIx) (n : Nat) (y : Yard) :
    (y.release t n).trackOf u =
      if t = u then { y.trackOf u with reserved := (y.trackOf u).reserved - n } else y.trackOf u := by
  rw [Yard.release, Yard.trackOf_modifyTrack]

/-! ## Drive lines -/

/-- Two drive lines are one only for one point and one leg (R129). -/
theorem driveLine_inj {p q : PointIx} {l m : Leg} : driveLine p l = driveLine q m ↔ p = q ∧ l = m := by
  cases l <;> cases m <;> simp [driveLine, Fin.ext_iff] <;> omega

theorem Yard.look_releaseDrive (p q : PointIx) (m : Leg) (y : Yard) :
    Table.look (y.releaseDrive p).drive (driveLine q m) =
      if p = q then false else Table.look y.drive (driveLine q m) := by
  by_cases e : p = q
  · subst e; cases m <;> simp [Yard.releaseDrive, Table.look_put, driveLine_inj]
  · simp [Yard.releaseDrive, Table.look_put, driveLine_inj, e]

theorem Yard.look_energise (p q : PointIx) (l m : Leg) (y : Yard) :
    Table.look (y.energise p l).drive (driveLine q m) =
      if p = q then l == m else Table.look y.drive (driveLine q m) := by
  by_cases e : p = q
  · subst e; cases l <;> cases m <;> simp [Yard.energise, Table.look_put, driveLine_inj, otherLeg]
  · simp [Yard.energise, Table.look_put, driveLine_inj, e]

/-! ## Notices -/

theorem Notices.reasons_putReasons (k m : NoticeKey) (b : Byte) (n : Notices) :
    (n.putReasons k b).reasons m = if k = m then b else n.reasons m := by
  cases k <;> cases m <;> simp [Notices.putReasons, Notices.reasons, Table.look_put]

@[simp] theorem Notices.putReasons_enables (k : NoticeKey) (b : Byte) (n : Notices) :
    (n.putReasons k b).enables = n.enables := by
  cases k <;> rfl

@[simp] theorem Notices.putReasons_mask (k : NoticeKey) (b : Byte) (n : Notices) :
    (n.putReasons k b).mask = n.mask := by
  cases k <;> rfl

theorem Yard.reasons_raise (k m : NoticeKey) (n : Nat) (y : Yard) :
    (y.raise k n).notices.reasons m =
      if k = m then y.notices.reasons m ||| reasonBit n else y.notices.reasons m := by
  rw [Yard.raise, Yard.modifyNotices]
  simp only [Notices.reasons_putReasons]
  split
  · next e => subst e; rfl
  · rfl

theorem Yard.reasons_clearNotice (k m : NoticeKey) (y : Yard) :
    (y.clearNotice k).notices.reasons m = if k = m then 0 else y.notices.reasons m := by
  simp [Yard.clearNotice, Yard.modifyNotices, Notices.reasons_putReasons]

/-! ## Settling -/

@[simp] theorem permitLaw_settle (y : Yard) : permitLaw y.settle = permitLaw y := rfl

@[simp] theorem attnLaw_settle (y : Yard) : attnLaw y.settle.notices = attnLaw y.notices := rfl

@[simp] theorem Yard.settle_settle (y : Yard) : y.settle.settle = y.settle := rfl

end Sys2Proof.Machine
end

