-- ==== Sys2Proof/Laws/Frames.lean ====
section
/-! SUPPORT. What the shared operations can change, said once for each. `Yard.standing` gathers what the arbiter and the
planner never change; `Yard.settings` what no event of the section tracker changes; `HaltsOnly` is the one change of mode
an event can make. -/

namespace Sys2Proof.Machine

open Sys2Proof

/-! ## What the arbiter and the planner leave alone -/

/-- Sections, queues, pending list, crest unit, windows, block map and mode controller: the arbiter and the planner change
none of them. -/
structure Standing where
  lead : Option Section
  sections : Table 40 (Option Section)
  queues : Table 40 (List QueueEntry)
  pendingList : List SlotIx
  crest : Crest
  windows : Table 4 Window
  blockMap : Table 32 (Option MapEntry)
  control : ModeControl

/-- The part of a yard that the arbiter and the planner leave alone. -/
def Yard.standing (y : Yard) : Standing :=
  { lead := y.lead, sections := y.sections, queues := y.queues, pendingList := y.pendingList, crest := y.crest,
    windows := y.windows, blockMap := y.blockMap, control := y.control }

/-- Yards with the same standing part read the same sections, queues, lists and modes. -/
theorem Yard.standing_ext {y z : Yard} (h : z.standing = y.standing) :
    z.lead = y.lead ∧ z.sections = y.sections ∧ z.queues = y.queues ∧ z.pendingList = y.pendingList ∧
      z.crest = y.crest ∧ z.windows = y.windows ∧ z.blockMap = y.blockMap ∧ z.control = y.control := by
  simpa [Yard.standing] using h

/-- The standing part is built from its eight fields. -/
theorem Yard.standing_of {y z : Yard}
    (h : z.lead = y.lead ∧ z.sections = y.sections ∧ z.queues = y.queues ∧ z.pendingList = y.pendingList ∧
      z.crest = y.crest ∧ z.windows = y.windows ∧ z.blockMap = y.blockMap ∧ z.control = y.control) :
    z.standing = y.standing := by
  simpa [Yard.standing] using h

@[simp] theorem Yard.standing_putSlot (i : SlotIx) (r : Option Record) (y : Yard) : (y.putSlot i r).standing = y.standing :=
  Yard.standing_of (by simp)
@[simp] theorem Yard.standing_modifyCut (i : SlotIx) (f : Cut → Cut) (y : Yard) : (y.modifyCut i f).standing = y.standing :=
  Yard.standing_of (by simp)
@[simp] theorem Yard.standing_modifyStarted (i : SlotIx) (f : Started → Started) (y : Yard) : (y.modifyStarted i f).standing = y.standing :=
  Yard.standing_of (by simp)
@[simp] theorem Yard.standing_modifyPoint (p : PointIx) (f : Point → Point) (y : Yard) : (y.modifyPoint p f).standing = y.standing :=
  Yard.standing_of (by simp)
@[simp] theorem Yard.standing_setPointState (p : PointIx) (st : PointState) (y : Yard) : (y.setPointState p st).standing = y.standing :=
  Yard.standing_of (by simp)
@[simp] theorem Yard.standing_modifyPlan (q : PointIx) (f : Plan → Plan) (y : Yard) : (y.modifyPlan q f).standing = y.standing :=
  Yard.standing_of (by simp)
@[simp] theorem Yard.standing_removeWaiting (p : PointIx) (y : Yard) : (y.removeWaiting p).standing = y.standing :=
  Yard.standing_of (by simp)
@[simp] theorem Yard.standing_releaseDrive (p : PointIx) (y : Yard) : (y.releaseDrive p).standing = y.standing :=
  Yard.standing_of (by simp)
@[simp] theorem Yard.standing_energise (p : PointIx) (l : Leg) (y : Yard) : (y.energise p l).standing = y.standing :=
  Yard.standing_of (by simp)
@[simp] theorem Yard.standing_modifyTrack (t : TrackIx) (f : Track → Track) (y : Yard) : (y.modifyTrack t f).standing = y.standing :=
  Yard.standing_of (by simp)
@[simp] theorem Yard.standing_reserve (t : TrackIx) (n : Nat) (y : Yard) : (y.reserve t n).standing = y.standing :=
  Yard.standing_of (by simp)
@[simp] theorem Yard.standing_release (t : TrackIx) (n : Nat) (y : Yard) : (y.release t n).standing = y.standing :=
  Yard.standing_of (by simp)
@[simp] theorem Yard.standing_modifyNotices (f : Notices → Notices) (y : Yard) : (y.modifyNotices f).standing = y.standing :=
  Yard.standing_of (by simp)
@[simp] theorem Yard.standing_raise (k : NoticeKey) (n : Nat) (y : Yard) : (y.raise k n).standing = y.standing :=
  Yard.standing_of (by simp)
@[simp] theorem Yard.standing_clearNotice (k : NoticeKey) (y : Yard) : (y.clearNotice k).standing = y.standing :=
  Yard.standing_of (by simp)
@[simp] theorem Yard.standing_raiseCut (i : SlotIx) (r : CutReason) (y : Yard) : (y.raiseCut i r).standing = y.standing :=
  Yard.standing_of (by simp)
@[simp] theorem Yard.standing_raisePoint (p : PointIx) (r : PointReason) (y : Yard) : (y.raisePoint p r).standing = y.standing :=
  Yard.standing_of (by simp)
@[simp] theorem Yard.standing_raiseDevice (r : DeviceReason) (y : Yard) : (y.raiseDevice r).standing = y.standing :=
  Yard.standing_of (by simp)
@[simp] theorem Yard.standing_raiseDisturbed (sid : SectionId) (y : Yard) : (y.raiseDisturbed sid).standing = y.standing :=
  Yard.standing_of (by simp)
@[simp] theorem Yard.standing_raiseStall (sid : SectionId) (y : Yard) : (y.raiseStall sid).standing = y.standing :=
  Yard.standing_of (by simp)

@[simp] theorem Yard.standing_reroute (e : Env) (i : SlotIx) (t : TrackIx) (c : Option ResolutionCause) (y : Yard) :
    (y.reroute e i t c).standing = y.standing := by
  unfold Yard.reroute; repeat' split
  all_goals simp

@[simp] theorem Yard.standing_divertInto (e : Env) (i : SlotIx) (q : PointIx) (l : Leg) (c : DiversionCause) (y : Yard) :
    (y.divertInto e i q l c).standing = y.standing := by
  unfold Yard.divertInto; split <;> simp

@[simp] theorem Yard.standing_divertEarly (e : Env) (q : PointIx) (i : SlotIx) (c : DiversionCause) (y : Yard) :
    (y.divertEarly e q i c).standing = y.standing := by
  unfold Yard.divertEarly; split <;> simp

@[simp] theorem Yard.standing_placeWaiting (e : Env) (w : Waiting) (y : Yard) :
    (y.placeWaiting e w).standing = y.standing := by
  unfold Yard.placeWaiting; split <;> rfl

@[simp] theorem Yard.standing_grantPlanned (w : Waiting) (y : Yard) :
    (y.grantPlanned w).standing = y.standing := by
  unfold Yard.grantPlanned; split <;> simp

@[simp] theorem Yard.standing_grant (e : Env) (w : Waiting) (y : Yard) :
    (y.grant e w).standing = y.standing := by
  unfold Yard.grant; split
  · simp; rfl
  · rfl

@[simp] theorem Yard.standing_expireEntry (e : Env) (w : Waiting) (c : DiversionCause) (y : Yard) :
    (y.expireEntry e w c).standing = y.standing := by
  unfold Yard.expireEntry; split <;> simp

@[simp] theorem Yard.standing_arbiter (e : Env) (n : Nat) (y : Yard) : (y.arbiter e n).standing = y.standing := by
  induction n generalizing y with
  | zero => rfl
  | succ n ih =>
    unfold Yard.arbiter
    repeat' split
    all_goals simp [ih]
    all_goals rfl

@[simp] theorem Yard.standing_arbitrate (e : Env) (y : Yard) :
    (y.arbitrate e).standing = y.standing := by
  simp [Yard.arbitrate]

@[simp] theorem Yard.standing_dropWaiting (e : Env) (p : PointIx) (y : Yard) :
    (y.dropWaiting e p).standing = y.standing := by
  unfold Yard.dropWaiting; split <;> simp

@[simp] theorem Yard.standing_withdrawDeadline (e : Env) (p : PointIx) (y : Yard) :
    (y.withdrawDeadline e p).standing = y.standing := by
  unfold Yard.withdrawDeadline; split <;> simp

@[simp] theorem Yard.standing_withdrawFor (e : Env) (p : PointIx) (i : SlotIx) (y : Yard) :
    (y.withdrawFor e p i).standing = y.standing := by
  unfold Yard.withdrawFor; repeat' split
  all_goals simp

@[simp] theorem Yard.standing_cancelManual (e : Env) (p : PointIx) (y : Yard) :
    (y.cancelManual e p).standing = y.standing := by
  unfold Yard.cancelManual; split <;> simp

@[simp] theorem Yard.standing_sectionNotClear (e : Env) (p : PointIx) (y : Yard) :
    (y.sectionNotClear e p).standing = y.standing := by
  unfold Yard.sectionNotClear; split <;> simp

@[simp] theorem Yard.standing_divertAtHead (e : Env) (q : PointIx) (i : SlotIx) (c : DiversionCause) (y : Yard) :
    (y.divertAtHead e q i c).standing = y.standing := by
  simp [Yard.divertAtHead]

@[simp] theorem Yard.standing_testHead (e : Env) (q : PointIx) (c : PointConfig) (h : QueueEntry) (l : Leg) (y : Yard) :
    (y.testHead e q c h l).standing = y.standing := by
  unfold Yard.testHead; dsimp only; repeat' split
  all_goals simp

@[simp] theorem Yard.standing_judgeHead (e : Env) (q : PointIx) (c : PointConfig) (x : Point) (h : QueueEntry) (l : Leg) (y : Yard) :
    (y.judgeHead e q c x h l).standing = y.standing := by
  unfold Yard.judgeHead; repeat' split
  all_goals simp

@[simp] theorem Yard.standing_renewHead (e : Env) (q : PointIx) (y : Yard) :
    (y.renewHead e q).standing = y.standing := by
  unfold Yard.renewHead; dsimp only; repeat' split
  all_goals simp

@[simp] theorem Yard.standing_evaluate (e : Env) (q : PointIx) (y : Yard) :
    (y.evaluate e q).standing = y.standing := by
  unfold Yard.evaluate; dsimp only; repeat' split
  all_goals simp

@[simp] theorem Yard.standing_freeDrive (e : Env) (p : PointIx) (y : Yard) :
    (y.freeDrive e p).standing = y.standing := by
  simp [Yard.freeDrive]; exact Yard.standing_releaseDrive p y

@[simp] theorem Yard.standing_dropLost (e : Env) (p : PointIx) (y : Yard) :
    (y.dropLost e p).standing = y.standing := by
  unfold Yard.dropLost; split <;> simp

@[simp] theorem Yard.standing_completeThrow (e : Env) (p : PointIx) (l : Leg) (y : Yard) :
    (y.completeThrow e p l).standing = y.standing := by
  simp [Yard.completeThrow]

@[simp] theorem Yard.standing_completeReturn (e : Env) (p : PointIx) (l : Leg) (y : Yard) :
    (y.completeReturn e p l).standing = y.standing := by
  simp [Yard.completeReturn]

@[simp] theorem Yard.standing_throwTimeout (e : Env) (p : PointIx) (y : Yard) :
    (y.throwTimeout e p).standing = y.standing := by
  unfold Yard.throwTimeout; repeat' split
  all_goals simp

@[simp] theorem Yard.standing_deadlineExpiry (e : Env) (p : PointIx) (y : Yard) :
    (y.deadlineExpiry e p).standing = y.standing := by
  unfold Yard.deadlineExpiry; repeat' split
  all_goals simp

@[simp] theorem Yard.standing_markHazard (i : SlotIx) (y : Yard) :
    (y.markHazard i).standing = y.standing := by
  unfold Yard.markHazard; repeat' split
  all_goals simp

@[simp] theorem Yard.standing_account (l : Ladder) (t : TrackIx) (n : Nat) (y : Yard) :
    (y.account l t n).standing = y.standing := by
  unfold Yard.account; dsimp only; split <;> simp

@[simp] theorem Yard.standing_arrive (e : Env) (i : SlotIx) (y : Yard) :
    (y.arrive e i).standing = y.standing := by
  unfold Yard.arrive; repeat' split
  all_goals simp

@[simp] theorem Yard.standing_settleLeg (e : Env) (p : PointIx) (l : Leg) (i : SlotIx) (y : Yard) :
    (y.settleLeg e p l i).standing = y.standing := by
  unfold Yard.settleLeg; split <;> simp [Yard.pruneDiversions]

@[simp] theorem Yard.standing_entryCheck (e : Env) (q : PointIx) (i : SlotIx) (b : Bool) (y : Yard) :
    (y.entryCheck e q i b).standing = y.standing := by
  unfold Yard.entryCheck; repeat' split
  all_goals simp

@[simp] theorem Yard.standing_releaseLost (c : Cut) (y : Yard) :
    (y.releaseLost c).standing = y.standing := by
  unfold Yard.releaseLost; split <;> simp

@[simp] theorem Yard.standing_entryTrack (e : Env) (i : SlotIx) (y : Yard) :
    (y.entryTrack e i).standing = y.standing := by
  unfold Yard.entryTrack; dsimp only; split <;> simp

@[simp] theorem Yard.standing_routeChanged (e : Env) (i : SlotIx) (y : Yard) :
    (y.routeChanged e i).standing = y.standing := by
  unfold Yard.routeChanged; repeat' split
  all_goals simp

@[simp] theorem Yard.standing_amendStarted (e : Env) (i : SlotIx) (d : Destination) (t : TrackIx) (c : Option ResolutionCause) (b : TrackIx) (y : Yard) :
    (y.amendStarted e i d t c b).standing = y.standing := by
  unfold Yard.amendStarted; dsimp only; split <;> simp

@[simp] theorem Yard.standing_throwInPosition (e : Env) (p : PointIx) (l : Leg) (y : Yard) :
    (y.throwInPosition e p l).standing = y.standing := by
  simp [Yard.throwInPosition]

@[simp] theorem Yard.standing_throwPlaced (e : Env) (p : PointIx) (l : Leg) (y : Yard) :
    (y.throwPlaced e p l).standing = y.standing := by
  simp [Yard.throwPlaced]

@[simp] theorem Yard.standing_setBar (p : PointIx) (b : Bool) (y : Yard) :
    (y.setBar p b).standing = y.standing := by
  simp [Yard.setBar]

@[simp] theorem Yard.standing_bar (e : Env) (p : PointIx) (y : Yard) :
    (y.bar e p).standing = y.standing := by
  simp [Yard.bar]

end Sys2Proof.Machine
end

