-- ==== Sys2Proof/Laws/Runs.lean ====
section
/-! SUPPORT. What an event of the section tracker and of the crest unit can change, said once for each operation.
`Yard.Runs y z`: an event has led from y to z that leaves the pending list, the windows, the block map and the line flags
alone and changes the mode at most from HUMPING to HALTED. `Yard.Follows` is the same but for the pending list, which
the crest unit shortens. Each lemma extends such a path by one operation. -/

namespace Sys2Proof.Machine

open Sys2Proof

/-- Windows, block map and line flags are kept, and the mode changes at most from HUMPING to HALTED. -/
structure Yard.Follows (y z : Yard) : Prop where
  windows : z.windows = y.windows
  blockMap : z.blockMap = y.blockMap
  stopFlag : z.control.stopFlag = y.control.stopFlag
  freezeFlag : z.control.freezeFlag = y.control.freezeFlag
  mode : z.control.mode = y.control.mode ∨ (y.control.mode = .humping ∧ z.control.mode = .halted)

/-- `Yard.Follows`, and the pending list is kept. -/
structure Yard.Runs (y z : Yard) : Prop extends Yard.Follows y z where
  pendingList : z.pendingList = y.pendingList

theorem Yard.Runs.refl (y : Yard) : y.Runs y := ⟨⟨rfl, rfl, rfl, rfl, .inl rfl⟩, rfl⟩

theorem Yard.Follows.trans {x y z : Yard} (h : x.Follows y) (k : y.Follows z) : x.Follows z := by
  obtain ⟨hw, hb, hs, hf, hm⟩ := h
  obtain ⟨kw, kb, ks, kf, km⟩ := k
  refine ⟨by rw [kw, hw], by rw [kb, hb], by rw [ks, hs], by rw [kf, hf], ?_⟩
  rcases hm with hm | ⟨h1, h2⟩ <;> rcases km with km | ⟨k1, k2⟩ <;> simp_all

theorem Yard.Runs.trans {x y z : Yard} (h : x.Runs y) (k : y.Runs z) : x.Runs z :=
  ⟨h.toFollows.trans k.toFollows, by rw [k.pendingList, h.pendingList]⟩

/-- Nothing but a change of the standing part is left for a run to speak of. -/
theorem Yard.Runs.of_standing {y z : Yard} (h : z.standing = y.standing) : y.Runs z := by
  obtain ⟨-, -, -, hp, -, hw, hb, hc⟩ := Yard.standing_ext h
  exact ⟨⟨hw, hb, by rw [hc], by rw [hc], .inl (by rw [hc])⟩, hp⟩

/-- A change of sections, queues and crest alone. -/
theorem Yard.Runs.of_fields {y z : Yard} (hp : z.pendingList = y.pendingList) (hw : z.windows = y.windows)
    (hb : z.blockMap = y.blockMap) (hc : z.control = y.control) : y.Runs z :=
  ⟨⟨hw, hb, by rw [hc], by rw [hc], .inl (by rw [hc])⟩, hp⟩

variable {x y : Yard}

theorem Yard.Runs.modifyCut (i : SlotIx) (f : Cut → Cut) (h : x.Runs y) : x.Runs (y.modifyCut i f) :=
  h.trans (.of_standing (by simp))
theorem Yard.Runs.modifyStarted (i : SlotIx) (f : Started → Started) (h : x.Runs y) : x.Runs (y.modifyStarted i f) :=
  h.trans (.of_standing (by simp))
theorem Yard.Runs.setPointState (p : PointIx) (st : PointState) (h : x.Runs y) : x.Runs (y.setPointState p st) :=
  h.trans (.of_standing (by simp))
theorem Yard.Runs.modifyPoint (p : PointIx) (f : Point → Point) (h : x.Runs y) : x.Runs (y.modifyPoint p f) :=
  h.trans (.of_standing (by simp))
theorem Yard.Runs.modifyPlan (q : PointIx) (f : Plan → Plan) (h : x.Runs y) : x.Runs (y.modifyPlan q f) :=
  h.trans (.of_standing (by simp))
theorem Yard.Runs.raise (k : NoticeKey) (n : Nat) (h : x.Runs y) : x.Runs (y.raise k n) :=
  h.trans (.of_standing (by simp))
theorem Yard.Runs.raiseCut (i : SlotIx) (r : CutReason) (h : x.Runs y) : x.Runs (y.raiseCut i r) :=
  h.trans (.of_standing (by simp))
theorem Yard.Runs.raisePoint (p : PointIx) (r : PointReason) (h : x.Runs y) : x.Runs (y.raisePoint p r) :=
  h.trans (.of_standing (by simp))
theorem Yard.Runs.raiseDisturbed (sid : SectionId) (h : x.Runs y) : x.Runs (y.raiseDisturbed sid) :=
  h.trans (.of_standing (by simp))
theorem Yard.Runs.raiseStall (sid : SectionId) (h : x.Runs y) : x.Runs (y.raiseStall sid) :=
  h.trans (.of_standing (by simp))
theorem Yard.Runs.raiseDevice (r : DeviceReason) (h : x.Runs y) : x.Runs (y.raiseDevice r) :=
  h.trans (.of_standing (by simp))
theorem Yard.Runs.putSlot (i : SlotIx) (r : Option Record) (h : x.Runs y) : x.Runs (y.putSlot i r) :=
  h.trans (.of_standing (by simp))
theorem Yard.Runs.reserve (t : TrackIx) (n : Nat) (h : x.Runs y) : x.Runs (y.reserve t n) :=
  h.trans (.of_standing (by simp))
theorem Yard.Runs.release (t : TrackIx) (n : Nat) (h : x.Runs y) : x.Runs (y.release t n) :=
  h.trans (.of_standing (by simp))
theorem Yard.Runs.arbitrate (e : Env) (h : x.Runs y) : x.Runs (y.arbitrate e) :=
  h.trans (.of_standing (by simp))
theorem Yard.Runs.withdrawFor (e : Env) (p : PointIx) (i : SlotIx) (h : x.Runs y) : x.Runs (y.withdrawFor e p i) :=
  h.trans (.of_standing (by simp))
theorem Yard.Runs.cancelManual (e : Env) (p : PointIx) (h : x.Runs y) : x.Runs (y.cancelManual e p) :=
  h.trans (.of_standing (by simp))
theorem Yard.Runs.sectionNotClear (e : Env) (p : PointIx) (h : x.Runs y) : x.Runs (y.sectionNotClear e p) :=
  h.trans (.of_standing (by simp))
theorem Yard.Runs.evaluate (e : Env) (q : PointIx) (h : x.Runs y) : x.Runs (y.evaluate e q) :=
  h.trans (.of_standing (by simp))
theorem Yard.Runs.freeDrive (e : Env) (p : PointIx) (h : x.Runs y) : x.Runs (y.freeDrive e p) :=
  h.trans (.of_standing (by simp))
theorem Yard.Runs.dropLost (e : Env) (p : PointIx) (h : x.Runs y) : x.Runs (y.dropLost e p) :=
  h.trans (.of_standing (by simp))
theorem Yard.Runs.completeThrow (e : Env) (p : PointIx) (l : Leg) (h : x.Runs y) : x.Runs (y.completeThrow e p l) :=
  h.trans (.of_standing (by simp))
theorem Yard.Runs.completeReturn (e : Env) (p : PointIx) (l : Leg) (h : x.Runs y) : x.Runs (y.completeReturn e p l) :=
  h.trans (.of_standing (by simp))
theorem Yard.Runs.markHazard (i : SlotIx) (h : x.Runs y) : x.Runs (y.markHazard i) :=
  h.trans (.of_standing (by simp))
theorem Yard.Runs.arrive (e : Env) (i : SlotIx) (h : x.Runs y) : x.Runs (y.arrive e i) :=
  h.trans (.of_standing (by simp))
theorem Yard.Runs.settleLeg (e : Env) (p : PointIx) (l : Leg) (i : SlotIx) (h : x.Runs y) : x.Runs (y.settleLeg e p l i) :=
  h.trans (.of_standing (by simp))
theorem Yard.Runs.entryCheck (e : Env) (q : PointIx) (i : SlotIx) (b : Bool) (h : x.Runs y) : x.Runs (y.entryCheck e q i b) :=
  h.trans (.of_standing (by simp))
theorem Yard.Runs.releaseLost (c : Cut) (h : x.Runs y) : x.Runs (y.releaseLost c) :=
  h.trans (.of_standing (by simp))
theorem Yard.Runs.entryTrack (e : Env) (i : SlotIx) (h : x.Runs y) : x.Runs (y.entryTrack e i) :=
  h.trans (.of_standing (by simp))
theorem Yard.Runs.putSection (sid : SectionId) (o : Option Section) (h : x.Runs y) : x.Runs (y.putSection sid o) :=
  h.trans (.of_fields (by simp) (by simp) (by simp) (by simp))
theorem Yard.Runs.modifySection (sid : SectionId) (f : Section → Section) (h : x.Runs y) : x.Runs (y.modifySection sid f) :=
  h.trans (.of_fields (by simp) (by simp) (by simp) (by simp))
theorem Yard.Runs.putQueue (q : PointIx) (l : List QueueEntry) (h : x.Runs y) : x.Runs (y.putQueue q l) :=
  h.trans (.of_fields (by simp) (by simp) (by simp) (by simp))
theorem Yard.Runs.raiseRaw (sid : SectionId) (h : x.Runs y) : x.Runs (y.raiseRaw sid) :=
  h.trans (.of_fields (by simp) (by simp) (by simp) (by simp))
theorem Yard.Runs.lowerRaw (sid : SectionId) (h : x.Runs y) : x.Runs (y.lowerRaw sid) :=
  h.trans (.of_fields (by simp) (by simp) (by simp) (by simp))
theorem Yard.Runs.removeOccupant (sid : SectionId) (i : SlotIx) (h : x.Runs y) : x.Runs (y.removeOccupant sid i) :=
  h.trans (.of_fields (by simp) (by simp) (by simp) (by simp))
theorem Yard.Runs.modifyCrest (f : Crest → Crest) (h : x.Runs y) : x.Runs (y.modifyCrest f) :=
  h.trans (.of_fields (by simp) (by simp) (by simp) (by simp))

/-! ## Reports to the mode controller -/

theorem Yard.Runs.enterCause (c : HaltCause) (h : x.Runs y) : x.Runs (y.enterCause c) := by
  refine h.trans ⟨⟨by simp, by simp, by simp, by simp, ?_⟩, by simp⟩
  unfold Yard.enterCause
  split
  · next e => exact .inr ⟨e, rfl⟩
  · next e => exact .inl (by simp [Yard.modifyControl])
  · exact .inl rfl
  · exact .inl rfl

theorem Yard.Runs.count (f : ModeControl → ModeControl) (hm : ∀ m, (f m).mode = m.mode)
    (hs : ∀ m, (f m).stopFlag = m.stopFlag) (hf : ∀ m, (f m).freezeFlag = m.freezeFlag) (h : x.Runs y) :
    x.Runs (y.modifyControl f) :=
  h.trans ⟨⟨rfl, rfl, hs _, hf _, .inl (hm _)⟩, rfl⟩

theorem Yard.Runs.reportDisturbed (h : x.Runs y) : x.Runs y.reportDisturbed := by
  unfold Yard.reportDisturbed
  dsimp only
  split
  · exact .enterCause _ (.count _ (fun _ => rfl) (fun _ => rfl) (fun _ => rfl) h)
  · exact .count _ (fun _ => rfl) (fun _ => rfl) (fun _ => rfl) h

theorem Yard.Runs.reportLost (h : x.Runs y) : x.Runs y.reportLost := by
  unfold Yard.reportLost
  dsimp only
  split
  · exact .enterCause _ (.count _ (fun _ => rfl) (fun _ => rfl) (fun _ => rfl) h)
  · exact .count _ (fun _ => rfl) (fun _ => rfl) (fun _ => rfl) h

theorem Yard.Runs.reportStall (h : x.Runs y) : x.Runs y.reportStall := by
  unfold Yard.reportStall
  dsimp only
  split
  · exact .enterCause _ (.count _ (fun _ => rfl) (fun _ => rfl) (fun _ => rfl) h)
  · exact .count _ (fun _ => rfl) (fun _ => rfl) (fun _ => rfl) h

theorem Yard.Runs.reportUndisturbed (h : x.Runs y) : x.Runs y.reportUndisturbed :=
  .count _ (fun _ => rfl) (fun _ => rfl) (fun _ => rfl) h

theorem Yard.Runs.reportRestored (h : x.Runs y) : x.Runs y.reportRestored :=
  .count _ (fun _ => rfl) (fun _ => rfl) (fun _ => rfl) h

theorem Yard.Runs.reportUnstalled (h : x.Runs y) : x.Runs y.reportUnstalled :=
  .count _ (fun _ => rfl) (fun _ => rfl) (fun _ => rfl) h

theorem Yard.Runs.clearStallFlag (sid : SectionId) (h : x.Runs y) : x.Runs (y.clearStallFlag sid) := by
  unfold Yard.clearStallFlag
  repeat' split
  · exact .reportUnstalled (.putSection _ _ h)
  · exact h
  · exact h

/-- A run stays a run through a fold of runs. -/
theorem Yard.Runs.foldl {α : Type} (f : Yard → α → Yard) (hf : ∀ z a, x.Runs z → x.Runs (f z a)) (l : List α)
    (h : x.Runs y) : x.Runs (l.foldl f y) := by
  induction l generalizing y with
  | nil => exact h
  | cons a l ih => exact ih (hf _ _ h)

/-! ## Point control -/

theorem Yard.Runs.losePoint (e : Env) (p : PointIx) (c : FaultCause) (h : x.Runs y) : x.Runs (y.losePoint e p c) := by
  unfold Yard.losePoint
  dsimp only
  repeat' split
  · exact h
  · exact .evaluate _ _ (.reportLost (.raisePoint _ _ (.setPointState _ _ (.dropLost _ _ (.freeDrive _ _ h)))))
  · exact .evaluate _ _ (.reportLost (.raisePoint _ _ (.setPointState _ _ (.dropLost _ _ h))))
  · exact h

theorem Yard.Runs.axleAtPoint (e : Env) (p : PointIx) (h : x.Runs y) : x.Runs (y.axleAtPoint e p) := by
  unfold Yard.axleAtPoint
  repeat' split
  all_goals first
    | exact h
    | apply_rules [Yard.Runs.losePoint]

theorem Yard.Runs.sectionTold (e : Env) (sid : SectionId) (h : x.Runs y) : x.Runs (y.sectionTold e sid) := by
  unfold Yard.sectionTold
  repeat' split
  all_goals first
    | exact h
    | apply_rules [Yard.Runs.losePoint, Yard.Runs.sectionNotClear]

theorem Yard.Runs.actOnDetection (e : Env) (p : PointIx) (st : PointState) (l : Option Leg) (h : x.Runs y) :
    x.Runs (y.actOnDetection e p st l) := by
  have loss : ∀ (c : FaultCause) (m k : Leg), x.Runs (if m = k then y else y.losePoint e p c) := by
    intro c m k
    split
    · exact h
    · exact .losePoint _ _ _ h
  have throwEnd : ∀ m k : Leg, x.Runs (if m = k then y.completeThrow e p k else y) := by
    intro m k
    split
    · exact .completeThrow _ _ _ h
    · exact h
  have returnEnd : ∀ m k : Leg, x.Runs (if m = k then y.completeReturn e p k else y) := by
    intro m k
    split
    · exact .completeReturn _ _ _ h
    · exact h
  rcases st with m | ⟨m, o, t, k⟩ | ⟨m, t, k⟩ | ⟨m, c⟩ | c <;> rcases l with _ | l
  · exact .losePoint _ _ _ h
  · exact loss _ _ _
  · exact h
  · exact throwEnd _ _
  · exact h
  · exact returnEnd _ _
  · exact .losePoint _ _ _ h
  · exact loss _ _ _
  · exact h
  · exact h

theorem Yard.Runs.detectionChange (e : Env) (p : PointIx) (a b : Bool) (h : x.Runs y) : x.Runs (y.detectionChange e p a b) := by
  unfold Yard.detectionChange
  repeat' split
  all_goals first
    | exact h
    | apply_rules [Yard.Runs.actOnDetection, Yard.Runs.modifyPoint]

theorem Yard.Runs.returnFailed (e : Env) (p : PointIx) (h : x.Runs y) : x.Runs (y.returnFailed e p) := by
  unfold Yard.returnFailed
  repeat' split
  all_goals first
    | exact h
    | apply_rules [Yard.Runs.losePoint]

/-! ## Queues, sections, losses -/

theorem Yard.Runs.departQueue (e : Env) (q : PointIx) (i : SlotIx) (h : x.Runs y) : x.Runs (y.departQueue e q i) := by
  unfold Yard.departQueue
  dsimp only
  repeat' split
  all_goals first
    | exact h
    | apply_rules [Yard.Runs.putQueue, Yard.Runs.withdrawFor, Yard.Runs.modifyPlan]

theorem Yard.Runs.evaluateNewHead (e : Env) (q : PointIx) (b : Bool) (h : x.Runs y) : x.Runs (y.evaluateNewHead e q b) := by
  unfold Yard.evaluateNewHead
  repeat' split
  all_goals first
    | exact h
    | apply_rules [Yard.Runs.evaluate]

theorem Yard.Runs.leaveQueue (e : Env) (q : PointIx) (i : SlotIx) (h : x.Runs y) : x.Runs (y.leaveQueue e q i) := by
  unfold Yard.leaveQueue
  repeat' split
  all_goals first
    | exact h
    | apply_rules [Yard.Runs.evaluateNewHead, Yard.Runs.departQueue]

theorem Yard.Runs.leaveQueues (e : Env) (i : SlotIx) (h : x.Runs y) : x.Runs (y.leaveQueues e i) := by
  unfold Yard.leaveQueues
  repeat' split
  all_goals first
    | exact h
    | apply_rules [Yard.Runs.leaveQueue]

theorem Yard.Runs.joinQueue (e : Env) (q : PointIx) (i : SlotIx) (pass : Passage) (h : x.Runs y) : x.Runs (y.joinQueue e q i pass) := by
  unfold Yard.joinQueue
  dsimp only
  repeat' split
  all_goals first
    | exact h
    | apply_rules [Yard.Runs.putQueue, Yard.Runs.evaluate, Yard.Runs.cancelManual]

theorem Yard.Runs.occupy (e : Env) (sid : SectionId) (i : SlotIx) (h : x.Runs y) : x.Runs (y.occupy e sid i) := by
  unfold Yard.occupy
  dsimp only
  repeat' split
  all_goals first
    | exact h
    | apply_rules [Yard.Runs.modifySection, Yard.Runs.sectionNotClear]

theorem Yard.Runs.credit (sid : SectionId) (i : SlotIx) (h : x.Runs y) : x.Runs (y.credit sid i) := by
  unfold Yard.credit
  all_goals first
    | exact h
    | apply_rules [Yard.Runs.modifySection]

theorem Yard.Runs.becomeClear (e : Env) (sid : SectionId) (h : x.Runs y) : x.Runs (y.becomeClear e sid) := by
  unfold Yard.becomeClear
  dsimp only
  repeat' split
  all_goals first
    | exact h
    | apply_rules [Yard.Runs.clearStallFlag, Yard.Runs.modifySection, Yard.Runs.evaluate]

theorem Yard.Runs.restartStall (e : Env) (sid : SectionId) (h : x.Runs y) : x.Runs (y.restartStall e sid) := by
  unfold Yard.restartStall
  all_goals first
    | exact h
    | apply_rules [Yard.Runs.clearStallFlag, Yard.Runs.modifySection]

theorem Yard.Runs.markDisturbed (c : DisturbCause) (sid : SectionId) (h : x.Runs y) : x.Runs (y.markDisturbed c sid) := by
  unfold Yard.markDisturbed
  all_goals first
    | exact h
    | apply_rules [Yard.Runs.clearStallFlag, Yard.Runs.modifySection]

theorem Yard.Runs.absorbIfEntering (i : SlotIx) (h : x.Runs y) : x.Runs (y.absorbIfEntering i) := by
  unfold Yard.absorbIfEntering
  repeat' split
  all_goals first
    | exact h
    | exact h.trans (.of_fields rfl rfl rfl rfl)

theorem Yard.Runs.afterDisturbed {lose : SlotIx → Yard → Yard} (hl : ∀ i z, x.Runs z → x.Runs (lose i z)) (e : Env)
    (sid : SectionId) (cuts : List SlotIx) (h : x.Runs y) : x.Runs (y.afterDisturbed lose e sid cuts) :=
  .raiseDisturbed _ (.reportDisturbed (.sectionTold _ _ (.foldl _ (fun z i hz => hl i z hz) _ h)))

theorem Yard.Runs.disturbWith {lose : SlotIx → Yard → Yard} (hl : ∀ i z, x.Runs z → x.Runs (lose i z)) (e : Env)
    (c : DisturbCause) (sids : List SectionId) (h : x.Runs y) : x.Runs (y.disturbWith lose e c sids) :=
  .foldl _ (fun _ _ hz => .afterDisturbed hl _ _ _ hz) _ (.foldl _ (fun _ _ hz => .markDisturbed _ _ hz) _ h)

theorem Yard.Runs.loseAt (e : Env) (n : Nat) (i : SlotIx) (h : x.Runs y) : x.Runs (y.loseAt e n i) := by
  induction n generalizing i y with
  | zero => exact h
  | succ n ih =>
    unfold Yard.loseAt
    dsimp only
    repeat' split
    · exact .absorbIfEntering _ (.raiseCut _ _ (.releaseLost _ (.disturbWith (fun j z hz => ih (y := z) j hz) _ _ _
        (.foldl _ (fun _ _ hz => .removeOccupant _ _ hz) _ (.leaveQueues _ _ (.modifyCut _ _ h))))))
    · exact h
    · exact h

theorem Yard.Runs.loseCut (e : Env) (i : SlotIx) (h : x.Runs y) : x.Runs (y.loseCut e i) := h.loseAt e _ i

theorem Yard.Runs.disturb (e : Env) (c : DisturbCause) (sids : List SectionId) (h : x.Runs y) :
    x.Runs (y.disturb e c sids) :=
  .disturbWith (fun i _ hz => .loseCut e i hz) _ _ _ h

/-! ## Passages -/

theorem Yard.Runs.takeOut (e : Env) (sid : SectionId) (h : x.Runs y) : x.Runs (y.takeOut e sid).2 := by
  unfold Yard.takeOut
  repeat' split
  · exact h
  · exact .lowerRaw _ h
  · exact .disturb _ _ _ h
  · dsimp only
    split
    · exact .becomeClear _ _ (.putSection _ _ h)
    · exact .restartStall _ _ (.putSection _ _ h)

theorem Yard.Runs.legMismatch (e : Env) (p : PointIx) (l : Leg) (h : x.Runs y) : x.Runs (y.legMismatch e p l) := by
  unfold Yard.legMismatch
  repeat' split
  all_goals first
    | exact h
    | apply_rules [Yard.Runs.losePoint]

theorem Yard.Runs.leaveQueueBelow (e : Env) (p : PointIx) (l : Leg) (i : SlotIx) (h : x.Runs y) : x.Runs (y.leaveQueueBelow e p l i) := by
  unfold Yard.leaveQueueBelow
  repeat' split
  all_goals first
    | exact h
    | apply_rules [Yard.Runs.leaveQueue]

theorem Yard.Runs.legCheck (e : Env) (p : PointIx) (l : Leg) (i : SlotIx) (b : Bool) (h : x.Runs y) :
    x.Runs (y.legCheck e p l i b).2 := by
  unfold Yard.legCheck
  repeat' split
  all_goals first
    | exact h
    | exact .settleLeg _ _ _ _ (.leaveQueueBelow _ _ _ _ (.markHazard _ (.legMismatch _ _ _ h)))
    | exact .loseCut _ _ (.legMismatch _ _ _ h)

theorem Yard.Runs.joinNext (e : Env) (q : PointIx) (i : SlotIx) (pass : Passage) (h : x.Runs y) : x.Runs (y.joinNext e q i pass) := by
  unfold Yard.joinNext
  repeat' split
  all_goals first
    | exact h
    | apply_rules [Yard.Runs.joinQueue]

theorem Yard.Runs.overcount (e : Env) (sid : SectionId) (i : SlotIx) (h : x.Runs y) : x.Runs (y.overcount e sid i) := by
  unfold Yard.overcount
  all_goals first
    | exact h
    | apply_rules [Yard.Runs.disturb, Yard.Runs.loseCut]

theorem Yard.Runs.leadingEntry (e : Env) (q : PointIx) (i : SlotIx) (pass : Passage) (h : x.Runs y) : x.Runs (y.leadingEntry e q i pass) := by
  unfold Yard.leadingEntry
  dsimp only
  repeat' split
  all_goals first
    | exact h
    | apply_rules [Yard.Runs.overcount, Yard.Runs.joinNext, Yard.Runs.loseCut, Yard.Runs.occupy, Yard.Runs.evaluateNewHead, Yard.Runs.departQueue, Yard.Runs.axleAtPoint, Yard.Runs.raiseRaw, Yard.Runs.entryCheck, Yard.Runs.modifyStarted]

theorem Yard.Runs.entryWithoutCut (e : Env) (sid : SectionId) (b : Bool) (h : x.Runs y) : x.Runs (y.entryWithoutCut e sid b) := by
  unfold Yard.entryWithoutCut
  dsimp only
  repeat' split
  all_goals first
    | exact h
    | apply_rules [Yard.Runs.disturb, Yard.Runs.axleAtPoint, Yard.Runs.raiseRaw]

theorem Yard.Runs.furtherEntry (e : Env) (q : PointIx) (i : SlotIx) (b : Bool) (h : x.Runs y) : x.Runs (y.furtherEntry e q i b) := by
  unfold Yard.furtherEntry
  repeat' split
  all_goals first
    | exact h
    | apply_rules [Yard.Runs.entryWithoutCut, Yard.Runs.overcount, Yard.Runs.credit, Yard.Runs.axleAtPoint]

theorem Yard.Runs.enterBelow (e : Env) (b : Below) (cut : Option SlotIx) (d : Bool) (pass : Passage) (h : x.Runs y) : x.Runs (y.enterBelow e b cut d pass) := by
  unfold Yard.enterBelow
  repeat' split
  all_goals first
    | exact h
    | apply_rules [Yard.Runs.furtherEntry, Yard.Runs.entryWithoutCut, Yard.Runs.leadingEntry, Yard.Runs.entryTrack]

theorem Yard.Runs.downhill (e : Env) (k : HeadIx) (pass : Passage) (h : x.Runs y) : x.Runs (y.downhill e k pass) := by
  unfold Yard.downhill
  dsimp only
  split
  · exact h
  · refine .enterBelow _ _ _ _ _ ?_
    split
    · exact .legCheck _ _ _ _ _ (.takeOut _ _ h)
    · exact .takeOut _ _ h
    · exact .takeOut _ _ h
    · exact .takeOut _ _ h

theorem Yard.Runs.rollback (e : Env) (k : HeadIx) (h : x.Runs y) : x.Runs (y.rollback e k) := by
  unfold Yard.rollback
  dsimp only
  repeat' split
  all_goals first
    | exact h
    | apply_rules [Yard.Runs.disturb, Yard.Runs.lowerRaw, Yard.Runs.raiseRaw]

theorem Yard.Runs.headFault (e : Env) (k : HeadIx) (h : x.Runs y) : x.Runs (y.headFault e k) := by
  unfold Yard.headFault
  all_goals first
    | exact h
    | apply_rules [Yard.Runs.disturb]

theorem Yard.Runs.handUnlisted (e : Env) (h : x.Runs y) : x.Runs (y.handUnlisted e) := by
  unfold Yard.handUnlisted
  repeat' split
  all_goals first
    | exact h
    | apply_rules [Yard.Runs.disturb, Yard.Runs.raiseRaw]

theorem Yard.Runs.handFurther (e : Env) (i : SlotIx) (h : x.Runs y) : x.Runs (y.handFurther e i) := by
  unfold Yard.handFurther
  repeat' split
  all_goals first
    | exact h
    | apply_rules [Yard.Runs.handUnlisted, Yard.Runs.overcount, Yard.Runs.credit, Yard.Runs.raiseRaw]

theorem Yard.Runs.handLeading (e : Env) (i : SlotIx) (pass : Passage) (h : x.Runs y) : x.Runs (y.handLeading e i pass) := by
  unfold Yard.handLeading
  dsimp only
  repeat' split
  all_goals first
    | exact h
    | apply_rules [Yard.Runs.overcount, Yard.Runs.loseCut, Yard.Runs.occupy, Yard.Runs.joinQueue, Yard.Runs.raiseRaw]

theorem Yard.Runs.stallExpired (e : Env) (sid : SectionId) (h : x.Runs y) : x.Runs (y.stallExpired e sid) := by
  unfold Yard.stallExpired
  repeat' split
  all_goals first
    | exact h
    | apply_rules [Yard.Runs.reportStall, Yard.Runs.putSection, Yard.Runs.raiseStall]

theorem Yard.Runs.reexamine (e : Env) (i : SlotIx) (sid : SectionId) (h : x.Runs y) : x.Runs (y.reexamine e i sid) := by
  unfold Yard.reexamine
  dsimp only
  repeat' split
  all_goals first
    | exact h
    | apply_rules [Yard.Runs.becomeClear, Yard.Runs.putSection]

theorem Yard.Runs.reexamineAll (e : Env) (i : SlotIx) (h : x.Runs y) : x.Runs (y.reexamineAll e i) := by
  unfold Yard.reexamineAll
  dsimp only
  split
  · exact .arrive _ _ (.foldl _ (fun _ _ hz => .reexamine _ _ _ hz) _ h)
  · exact .foldl _ (fun _ _ hz => .reexamine _ _ _ hz) _ h

end Sys2Proof.Machine
end

