-- ==== Sys2Proof/Laws/CrestRuns.lean ====
section
/-! SUPPORT. What the crest unit's operations and the events built on them can change: windows, block map and line flags are
kept and the mode changes at most from HUMPING to HALTED (`Yard.Follows`). -/

namespace Sys2Proof.Machine

open Sys2Proof

variable {x y : Yard}

theorem Yard.Follows.refl (y : Yard) : y.Follows y := (Yard.Runs.refl y).toFollows

/-- A path extended by a run of the section tracker. -/
theorem Yard.Follows.run {z : Yard} (h : x.Follows y) (k : y.Runs y → y.Runs z) : x.Follows z :=
  h.trans (k (.refl y)).toFollows

/-- A change of slots, pending list, crest, tracks and notices alone. -/
theorem Yard.Follows.of_fields {z : Yard} (h : x.Follows y) (hw : z.windows = y.windows) (hb : z.blockMap = y.blockMap)
    (hc : z.control = y.control) : x.Follows z :=
  h.trans ⟨hw, hb, by rw [hc], by rw [hc], .inl (by rw [hc])⟩

theorem Yard.Follows.judgeMarker (h : x.Follows y) : x.Follows y.judgeMarker := by
  unfold Yard.judgeMarker
  repeat' split
  · exact h.run (fun k => .raiseDevice _ (.putSlot _ _ k))
  · exact h
  · exact h
  · exact h

theorem Yard.Follows.leaveEntering (i : SlotIx) (n : Word16) (t : Instant) (b : Bool) (h : x.Follows y) :
    x.Follows (y.leaveEntering i n t b) :=
  .judgeMarker (h.run (fun k => .modifyCrest _ (.modifyCut _ _ k)))

theorem Yard.Follows.endAbsorption (h : x.Follows y) : x.Follows y.endAbsorption :=
  .judgeMarker (h.run (fun k => .modifyCrest _ k))

theorem Yard.Follows.startGap (e : Env) (pass : Passage) (h : x.Follows y) : x.Follows (y.startGap e pass) :=
  h.run (fun k => .modifyCrest _ k)

theorem Yard.Follows.startCut (e : Env) (i : SlotIx) (c : Cut) (pass : Passage) (h : x.Follows y) :
    x.Follows (y.startCut e i c pass) := by
  unfold Yard.startCut
  dsimp only
  have h1 : x.Follows { y with pendingList := y.pendingList.tail } := h.of_fields rfl rfl rfl
  refine .startGap _ _ (.run ?_ (fun k => .handLeading _ _ _ k))
  refine .run ?_ (fun k => .modifyCrest _ k)
  split
  · exact h1.run (fun k => .raiseCut _ _ (.reserve _ _ (.putSlot _ _ k)))
  · exact h1.run (fun k => .reserve _ _ (.putSlot _ _ k))

theorem Yard.Follows.furtherCrestAxle (e : Env) (i : SlotIx) (n : Entry) (pass : Passage) (h : x.Follows y) :
    x.Follows (y.furtherCrestAxle e i n pass) := by
  unfold Yard.furtherCrestAxle
  dsimp only
  have h1 := h.run (fun k => Yard.Runs.handFurther e i (.modifyStarted i (fun z => { z with crestAxles := n.tally + 1 })
    (.modifyCrest (fun c => { c with state := .entering i { n with tally := n.tally + 1 } }) k)))
  repeat' split
  · exact .leaveEntering _ _ _ _ h1
  · exact .endAbsorption h1
  · exact h1
  · exact .startGap _ _ h1

theorem Yard.Follows.absorbedAxle (e : Env) (slot : Option SlotIx) (n : Entry) (pass : Passage) (h : x.Follows y) :
    x.Follows (y.absorbedAxle e slot n pass) := by
  unfold Yard.absorbedAxle
  dsimp only
  cases slot with
  | none =>
    have h1 := h.run (fun k => Yard.Runs.handUnlisted e
      (.modifyCrest (fun c => { c with state := .absorbing none { n with tally := n.tally + 1 } }) k))
    split
    · exact .endAbsorption h1
    · exact .startGap _ _ h1
  | some i =>
    have h1 := h.run (fun k => Yard.Runs.handFurther e i
      (.modifyCrest (fun c => { c with state := .absorbing (some i) { n with tally := n.tally + 1 } }) k))
    split
    · exact .endAbsorption h1
    · exact .startGap _ _ h1

theorem Yard.Follows.unlistedAxle (e : Env) (h : x.Follows y) : x.Follows (y.unlistedAxle e) :=
  h.run (fun k => .modifyCrest _ (.handUnlisted _ k))

theorem Yard.Follows.idleAxle (e : Env) (pass : Passage) (h : x.Follows y) : x.Follows (y.idleAxle e pass) := by
  unfold Yard.idleAxle
  split
  all_goals first
    | exact .startCut _ _ _ _ h
    | exact .unlistedAxle _ h

theorem Yard.Follows.crestDownhill (e : Env) (pass : Passage) (h : x.Follows y) : x.Follows (y.crestDownhill e pass) := by
  unfold Yard.crestDownhill
  split
  · exact .furtherCrestAxle _ _ _ _ h
  · exact .absorbedAxle _ _ _ _ h
  · exact .idleAxle _ _ h

theorem Yard.Follows.crestUphill (e : Env) (h : x.Follows y) : x.Follows (y.crestUphill e) := by
  unfold Yard.crestUphill
  dsimp only
  exact h.run (fun k => Yard.Runs.rollback _ _ (Yard.Runs.modifyCrest _ k))

theorem Yard.Follows.deliver (e : Env) (k : HeadIx) (pass : Passage) (h : x.Follows y) :
    x.Follows (y.deliver e k pass) := by
  unfold Yard.deliver
  split
  · exact .crestDownhill _ _ h
  · exact .crestUphill _ h
  · exact h.run (fun k => .downhill _ _ _ k)
  · exact h.run (fun k => .downhill _ _ _ k)
  · exact h.run (fun k => .rollback _ _ k)
  · exact h.run (fun k => .rollback _ _ k)

theorem Yard.Follows.shortCut (e : Env) (h : x.Follows y) : x.Follows (y.shortCut e) := by
  unfold Yard.shortCut
  repeat' split
  · exact .leaveEntering _ _ _ _
      (h.run (fun k => .reexamineAll _ _ (.raiseCut _ _ (.reserve _ _ (.release _ _ (.putSlot _ _ k))))))
  · exact h
  · exact h
  · exact h
  · exact h
  · exact h

theorem Yard.Follows.absorptionEnd (e : Env) (h : x.Follows y) : x.Follows (y.absorptionEnd e) := by
  unfold Yard.absorptionEnd
  repeat' split
  all_goals first
    | exact h
    | exact .endAbsorption h

theorem Yard.Follows.headEvent (e : Env) (k : HeadIx) (ev : HeadEvent) (h : x.Follows y) :
    x.Follows (y.headEvent e k ev) := by
  cases ev with
  | nothing => exact h
  | passage p => exact .deliver _ _ _ h
  | fault => exact h.run (fun z => .headFault _ _ z)

end Sys2Proof.Machine
end

