-- ==== Sys2Proof/Laws/Occupants.lean ====
section
/-! SUPPORT. What the operations on occupant lists give, each said once for a list split at the entry that changes: the
entry of a further axle, the exit of an axle, the axle count, and everything an exit from a section can answer. -/

namespace Sys2Proof.Machine

open Sys2Proof

/-! ## Axle counts (R40) -/

@[simp] theorem axleCount_nil : axleCount [] = 0 := rfl
@[simp] theorem axleCount_cons (o : Occupant) (l : List Occupant) :
    axleCount (o :: l) = (o.entered - o.exited) + axleCount l := rfl
@[simp] theorem axleCount_append (l m : List Occupant) : axleCount (l ++ m) = axleCount l + axleCount m := by
  simp [axleCount]

/-! ## Entries and exits (R44, R49) -/

/-- The first entry of a slot gains the axle. -/
theorem enterMore_append {i : SlotIx} {pre post : List Occupant} {o : Occupant} (h : ∀ p ∈ pre, p.slot ≠ i)
    (ho : o.slot = i) : enterMore i (pre ++ o :: post) = pre ++ { o with entered := o.entered + 1 } :: post := by
  induction pre with
  | nil => simp [enterMore, ho]
  | cons p pre ih =>
    simp only [List.cons_append, enterMore, h p (by simp), if_false, List.cons.injEq, true_and]
    exact ih fun q hq => h q (by simp [hq])

/-- A list is as long after one more axle of a listed cut has entered. -/
@[simp] theorem enterMore_length (i : SlotIx) (l : List Occupant) : (enterMore i l).length = l.length := by
  induction l with
  | nil => rfl
  | cons o l ih => unfold enterMore; split <;> simp [ih]

/-- The entry that an exit is attributed to is the first with an axle in the section. -/
theorem find_present_append {pre post : List Occupant} {o : Occupant} (h : ∀ p ∈ pre, p.entered ≤ p.exited)
    (ho : o.exited < o.entered) : (pre ++ o :: post).find? Occupant.present = some o := by
  induction pre with
  | nil => simp [Occupant.present, ho]
  | cons p pre ih =>
    have hp : p.present = false := by simp [Occupant.present, h p (by simp)]
    simp only [List.cons_append, List.find?_cons, hp]
    exact ih fun q hq => h q (by simp [hq])

/-- The exit is recorded in that entry, which leaves the list with its cut's last axle. -/
theorem exitFirst_append {axles : SlotIx → Nat} {pre post : List Occupant} {o : Occupant}
    (h : ∀ p ∈ pre, p.entered ≤ p.exited) (ho : o.exited < o.entered) :
    exitFirst axles (pre ++ o :: post) =
      pre ++ (if o.exited + 1 = axles o.slot then post else { o with exited := o.exited + 1 } :: post) := by
  induction pre with
  | nil => simp [exitFirst, Occupant.present, ho]
  | cons p pre ih =>
    have hp : p.present = false := by simp [Occupant.present, h p (by simp)]
    simp only [List.cons_append, exitFirst, hp, Bool.false_eq_true, if_false, List.cons.injEq, true_and]
    exact ih fun q hq => h q (by simp [hq])

/-- A list with an axle present splits at the first entry that has one. -/
theorem split_of_find_present {l : List Occupant} {o : Occupant} (h : l.find? Occupant.present = some o) :
    ∃ pre post, l = pre ++ o :: post ∧ (∀ p ∈ pre, p.entered ≤ p.exited) ∧ o.exited < o.entered := by
  obtain ⟨ho, pre, post, rfl, hp⟩ := List.find?_eq_some_iff_append.1 h
  refine ⟨pre, post, rfl, fun p hm => ?_, by simpa [Occupant.present] using ho⟩
  simpa [Occupant.present] using hp p hm

/-- Everything an exit from a section can answer (R44, R45): no record, a DISTURBED section whose raw count falls, a phantom
exit, or the exit of the first cut with an axle there. -/
theorem Yard.takeOut_cases (e : Env) (sid : SectionId) (y : Yard) :
    (y.sectionOf sid = none ∧ y.takeOut e sid = (none, y)) ∨
    (∃ x, y.sectionOf sid = some x ∧ x.state = .disturbed ∧ y.takeOut e sid = (none, y.lowerRaw sid)) ∨
    (∃ x, y.sectionOf sid = some x ∧ x.state ≠ .disturbed ∧ x.occupants.find? Occupant.present = none ∧
      y.takeOut e sid = (none, y.disturb e .phantomExit [sid])) ∨
    ∃ x pre post o left, y.sectionOf sid = some x ∧ x.state ≠ .disturbed ∧ x.occupants = pre ++ o :: post ∧
      (∀ p ∈ pre, p.entered ≤ p.exited) ∧ o.exited < o.entered ∧
      left = pre ++ (if o.exited + 1 = y.axlesOf o.slot then post else { o with exited := o.exited + 1 } :: post) ∧
      y.takeOut e sid =
        (some (o.slot, o.exited == 0),
          if left.isEmpty then (y.putSection sid (some (x.relist left))).becomeClear e sid
          else (y.putSection sid (some (x.relist left))).restartStall e sid) := by
  unfold Yard.takeOut
  split
  · next h => exact .inl ⟨h, rfl⟩
  · next x h =>
    split
    · next hd => exact .inr (.inl ⟨x, h, hd, rfl⟩)
    · next hd =>
      split
      · next hf => exact .inr (.inr (.inl ⟨x, h, hd, hf, rfl⟩))
      · next o hf =>
        obtain ⟨pre, post, hl, hp, ho⟩ := split_of_find_present hf
        refine .inr (.inr (.inr ⟨x, pre, post, o, _, h, hd, hl, hp, ho, rfl, ?_⟩))
        simp only [hl, exitFirst_append hp ho]

end Sys2Proof.Machine
end

