-- ==== Sys2Proof/Laws/Planning.lean ====
section
/-! SUPPORT. Everything the arbiter and the planner do, as closure under their atomic changes: a property kept by each
change of `PlanClosed` is kept by the arbiter, by every evaluation and by every taking out of a waiting entry. -/

namespace Sys2Proof.Machine

open Sys2Proof

/-- The atomic changes of a yard that the arbiter and the planner are built of, each with what is known when it is made. -/
structure PlanClosed (e : Env) (P : Yard → Prop) : Prop where
  plan : ∀ y q f, P y → P (y.modifyPlan q f)
  speed : ∀ y i n, P y → P (y.modifyStarted i (fun x => { x with speed := some n }))
  remove : ∀ y p, P y → P (y.removeWaiting p)
  pop : ∀ y w rest, P y → y.waiting = w :: rest → P { y with waiting := rest }
  place : ∀ y w, P y → P (y.placeWaiting e w)
  divert : ∀ y i q l c, P y → P (y.divertInto e i q l c)
  cancelled : ∀ y p, P y → P (y.raisePoint p .manualCancelled)
  grant : ∀ y w, P y → y.slotsInUse < e.ladder.consts.slots → y.control.freezeFlag = false → y.eligible w = true →
    P (y.grant e w)

variable {e : Env} {P : Yard → Prop}

theorem PlanClosed.divertEarly (h : PlanClosed e P) {y : Yard} (q : PointIx) (i : SlotIx) (c : DiversionCause)
    (hy : P y) : P (y.divertEarly e q i c) := by
  unfold Yard.divertEarly
  split
  · exact h.plan _ _ _ (h.divert _ _ _ _ _ hy)
  · exact hy

theorem PlanClosed.expireEntry (h : PlanClosed e P) {y : Yard} (w : Waiting) (c : DiversionCause) (hy : P y) :
    P (y.expireEntry e w c) := by
  unfold Yard.expireEntry
  split
  · exact h.divertEarly _ _ _ hy
  · exact hy

/-- Eligibility and the conditions of a grant do not read the waiting list. -/
theorem Yard.eligible_waiting (y : Yard) (l : List Waiting) (w : Waiting) :
    ({ y with waiting := l } : Yard).eligible w = y.eligible w := rfl

theorem PlanClosed.arbiter (h : PlanClosed e P) (n : Nat) {y : Yard} (hy : P y) : P (y.arbiter e n) := by
  induction n generalizing y with
  | zero => exact hy
  | succ n ih =>
    unfold Yard.arbiter
    split
    · next hc =>
      split
      · exact hy
      · next w rest hw =>
        have hp := h.pop _ _ _ hy hw
        split
        · exact ih (h.expireEntry _ _ hp)
        · split
          · next hel => exact ih (h.grant _ _ hp hc.1 hc.2 hel)
          · exact hy
    · exact hy

theorem PlanClosed.arbitrate (h : PlanClosed e P) {y : Yard} (hy : P y) : P (y.arbitrate e) := h.arbiter _ hy

theorem PlanClosed.dropWaiting (h : PlanClosed e P) {y : Yard} (p : PointIx) (hy : P y) : P (y.dropWaiting e p) := by
  unfold Yard.dropWaiting
  split
  · exact h.arbitrate (h.remove _ _ hy)
  · exact hy

theorem PlanClosed.withdrawDeadline (h : PlanClosed e P) {y : Yard} (p : PointIx) (hy : P y) :
    P (y.withdrawDeadline e p) := by
  unfold Yard.withdrawDeadline
  split
  · exact h.dropWaiting _ hy
  · exact hy

theorem PlanClosed.withdrawFor (h : PlanClosed e P) {y : Yard} (p : PointIx) (i : SlotIx) (hy : P y) :
    P (y.withdrawFor e p i) := by
  unfold Yard.withdrawFor
  repeat' split
  · exact h.dropWaiting _ hy
  · exact hy
  · exact hy

theorem PlanClosed.cancelManual (h : PlanClosed e P) {y : Yard} (p : PointIx) (hy : P y) : P (y.cancelManual e p) := by
  unfold Yard.cancelManual
  split
  · exact h.arbitrate (h.cancelled _ _ (h.remove _ _ hy))
  · exact hy

theorem PlanClosed.sectionNotClear (h : PlanClosed e P) {y : Yard} (p : PointIx) (hy : P y) :
    P (y.sectionNotClear e p) := by
  unfold Yard.sectionNotClear
  split
  · exact h.arbitrate (h.plan _ _ _ (h.remove _ _ hy))
  · exact h.cancelManual _ hy
  · exact hy

theorem PlanClosed.dropLost (h : PlanClosed e P) {y : Yard} (p : PointIx) (hy : P y) : P (y.dropLost e p) := by
  unfold Yard.dropLost
  split
  · exact h.dropWaiting _ hy
  · exact h.cancelManual _ hy
  · exact hy

theorem PlanClosed.deadlineExpiry (h : PlanClosed e P) {y : Yard} (p : PointIx) (hy : P y) :
    P (y.deadlineExpiry e p) := by
  unfold Yard.deadlineExpiry
  repeat' split
  · exact h.arbitrate (h.expireEntry _ _ (h.remove _ _ hy))
  · exact hy
  · exact hy

theorem PlanClosed.divertAtHead (h : PlanClosed e P) {y : Yard} (q : PointIx) (i : SlotIx) (c : DiversionCause)
    (hy : P y) : P (y.divertAtHead e q i c) := h.divertEarly _ _ _ (h.withdrawFor _ _ hy)

theorem PlanClosed.testHead (h : PlanClosed e P) {y : Yard} (q : PointIx) (c : PointConfig) (en : QueueEntry) (l : Leg)
    (hy : P y) : P (y.testHead e q c en l) := by
  unfold Yard.testHead
  dsimp only
  have hz := h.plan _ q (fun r => { r with test := some (throwTest e.ladder.consts c en e.now) })
    (h.speed _ en.slot (throwTest e.ladder.consts c en e.now).allowed hy)
  repeat' split
  · exact h.plan _ _ _ hz
  · exact h.arbitrate (h.place _ _ (h.plan _ _ _ hz))
  · exact h.divertAtHead _ _ _ hz

theorem PlanClosed.judgeHead (h : PlanClosed e P) {y : Yard} (q : PointIx) (c : PointConfig) (x : Point)
    (en : QueueEntry) (l : Leg) (hy : P y) : P (y.judgeHead e q c x en l) := by
  unfold Yard.judgeHead
  split
  · exact h.plan _ _ _ (h.withdrawDeadline _ hy)
  · exact h.plan _ _ _ hy
  · split
    · exact h.divertAtHead _ _ _ hy
    · split
      · exact h.testHead _ _ _ _ hy
      · exact h.plan _ _ _ hy

theorem PlanClosed.renewHead (h : PlanClosed e P) {y : Yard} (q : PointIx) (hy : P y) : P (y.renewHead e q) := by
  unfold Yard.renewHead
  dsimp only
  split
  · split
    · exact hy
    · refine h.plan _ _ _ ?_
      split
      · exact h.withdrawFor _ _ hy
      · exact hy
  · exact hy

/-- A property closed under the atomic changes is kept by every evaluation. -/
theorem PlanClosed.evaluate (h : PlanClosed e P) {y : Yard} (q : PointIx) (hy : P y) : P (y.evaluate e q) := by
  unfold Yard.evaluate
  dsimp only
  have hr := h.renewHead q hy
  split
  · exact h.plan _ _ _ hr
  · split
    · exact h.judgeHead _ _ _ _ _ (h.plan _ _ _ hr)
    · exact hr

theorem PlanClosed.evaluateHeads (h : PlanClosed e P) {y : Yard} (hy : P y) : P (y.evaluateHeads e) := by
  unfold Yard.evaluateHeads
  generalize List.finRange 40 = l
  induction l generalizing y with
  | nil => exact hy
  | cons q l ih =>
    rw [List.foldl_cons]
    refine ih ?_
    split
    · exact hy
    · exact h.evaluate _ hy

/-! ## Where the arbiter does nothing (R132) -/

/-- Nothing waits. -/
theorem Yard.arbitrate_nil {y : Yard} (h : y.waiting = []) : y.arbitrate e = y := by
  simp [Yard.arbitrate, Yard.arbiter, h]

/-- No slot is free, or freeze is active. -/
theorem Yard.arbitrate_of_closed {y : Yard} (h : ¬ (y.slotsInUse < e.ladder.consts.slots ∧ y.control.freezeFlag = false)) :
    y.arbitrate e = y := by
  unfold Yard.arbitrate
  cases y.waiting.length <;> simp [Yard.arbiter, h]

end Sys2Proof.Machine
end

