-- ==== Sys2Proof/Laws/Requests.lean ====
section
/-! SUPPORT. What a request, an event and the shared checks of requests can answer, said once for each. -/

namespace Sys2Proof.Machine

open Sys2Proof

/-- A served request answers the body's state with the link interface of R183. -/
@[simp] theorem serve_eq (code : Byte) (payload : List Byte) (body : State → Reply × State) (s : State) :
    serve code payload body s = .next { (body s).2 with link := executed code payload (body s).1 } := rfl

/-- A read request answers its own state with the link interface of R183. -/
@[simp] theorem serveRead_eq (code : Byte) (payload : List Byte) (answer : State → Reply) (s : State) :
    serveRead code payload answer s = .next { s with link := executed code payload (answer s) } := rfl

/-- An event answers the state with its yard changed and its outputs settled. -/
@[simp] theorem event_eq (s : State) (f : Env → Yard → Yard) : s.event f = .next (s.withYard (f s.env s.yard)) := rfl

/-- A discarded transfer changes only the receive buffer (R181). -/
@[simp] theorem discard_eq (bytes : List Byte) (s : State) :
    discard bytes s = .next { s with link := { s.link with receive := (receive bytes).1 } } := rfl

@[simp] theorem executed_response (code : Byte) (payload : List Byte) (r : Reply) :
    (executed code payload r).response = responseOf code r := rfl
@[simp] theorem executed_readPosition (code : Byte) (payload : List Byte) (r : Reply) :
    (executed code payload r).readPosition = 0 := rfl
@[simp] theorem executed_receive (code : Byte) (payload : List Byte) (r : Reply) :
    (executed code payload r).receive = receivedGood code payload := rfl
@[simp] theorem responseOf_status (code : Byte) (r : Reply) : (responseOf code r).status = statusCode r.status := rfl
@[simp] theorem responseOf_code (code : Byte) (r : Reply) : (responseOf code r).code = code := rfl
@[simp] theorem responseOf_payload (code : Byte) (r : Reply) : (responseOf code r).payload = r.payload := rfl

/-- The status byte names its status (R185). -/
theorem statusCode_injective (a b : Status) : statusCode a = statusCode b ↔ a = b := by
  cases a <;> cases b <;> decide

/-! ## The checks that requests share -/

/-- Everything `onPoint` can answer: one of the three refusals of section 7.6, or what the request goes on with. -/
theorem onPoint_cases (point : Byte) (body : PointIx → Point → State → Reply × State) (s : State) :
    (s.mode = .setup ∧ onPoint point body s = (refuse .badMode, s)) ∨
    (s.mode ≠ .setup ∧ point? point = none ∧ onPoint point body s = (badValue 0, s)) ∨
    (∃ p, s.mode ≠ .setup ∧ point? point = some p ∧ s.yard.pointOf p = none ∧
      onPoint point body s = (refuseAt .noRecord p.val, s)) ∨
    (∃ p x, s.mode ≠ .setup ∧ point? point = some p ∧ s.yard.pointOf p = some x ∧
      onPoint point body s = body p x s) := by
  unfold onPoint
  split
  · next h => exact .inl ⟨h, rfl⟩
  · next h =>
    split
    · next hp => exact .inr (.inl ⟨h, hp, rfl⟩)
    · next p hp =>
      split
      · next hx => exact .inr (.inr (.inl ⟨p, h, hp, hx, rfl⟩))
      · next x hx => exact .inr (.inr (.inr ⟨p, x, h, hp, hx, rfl⟩))

/-- `onPoint` past its checks. -/
theorem onPoint_pass {point : Byte} {body : PointIx → Point → State → Reply × State} {s : State} {p : PointIx} {x : Point}
    (hm : s.mode ≠ .setup) (hp : point? point = some p) (hx : s.yard.pointOf p = some x) :
    onPoint point body s = body p x s := by
  simp [onPoint, hm, hp, hx]

/-- `onSection` past its checks. -/
theorem onSection_pass {α : Type} {selector : Byte} {refused : Reply → α} {body : SectionId → Section → α} {s : State}
    {sid : SectionId} {x : Section} (hm : s.mode ≠ .setup) (hs : selector? selector = some sid)
    (hx : s.yard.sectionOf sid = some x) : onSection selector refused body s = body sid x := by
  simp [onSection, hm, hs, hx]

/-- The record that ENTER and HOLD make: DUPLICATE, TABLE_FULL, or the slot (R74 to R76). -/
theorem makeRecord_cases (n : Word16) (r : Record) (s : State) :
    (∃ i, s.yard.slotOfNumber n = some i ∧ s.makeRecord n r = (refuseAt .duplicate i.val, s)) ∨
    (s.yard.slotOfNumber n = none ∧ s.yard.freeSlot = none ∧ s.makeRecord n r = (refuse .tableFull, s)) ∨
    (∃ i, s.yard.slotOfNumber n = none ∧ s.yard.freeSlot = some i ∧
      s.makeRecord n r = (doneWith [byteOf i.val], s.withYard (s.yard.append i r))) := by
  unfold State.makeRecord
  split
  · next i h => exact .inl ⟨i, h, rfl⟩
  · next h =>
    split
    · next hf => exact .inr (.inl ⟨h, hf, rfl⟩)
    · next i hf => exact .inr (.inr ⟨i, h, hf, rfl⟩)

/-- START and RESUME past their mode check: NOT_READY with the first live condition, or HUMPING (R166, R167). -/
theorem goHumping_cases (s : State) :
    (∃ c, s.yard.control.firstLive = some c ∧ s.goHumping = (refuseAt .notReady (haltCauseNumber c), s)) ∨
    (s.yard.control.firstLive = none ∧ s.goHumping = (done, s.withYard (s.yard.enterMode .humping))) := by
  unfold State.goHumping
  split
  · next c h => exact .inl ⟨c, h, rfl⟩
  · next h => exact .inr ⟨h, rfl⟩

/-! ## Coded fields -/

theorem index?_eq_some {n : Nat} {b : Byte} {i : Fin n} : index? n b = some i ↔ b.toNat = i.val := by
  unfold index?
  split
  · next h => simp [Fin.ext_iff]
  · next h =>
    constructor
    · intro k; cases k
    · intro k; exact absurd (k ▸ i.isLt) h

theorem index?_eq_none {n : Nat} {b : Byte} : index? n b = none ↔ n ≤ b.toNat := by
  unfold index?
  split
  · next h => simp; omega
  · next h => simp; omega

theorem yesNo?_eq_some {b : Byte} {v : Bool} : yesNo? b = some v ↔ b = (if v then 1 else 0) := by
  unfold yesNo?
  cases v <;> split <;> simp_all

theorem inRange_iff {lo hi n : Nat} : inRange lo hi n = true ↔ lo ≤ n ∧ n ≤ hi := by
  simp [inRange]

end Sys2Proof.Machine
end

