-- ==== Sys2Proof/Tests/Slice0.lean ====
section
/-! SUPPORT. Tests: the checks of WellFormed, the manual's worked figures, and for each statement with hypotheses a concrete
state and operands that meet them. Each test is one step, or one operation, on a small yard. -/

namespace Sys2Proof.Tests

open Sys2Proof Sys2Proof.Machine Sys2Proof.Spec

set_option Elab.async false

/-! ## A small yard: the root P0 alone, N to T0 and R to the reject track T1 -/

/-- P0: 60 m of approach, 900 ms throw, grade 20, each leg its own fallback. -/
def config : PointConfig :=
  { isRoot := true, normal := .track 0, reverse := .track 1, dApp := 6000, tThrow := 900, grade := 20,
    nFallback := some 0, rFallback := some 1, stall := 60 }

/-- The ladder of the small yard. -/
def ladder : Ladder :=
  { points := Table.put (Table.fill 40 none) 0 (some config), consts := { Constants.reset with reject := some 1 } }

/-- The roles of F0 to F11: the sensors of heads 0 to 3, the detection of P0, the stop input, a freeze key. -/
def roles : List Role :=
  [.sensorA 0, .sensorB 0, .sensorA 1, .sensorB 1, .sensorA 2, .sensorB 2, .sensorA 3, .sensorB 3, .detectN 0,
   .detectR 0, .stop, .freezeKey 0]

/-- The lines of the small yard; P0 detects N. -/
def lines : Table 256 Line :=
  Table.tab (fun i => { Line.reset with role := roles.getD i.val .unused, filtered := i.val == 8 })

/-- A CLEAR section. -/
def clearSection : Section :=
  { state := .clear, count := 0, occupants := [], stallTimer := none, stallFlag := false, stallLimit := 60, cause := none }

/-- A section that holds an axle of the cut in S0, its stall timer set for 600000. -/
def occupied : Section :=
  { clearSection with state := .occupied, count := 1, occupants := [{ slot := 0, entered := 1, exited := 0 }],
                      stallTimer := some 600000 }

/-- P0 PROVED in N. -/
def point : Point := { state := .proved .N, barred := false, detectN := true, detectR := false }

/-- The yard in a mode, both sections CLEAR and nothing on the ladder. -/
def yard (m : Mode) : Yard :=
  { Yard.reset with
      lead := some clearSection, sections := Table.put (Table.fill 40 none) 0 (some clearSection),
      points := Table.put (Table.fill 40 none) 0 (some point), plans := Table.put (Table.fill 40 none) 0 (some Plan.idle),
      control := { ModeControl.reset with mode := m } }

/-- The part with a yard, its four heads IDLE. -/
def part (y : Yard) : State :=
  { State.reset with
      ladder := ladder, lines := lines, yard := y,
      heads := Table.tab (fun h => if h.val < 4 then { Head.off with state := .idle } else Head.off) }

/-- The part before COMMISSION. -/
def before : State := { part Yard.reset with heads := Table.fill 82 Head.off }

/-- The part with the lines of `f` changed. -/
def withLine (i : LineIx) (f : Line → Line) (s : State) : State :=
  { s with lines := Table.put s.lines i (f (Table.look s.lines i)) }

/-- A cut of 4 axles for T0. -/
def cut (st : CutState) (x : Option Started) : Cut :=
  { number := 501, dest := .track 0, axles := 4, state := st, started := x, actual := none }

/-- The fields of a cut under way to T0. -/
def under (progress crestAxles inTrack : Nat) : Started :=
  { order := 1, resolved := 0, cause := none, route := [(0, .N)], progress := progress, crestAxles := crestAxles,
    inTrack := inTrack, speed := none, diversions := [], coupled := none, short := none, hazard := false }

/-- A record in S0. -/
def holding (r : Record) (y : Yard) : Yard := { y with slots := Table.put y.slots 0 (some r) }

/-- A PENDING cut at the head of the list. -/
def listed (m : Mode) : Yard := { holding (.cut (cut .pending none)) (yard m) with pendingList := [0] }

/-- The cut of S0 ROLLING toward P0, at the head of its queue, its axles reserved on T0. -/
def rolling : Yard :=
  { holding (.cut (cut .rolling (some (under 0 4 0)))) (yard .humping) with
      lead := some occupied,
      queues := Table.put (Table.fill 40 []) 0 [{ slot := 0, instant := 1000, interval := 300, longAgo := false }],
      tracks := Table.put Yard.reset.tracks 0 { capacity := 0, fill := 0, reserved := 4 } }

/-- P0 in a state. -/
def pointAt (st : PointState) (y : Yard) : Yard :=
  { y with points := Table.put y.points 0 (some { point with state := st }) }

/-- P0 MOVING from N to R, its slot taken and its reverse line energised. -/
def moving : Yard :=
  { pointAt (.moving .R .N 9000 .deadline) (yard .humping) with
      slotsInUse := 1, drive := Table.put (Table.fill 80 false) 1 true }

/-- P0 RETURNING to N. -/
def returning : Yard :=
  { pointAt (.returning .N 18000 .deadline) (yard .humping) with
      slotsInUse := 1, drive := Table.put (Table.fill 80 false) 0 true }

/-- P0's deadline entry of the cut in S0, at 114000. -/
def waiting : Yard :=
  { rolling with waiting := [{ point := 0, target := .N, claim := .deadline 114000 0 }] }

/-- The cut of S0 ROLLING toward the reject track T1 by the reverse leg of P0, at the head of P0's queue with an approach
instant, the section of P0 clear. -/
def against (since : Instant) : Yard :=
  { holding (.cut { cut .rolling (some { under 0 4 0 with resolved := 1, route := [(0, .R)] }) with dest := .track 1 })
      (yard .humping) with
      lead := some occupied,
      queues := Table.put (Table.fill 40 []) 0 [{ slot := 0, instant := since, interval := 300, longAgo := false }],
      tracks := Table.put Yard.reset.tracks 1 { capacity := 0, fill := 0, reserved := 4 } }

/-- P0's section with another record. -/
def areaAt (x : Section) (y : Yard) : Yard := { y with sections := Table.put y.sections 0 (some x) }

/-- P0's queue with other entries. -/
def queued (l : List QueueEntry) (y : Yard) : Yard := { y with queues := Table.put y.queues 0 l }

/-- A DISTURBED section with a raw count. -/
def disturbed (n : Nat) : Section := { clearSection with state := .disturbed, count := n, cause := some .headFault }

/-- A ladder of two points: the root P0, N to P1 and R to the reject track T1; P1, N to T0 and R to T2. -/
def twoPoints : Ladder :=
  { ladder with
      points :=
        Table.put (Table.put (Table.fill 40 none) 0 (some { config with normal := .point 1 })) 1
          (some { config with isRoot := false, reverse := .track 2, rFallback := some 2 }) }

/-- The environment of an event at an instant in a ladder. -/
def env (t : Instant) (l : Ladder) : Env := { now := t, ladder := l }

/-- A state at an instant. -/
def at_ (t : Instant) (s : State) : State := { s with clock := t }

/-! ## WellFormed: each check refuses an ill-formed command -/

theorem test_wellFormed_refuses_ack_without_reasons : WellFormed (.ack 0 0 []) = false := by decide +kernel
theorem test_wellFormed_refuses_ack_with_eight_reasons :
    WellFormed (.ack 0 0 [1, 2, 3, 4, 5, 6, 7, 1]) = false := by decide +kernel
theorem test_wellFormed_refuses_discarded_good_frame :
    WellFormed (.requestDiscarded [0x60, 0x00, 0x66]) = false := by decide +kernel
theorem test_wellFormed_accepts_ack_at_its_bounds :
    WellFormed (.ack 0 0 [1]) = true ∧ WellFormed (.ack 0 0 [1, 2, 3, 4, 5, 6, 7]) = true := by decide +kernel

/-! ## The manual's worked figures -/

/-- Section 11.6: READ DEVICE is 60 00 66; R183: the NO_RESPONSE frame. -/
theorem test_check_bytes : crc8 [0x60, 0x00] = 0x66 ∧ crc8 [0xFF, 0x00, 0x00] = 0x00 ∧
    State.reset.link.response.frame = [0xFF, 0x00, 0x00, 0x00] := by decide +kernel
theorem test_frame_spells_read_device : commandOfTransfer [0x60, 0x00, 0x66] = .readDevice := by decide +kernel
theorem test_bad_check_byte_is_discarded :
    commandOfTransfer [0x60, 0x00, 0x67] = .requestDiscarded [0x60, 0x00, 0x67] := by decide +kernel
theorem test_table_rows_give_no_bits : decodeTableWord 8 0x60 = none := by decide +kernel

/-- Section 8.7: 300 ticks at a point of 6000 cm, 900 ms, grade 20. -/
theorem test_throw_test_figures :
    throwTest Constants.reset config { slot := 0, instant := 400000, interval := 300, longAgo := false } 515000 =
      { speed := 4000, allowed := 4800, arrival := 12500, margin := 11300, deadline := 513000, pass := false,
        at_ := 515000 } := by decide +kernel
/-- R145: the test passes at the deadline itself and fails 0.1 ms after it. -/
theorem test_throw_test_boundary :
    (throwTest Constants.reset config { slot := 0, instant := 400000, interval := 300, longAgo := false } 513000).pass = true ∧
    (throwTest Constants.reset config { slot := 0, instant := 400000, interval := 300, longAgo := false } 513001).pass =
      false := by decide +kernel

/-- R14: the empty ladder fails at stage 1; the small yard passes both checks. -/
theorem test_ladder_check : Ladder.reset.check = some (255, 1) ∧ ladder.check = none ∧ ladder.checkLines lines = none := by
  decide +kernel
/-- R31: a head without its sensor B. -/
theorem test_line_check_names_missing_sensor :
    ladder.checkLines (Table.put lines 3 Line.reset) = some (1, 3) := by decide +kernel
/-- R169: the halt causes are numbered 1 to 6 on the bits 0 to 5. -/
theorem test_reason_bits : reasonBit 1 = 0x01 ∧ reasonBit 6 = 0x20 := by decide +kernel
/-- R129: D(2p) and D(2p + 1). -/
theorem test_drive_lines : driveLine 39 .N = 78 ∧ driveLine 39 .R = 79 := by decide +kernel
/-- R5: the leg heads are 2 + 2n and 3 + 2n. -/
theorem test_leg_heads : legHead 39 .N = 80 ∧ legHead 39 .R = 81 := by decide +kernel

/-! ## Witnesses: the block as a whole -/

theorem witness_StepExecutesFrontCommand : State.reset.pending = [] := by decide +kernel
theorem witness_CommandsChangeOnlyTheirUnits : ∃ t, exec (.ladderClockTick 1) State.reset = .next t ∧
    t.clock ≠ State.reset.clock ∧ t.raw ≠ State.reset.raw := ⟨_, rfl, by decide, by decide⟩
theorem witness_SettingsChangeOnlyByTheirRequests : ∃ t, exec (.setWindow 3 40 255) State.reset = .next t ∧
    t.yard.windows ≠ State.reset.yard.windows := ⟨_, rfl, by decide +kernel⟩
theorem witness_ModeChangesOnlyAsTabled : ∃ t, exec .start (part (yard .standby)) = .next t ∧
    t.mode = .humping := ⟨_, rfl, by decide +kernel⟩
theorem witness_RefusedRequestChangesNothing : ∃ t, WellFormed .start = true ∧ (codeOf .start).isSome = true ∧
    exec .start State.reset = .next t ∧ t.link.response.status ≠ 0x00 := ⟨_, rfl, rfl, rfl, by decide⟩
theorem witness_EveryRequestIsAnswered : ∃ t, WellFormed (.hold 0) = true ∧ codeOf (.hold 0) = some 0x21 ∧
    exec (.hold 0) State.reset = .next t := ⟨_, rfl, rfl, rfl⟩
theorem witness_ResponsePayloadFitsFrame : ∃ t, WellFormed (.readPoint 0) = true ∧ (codeOf (.readPoint 0)).isSome = true ∧
    exec (.readPoint 0) (part (yard .standby)) = .next t ∧ t.link.response.payload.length = 62 :=
  ⟨_, rfl, rfl, rfl, by decide +kernel⟩

/-! ## Witnesses: states that meet the laws, and a step from each -/

/-- The part in HUMPING with a PENDING head cut and PERMIT asserted; STOP is the next command. -/
def permitted : State :=
  { part { listed .humping with control := { ModeControl.reset with mode := .humping, permit := true } } with
      pending := [.stop] }
theorem witness_PermitLawIsKept : permitted.PermitLaw ∧ ∃ t, step permitted = .next t :=
  ⟨⟨fun _ => ⟨rfl, rfl, 0, [], cut .pending none, rfl, rfl, rfl⟩, fun _ => rfl⟩, _, rfl⟩

/-- The part with HALTED raised and ATTN driven; ACK is the next command. -/
def attentive : State :=
  { part { yard .halted with notices := { Notices.reset with device := 1, attn := true } } with pending := [.ack 4 0 [1]] }
theorem witness_AttnLawIsKept : attentive.AttnLaw ∧ ∃ t, step attentive = .next t := by
  refine ⟨⟨fun _ => ⟨rfl, 4, by decide, ?_⟩, fun _ => rfl⟩, _, rfl⟩
  exact .inr (.inr (.inr (.inr ⟨rfl, by decide⟩)))

/-- P0 MOVING at its time limit; the timeout is the next command. -/
def throwing : State := { at_ 9000 (part moving) with pending := [.throwTimeout 0] }
theorem witness_DriveLawIsKept : throwing.DriveLaw ∧ throwing.FirstLaw ∧ throwing.yard.pointInMotion 0 = true ∧
    ∃ t, step throwing = .next t := by
  refine ⟨?_, ?_, by decide +kernel, _, rfl⟩
  case refine_2 => unfold State.FirstLaw; decide +kernel
  have h : ∀ p : PointIx, (Table.look throwing.yard.drive (driveLine p .N) =
        (match throwing.yard.pointStateOf p with
         | some st => st.drives .N
         | none => false)) ∧
      (Table.look throwing.yard.drive (driveLine p .R) =
        (match throwing.yard.pointStateOf p with
         | some st => st.drives .R
         | none => false)) := by decide +kernel
  intro p l
  cases l
  · exact (h p).1
  · exact (h p).2
theorem witness_SlotLawIsKept : throwing.SlotLaw ∧ ∃ t, step throwing = .next t := by
  refine ⟨?_, _, rfl⟩
  unfold State.SlotLaw
  decide +kernel

/-- A ROLLING cut of 4 axles reserved on T0, AMEND to T1 the next command. -/
def bound : State := { part rolling with pending := [.amend 501 1 1 1 0] }
theorem witness_ReservedLawIsKept : bound.ReservedLaw ∧ ∃ t, step bound = .next t := by
  refine ⟨?_, _, rfl⟩
  unfold State.ReservedLaw
  decide +kernel

/-- The lead OCCUPIED by a ROLLING cut; its stall timer expires. -/
def stalling : State := { at_ 600000 (part rolling) with pending := [.stallTimerExpiry .lead] }
theorem witness_CountLawIsKept : stalling.CountLaw ∧ ∃ t, step stalling = .next t := by
  refine ⟨⟨?_, by decide +kernel, by decide +kernel, by decide +kernel⟩, _, rfl⟩
  intro sid x h
  have hp : ∀ p : PointIx, stalling.yard.sectionOf (.point p) = none ∨
      stalling.yard.sectionOf (.point p) = some clearSection := by decide +kernel
  cases sid with
  | lead => cases h; unfold Section.Lawful; decide
  | point p =>
    rcases hp p with k | k
    · rw [k] at h; cases h
    · rw [k] at h; cases h; unfold Section.Lawful; decide
theorem witness_SetupLawIsKept : before.mode = .setup ∧ before.SetupLaw ∧
    ∃ t, step { before with pending := [.commission] } = .next t := by
  refine ⟨rfl, fun _ => ⟨?_, ?_⟩, _, rfl⟩
  · intro sid
    have hp : ∀ p : PointIx, before.yard.sectionOf (.point p) = none := by decide +kernel
    cases sid with
    | lead => rfl
    | point p => exact hp p
  · decide +kernel

/-! ## Witnesses: link, lines, heads -/

theorem witness_RequestFrameSpellsItsRequest : WellFormed (.hold 501) = true ∧
    frameOf (.hold 501) = some (requestFrame 0x21 [0xF5, 0x01]) := by decide +kernel
theorem witness_RequestFrameIsAcknowledged : WellFormed .readDevice = true ∧ codeOf .readDevice = some 0x60 := by decide +kernel
theorem witness_GoodFrameIsAPrefix : goodFrame [0x60, 0x00, 0x66, 0xAA] = some (0x60, []) ∧
    lengthAllowed 0x60 0 = true ∧ [0x60, 0x00, 0x66, 0xAA] = requestFrame 0x60 [] ++ [0xAA] := by decide +kernel
theorem witness_DiscardedRequestKeepsResponse : goodFrame [] = none ∧ goodFrame [0x60, 0x00, 0x67] = none := by decide +kernel

/-- A line whose third disagreeing sample has been taken. -/
def due (i : LineIx) (s : State) : State := withLine i (fun l => { l with agreement := 2, due := true }) s

theorem witness_FilteredTransitionTakesDueLines : (Table.look (due 0 (part (yard .standby))).lines 0).due = true ∧
    (Table.look (due 0 (part (yard .standby))).lines 0).role ≠ .unused := by decide +kernel
theorem witness_FourTransitionsDeliverOnePassage : (Table.look (part (yard .standby)).heads 0).state = .idle := by
  decide +kernel
theorem witness_StopLineHaltsHump : (Table.look (due 10 (part (yard .humping))).lines 10).due = true ∧
    (Table.look (due 10 (part (yard .humping))).lines 10).role = .stop ∧
    (Table.look (due 10 (part (yard .humping))).lines 10).filtered = false ∧
    (due 10 (part (yard .humping))).mode = .humping ∧
    (due 10 (part (yard .humping))).yard.control.stopFlag = false := by decide +kernel
theorem witness_FreezeStartHaltsHump : (Table.look (due 11 (part (yard .humping))).lines 11).due = true ∧
    (Table.look (due 11 (part (yard .humping))).lines 11).role = .freezeKey 0 ∧
    (due 11 (part (yard .humping))).yard.control.freezeFlag = false ∧
    freezeCondition (takeDue (due 11 (part (yard .humping))).lines .freeze) = true ∧
    (due 11 (part (yard .humping))).mode = .humping := by decide +kernel

/-- P0 MOVING from N to R has lost N before; its R line is due. -/
def arriving : State := due 9 (withLine 8 (fun l => { l with filtered := false }) (part moving))
theorem witness_ProofOfTargetCompletesThrow : (Table.look arriving.lines 9).due = true ∧
    (Table.look arriving.lines 9).role = .detectR 0 ∧
    provedLeg (roleLevel (takeDue arriving.lines (.point 0)) (.detectN 0))
      (roleLevel (takeDue arriving.lines (.point 0)) (.detectR 0)) = some .R ∧
    arriving.yard.pointOf 0 = some { point with state := .moving .R .N 9000 .deadline } ∧
    arriving.yard.queueOf 0 = [] ∧ arriving.yard.waitingOf 0 = none ∧ arriving.yard.waiting = [] := by decide +kernel

/-- Head 1 in DOWN_2, its both-active timer at 20000. -/
def jammed : State :=
  let s := at_ 20000 (part (yard .humping))
  { s with heads := Table.put s.heads 1 { Head.off with state := .down2, timer := some 20000 } }
theorem witness_BothActiveExpiryFaultsHead : (Table.look jammed.heads 1).timer = some 20000 ∧
    (Table.look jammed.heads 1).state.timed = true ∧ atOrAfter jammed.clock 20000 = true ∧
    jammed.ladder.adjoining 1 = [.lead, .point 0] ∧ jammed.yard.sectionOf .lead = some clearSection := by decide +kernel

/-! ## Witnesses: sections, cuts, crest -/

theorem witness_StallExpirySetsFlag : stalling.yard.sectionOf .lead = some occupied ∧ occupied.stallTimer = some 600000 ∧
    atOrAfter stalling.clock 600000 = true ∧ stalling.mode = .humping ∧ stalling.yard.control.stall = 0 := by decide +kernel
theorem witness_LostCutIsMarkedAndFillKept :
    rolling.cutAt 0 = some (cut .rolling (some (under 0 4 0))) ∧ (cut .rolling (some (under 0 4 0))).onLadder = true := by
  decide +kernel

/-- The cut of S0 has entered with 2 of its 4 axles when the gap timer expires. -/
def short : State :=
  at_ 31000 (part
    { holding (.cut (cut .entering (some (under 0 2 0)))) (yard .humping) with
        lead := some { occupied with count := 2, occupants := [{ slot := 0, entered := 2, exited := 0 }] },
        crest := { state := .entering 0 { number := 501, tally := 2, target := 4 },
                   timer := some { origin := 1000, expiry := 31000, longAgo := false }, previous := none, nextOrder := 2 } })
theorem witness_ShortCutReducesEnteringCut :
    short.yard.crest.state = .entering 0 { number := 501, tally := 2, target := 4 } ∧
    short.yard.crest.timer = some { origin := 1000, expiry := 31000, longAgo := false } ∧ atOrAfter short.clock 31000 = true ∧
    short.yard.cutAt 0 = some (cut .entering (some (under 0 2 0))) := by decide +kernel

/-- An absorption whose gap timer expires, a hold marker at the head of the list. -/
def absorbing : State :=
  at_ 31000 (part
    { holding (.hold 900 false) (yard .humping) with
        pendingList := [0],
        crest := { state := .absorbing none { number := 501, tally := 2, target := 4 },
                   timer := some { origin := 1000, expiry := 31000, longAgo := false }, previous := none, nextOrder := 2 } })
theorem witness_AbsorptionEndsOnExpiry :
    absorbing.yard.crest.state = .absorbing none { number := 501, tally := 2, target := 4 } ∧
    absorbing.yard.crest.timer = some { origin := 1000, expiry := 31000, longAgo := false } ∧ atOrAfter absorbing.clock 31000 = true := by
  decide +kernel
theorem witness_MarkerIsReachedWithIdleCrest :
    absorbing.yard.pendingList = [0] ∧ Table.look absorbing.yard.slots 0 = some (.hold 900 false) ∧
    absorbing.yard.crest.state ≠ .idle ∧ (yard .humping).crest.state = .idle ∧
    Table.look (listed .humping).slots 0 ≠ some (.hold 900 false) := by decide +kernel
theorem witness_HeadCutStartsAtCrestAxle : (part (listed .humping)).yard.crest.state = .idle ∧
    (part (listed .humping)).mode = .humping ∧ (part (listed .humping)).yard.pendingList = [0] ∧
    (part (listed .humping)).yard.cutAt 0 = some (cut .pending none) ∧
    (part (listed .humping)).yard.lead = some clearSection ∧ clearSection.state ≠ .disturbed ∧
    clearSection.count < 255 := by decide +kernel

/-! ## Witnesses: point control and planning -/

theorem witness_ThrowTimeoutStartsReturn :
    throwing.yard.pointOf 0 = some { point with state := .moving .R .N 9000 .deadline } ∧
    throwing.ladder.config 0 = some config ∧ atOrAfter throwing.clock 9000 = true := by decide +kernel
theorem witness_FailedReturnLosesPoint : (part returning).yard.pointOf 0 =
      some { point with state := .returning .N 18000 .deadline } ∧ atOrAfter (at_ 18000 (part returning)).clock 18000 = true ∧
    (part returning).mode = .humping ∧ (part returning).yard.control.lost = 0 := by decide +kernel
theorem witness_DeadlineExpiryDivertsHead :
    (part waiting).yard.waitingOf 0 = some { point := 0, target := .N, claim := .deadline 114000 0 } ∧
    laterThan (at_ 114001 (part waiting)).clock 114000 = true ∧ (part waiting).yard.pointLie 0 = some .N ∧
    (part waiting).yard.queueHead 0 = some 0 ∧ (part waiting).yard.startedAt 0 = some (under 0 4 0) ∧
    (part waiting).ladder.fallback 0 .N = some 0 ∧ (part waiting).yard.planOf 0 = some Plan.idle := by decide +kernel
theorem witness_ThrowTestComputesMargin : 0 < ({ slot := 0, instant := 0, interval := 1, longAgo := false } : QueueEntry).interval := by
  decide +kernel

/-- A MANUAL entry of P0 toward R stands alone in the list. -/
def requested : Yard := { yard .humping with waiting := [{ point := 0, target := .R, claim := .manual }] }
theorem witness_ArbiterGrantsEligibleFirstEntry : requested.waiting = [{ point := 0, target := .R, claim := .manual }] ∧
    requested.slotsInUse < ladder.consts.slots ∧ requested.control.freezeFlag = false ∧ requested.pointOf 0 = some point ∧
    point.state.lie = some .N ∧ point.barred = false ∧ requested.sectionClear (.point 0) = true ∧
    ladder.config 0 = some config := by decide +kernel

/-! ## Witnesses: destinations -/

/-- M31 covers the codes 128 to 255 and names T0. -/
def mapped : Yard :=
  { yard .humping with
      blockMap := Table.put (Table.fill 32 none) 31 (some { code := 200, span := 7, track := 0 }) }
theorem witness_LookupTakesFirstCoveringEntry :
    Table.look mapped.blockMap 31 = some { code := 200, span := 7, track := 0 } ∧
    (128#8).toNat / 2 ^ 7 = 200 / 2 ^ 7 ∧ (127#8).toNat / 2 ^ 7 ≠ 200 / 2 ^ 7 ∧ ladder.trackInUse 0 = true ∧
    (∀ j : Fin 32, j < 31 → Table.look mapped.blockMap j = none) ∧ ladder.consts.defaultTrack = none ∧
    ladder.consts.reject = some 1 := by decide +kernel
/-- W0 closes T0 and T1; T0 has room for 4 axles more. -/
def closing : Yard :=
  { yard .humping with
      windows := Table.put (Table.fill 4 { first := 1, last := 0 }) 0 { first := 0, last := 255 },
      tracks := Table.put Yard.reset.tracks 0 { capacity := 10, fill := 4, reserved := 2 } }
theorem witness_DirectTrackResolvesByClosureAndRoom : ladder.consts.reject = some 1 ∧ ladder.trackInUse 40 = false ∧
    ladder.trackInUse 1 = true ∧ ladder.trackInUse 0 = true ∧ closing.covered ladder 0 = true ∧
    (yard .humping).covered ladder 0 = false ∧ (closing.trackOf 0).capacity < 4 + 2 + 5 ∧
    4 + 2 + 4 ≤ (closing.trackOf 0).capacity ∧ ((yard .humping).trackOf 0).capacity = 0 := by decide +kernel

/-! ## Witnesses: requests -/

theorem witness_ConfigurationRequestsReplaceRecords : before.mode = .setup ∧ (part (yard .standby)).mode ≠ .setup ∧
    PointInRange config ∧ PointInRange { config with dApp := 30000, tThrow := 3000, grade := 50, stall := 600 } ∧
    ConstantsInRange ladder.consts ∧
    ConstantsInRange { ladder.consts with spacing := 250, guard := 1000, gIn := 200, gCpl := 150, slots := 8 } := by
  unfold PointInRange ConstantsInRange
  decide +kernel
theorem witness_SetLineRestartsFilter : before.mode = .setup ∧ NamesRole 0 255 .unused ∧ NamesRole 1 81 (.sensorA 81) ∧
    NamesRole 4 39 (.detectR 39) ∧ NamesRole 6 3 (.freezeKey 3) := by
  unfold NamesRole
  decide +kernel
theorem witness_CommissionCreatesLadder : before.mode = .setup ∧ before.ladder.check = none ∧
    before.ladder.checkLines before.lines = none ∧ State.reset.mode = .setup ∧
    State.reset.ladder.check = some (255, 1) ∧
    before.ladder.checkLines (Table.put before.lines 3 Line.reset) = some (1, 3) := by decide +kernel
theorem witness_DecommissionRemovesLadder : (part (yard .standby)).mode = .standby ∧ ¬ CutOnLadder (yard .standby) ∧
    CutOnLadder rolling := by
  refine ⟨rfl, ?_, 0, cut .rolling (some (under 0 4 0)), rfl, .inr rfl⟩
  rintro ⟨i, c, h, -⟩
  have : ∀ i : SlotIx, (yard .standby).cutAt i = none := by decide +kernel
  rw [this i] at h
  cases h
theorem witness_ModeRequestsChangeMode : (part (yard .standby)).mode = .standby ∧ (part (yard .halted)).mode = .halted ∧
    (yard .standby).control.stopFlag = false ∧ (yard .standby).control.disturbed = 0 ∧
    (yard .standby).control.lost = 0 ∧ (yard .standby).control.stall = 0 ∧
    (yard .standby).control.freezeFlag = false := by decide +kernel
theorem witness_EnterAndHoldAppendRecord : NumberFree (yard .standby) 501 ∧ LowestFree (yard .standby) 0 ∧
    HoldsNumber (listed .humping) 501 0 (.cut (cut .pending none)) ∧ LowestFree (listed .humping) 1 ∧
    DestinationAccepted (part (yard .humping)) (.track 1) ∧ DestinationAccepted before (.track 40) := by
  have h : ∀ i : SlotIx, Table.look (yard .standby).slots i = none := by decide +kernel
  have k : ∀ i : SlotIx, i ≠ 0 → Table.look (listed .humping).slots i = none := by decide +kernel
  refine ⟨?_, ⟨h 0, by decide +kernel⟩, ⟨rfl, rfl, ?_⟩, ⟨by decide +kernel, by decide +kernel⟩, .inr (by decide +kernel),
    .inl rfl⟩
  · intro i r hr
    rw [h i] at hr
    cases hr
  · intro j z hz _
    by_contra hj
    rw [k j hj] at hz
    cases hz
theorem witness_AmendReplacesSelectedFields : HoldsNumber (listed .humping) 501 0 (.cut (cut .pending none)) ∧
    DestinationAccepted (part (listed .humping)) (.track 1) ∧ (2#8).toNat = 2 ∧ (120#8).toNat = 120 :=
  ⟨witness_EnterAndHoldAppendRecord.2.2.1, .inr (by decide +kernel), rfl, rfl⟩
theorem witness_AmendReroutesCutOnLadder : HoldsNumber rolling 501 0 (.cut (cut .rolling (some (under 0 4 0)))) ∧
    (under 0 4 0).route.take (under 0 4 0).progress <+: ladder.routeOf 1 ∧ rolling.closed ladder 1 = false ∧
    ladder.consts.reject = some 1 ∧ rolling.queueHead 0 = some 0 ∧
    (∀ q, ({ rolling with queues := Table.fill 40 [] } : Yard).queueHead q ≠ some 0) := by
  have k : ∀ i : SlotIx, i ≠ 0 → Table.look rolling.slots i = none := by decide +kernel
  refine ⟨⟨rfl, rfl, ?_⟩, by decide +kernel, by decide +kernel, rfl, by decide +kernel, by decide +kernel⟩
  intro j z hz _
  by_contra hj
  rw [k j hj] at hz
  cases hz
theorem witness_WithdrawAndRetireFreeSlot : NumberFree (yard .standby) 501 ∧
    HoldsNumber (listed .humping) 501 0 (.cut (cut .pending none)) ∧ (listed .humping).pendingList.head? = some 0 ∧
    (cut .arrived (some (under 1 4 4))).state = .arrived ∧
    HoldsNumber rolling 501 0 (.cut (cut .rolling (some (under 0 4 0)))) :=
  ⟨witness_EnterAndHoldAppendRecord.1, witness_EnterAndHoldAppendRecord.2.2.1, rfl, rfl,
    witness_AmendReroutesCutOnLadder.1⟩
theorem witness_TrackRequestsReplaceSettings : TrackAccepted before 40 ∧ TrackAccepted (part (yard .humping)) 1 ∧
    ¬ TrackAccepted (part (yard .humping)) 2 := by
  unfold TrackAccepted
  decide +kernel
theorem witness_ReadsAnswerAndChangeNothing : IsRead .readDevice ∧
    Table.look (listed .humping).slots 0 = some (.cut (cut .pending none)) ∧
    (part (yard .standby)).mode ≠ .setup ∧ (yard .standby).sectionOf (.point 0) = some clearSection ∧
    (63#8).toNat < 64 := by
  refine ⟨trivial, ?_⟩
  decide +kernel
theorem witness_ThrowProvesPlacesOrStarts : (part (yard .standby)).mode ≠ .setup ∧ (yard .standby).pointOf 0 = some point ∧
    point.state.lie = some .N ∧ point.barred = false ∧ (yard .standby).waitingOf 0 = none ∧
    (yard .standby).sectionClear (.point 0) = true ∧ (yard .standby).queueOf 0 = [] ∧
    (yard .standby).control.freezeFlag = false ∧ ladder.config 0 = some config ∧ (yard .standby).waiting = [] ∧
    (yard .standby).slotsInUse < ladder.consts.slots ∧
    ladder.consts.slots ≤ ({ yard .standby with slotsInUse := 2 } : Yard).slotsInUse := by decide +kernel
theorem witness_BarUnbarRestoreChangePoint : (part (yard .standby)).mode ≠ .setup ∧ (yard .standby).pointOf 0 = some point ∧
    point.state.lie = some .N ∧ (pointAt (.lost .detectionLost) (yard .standby)).pointOf 0 =
      some { point with state := .lost .detectionLost } ∧ point.detectN ≠ point.detectR ∧
    moving.pointOf 0 = some { point with state := .moving .R .N 9000 .deadline } := by decide +kernel
theorem witness_ResetSectionClearsSection : (part rolling).mode ≠ .setup ∧ rolling.sectionOf .lead = some occupied ∧
    rolling.sectionOf (.point 0) = some clearSection ∧ rolling.pointInMotion 0 = false ∧ moving.pointInMotion 0 = true ∧
    (∀ h ∈ ladder.headsOf .lead, (Table.look (part rolling).heads h).condition = .ok) ∧
    rolling.cutAt 0 = some (cut .rolling (some (under 0 4 0))) := by decide +kernel
theorem witness_AckRemovesNamedReasons : (∀ r ∈ [(1 : Byte), 7], 1 ≤ r.toNat ∧ r.toNat ≤ reasonsOf (.cut 63)) ∧
    (∃ r ∈ [(2 : Byte)], r.toNat = 0 ∨ reasonsOf (.track 40) < r.toNat) ∧
    (∀ j, noticeCode j ≠ (2, 1)) ∧ (∀ j, noticeCode j ≠ (5, 0)) := by
  refine ⟨by decide, ⟨2, by decide, .inr (by decide)⟩, ?_, ?_⟩ <;> intro j <;> cases j <;> simp [noticeCode]
theorem witness_SetAttentionReplacesEnables : ∃ k : Nat, k < 6 ∧ 1 < (([0, 1, 0, 1, 0, 2] : List Byte).getD k 0).toNat :=
  ⟨5, by decide, by decide⟩

/-! ## Witnesses: the clauses of the statements on heads, cuts, crest and planning -/

/-- A due sensor line of head 0, and a head in each decoder state. -/
theorem witness_FourTransitions_line : (Table.look (due 1 (part (yard .standby))).lines 1).due = true ∧
    (Table.look (due 1 (part (yard .standby))).lines 1).role = .sensorB 0 ∧
    ∀ d : DecoderState, ({ Head.off with state := d } : Head).state = d := by
  refine ⟨by decide +kernel, by decide +kernel, fun _ => rfl⟩

/-- Freeze in HALTED, the key's line due: P0 at rest with the first entry of the list, a cut at the head of its queue. -/
def thawing : State :=
  due 11 (withLine 11 (fun l => { l with filtered := true }) (part
    { rolling with
        control := { ModeControl.reset with mode := .halted, freezeFlag := true },
        waiting := [{ point := 0, target := .R, claim := .manual }] }))
theorem witness_FreezeStart_end : (Table.look thawing.lines 11).due = true ∧
    (Table.look thawing.lines 11).role = .freezeKey 0 ∧ thawing.yard.control.freezeFlag = true ∧
    freezeCondition (takeDue thawing.lines .freeze) = false ∧ thawing.mode ≠ .setup ∧
    thawing.yard.waiting = [{ point := 0, target := .R, claim := .manual }] ∧
    thawing.yard.slotsInUse < thawing.ladder.consts.slots ∧ thawing.yard.pointOf 0 = some point ∧
    thawing.yard.sectionClear (.point 0) = true ∧ thawing.ladder.config 0 = some config ∧
    thawing.yard.queueHead 0 = some 0 ∧ thawing.yard.planOf 0 = some Plan.idle := by decide +kernel

/-- Head 1 adjoins the lead above and P0's section below; the leg head 2 has a track below. -/
theorem witness_BothActive_rollback : ladder.sectionAbove 1 = some .lead ∧ ladder.below 1 = .area (.point 0) ∧
    ladder.sectionAbove 2 = some (.point 0) ∧ ladder.below 2 = .track 0 ∧ ladder.sectionAbove 0 = none ∧
    ladder.below 0 = .area .lead ∧ rolling.sectionOf .lead = some occupied ∧ occupied.state ≠ .disturbed ∧
    (areaAt (disturbed 255) rolling).sectionOf (.point 0) = some (disturbed 255) := by decide +kernel

theorem witness_LostCut_clauses : occupied.state ≠ .disturbed ∧ (∃ o ∈ occupied.occupants, o.slot = 0) ∧
    rolling.sectionOf .lead = some occupied ∧ (∃ a ∈ rolling.queueOf 0, a.slot = 0) ∧
    (∀ q : PointIx, (∃ a ∈ rolling.queueOf q, a.slot = 0) → q = 0) ∧
    short.yard.crest.state = .entering 0 { number := 501, tally := 2, target := 4 } ∧
    short.yard.cutAt 0 = some (cut .entering (some (under 0 2 0))) := by decide +kernel

/-- The gap timer at its limit, and one that has run for 2^31 ticks. -/
theorem witness_ShortCut_long : atOrAfter 31000 31000 = true ∧ atOrAfter 30999 31000 = false ∧
    ({ origin := 1000, expiry := 31000, longAgo := true } : GapTimer).longAgo = true := by decide +kernel

/-- The listed cut in S0 with a cut ROLLING in S1 before it, 5999 ticks after that cut's last crest instant. -/
def following : State :=
  part
    { listed .humping with
        slots := Table.put (listed .humping).slots 1 (some (.cut { cut .rolling (some (under 0 4 0)) with number := 502 })),
        crest := { Crest.reset with previous := some { slot := 1, number := 502, instant := 1000, longAgo := false } } }
/-- A downhill passage at C. -/
def crossing (t : Instant) : Passage := { direction := .downhill, instant := t, interval := 300, longAgo := false }
theorem witness_HeadCut_coupled : CoupledTo following (crossing 6999) 502 (under 0 4 0) :=
  ⟨_, { cut .rolling (some (under 0 4 0)) with number := 502 }, rfl, rfl, rfl, rfl, .inl rfl, rfl, rfl, by decide +kernel⟩
theorem witness_HeadCut_resolved : (∀ n x, ¬ CoupledTo following (crossing 7000) n x) ∧
    (∀ n x, ¬ CoupledTo (part (listed .humping)) (crossing 6999) n x) ∧
    (∀ q : PointIx, (listed .humping).queueHead q ≠ some 0) ∧ ladder.root = some 0 ∧ (listed .humping).waiting = [] ∧
    KeepsRoute (part (listed .humping)) [(0, .N)] ∧ KeepsRoute (part { rolling with pendingList := [1] }) [(0, .R)] := by
  refine ⟨?_, ?_, by decide +kernel, by decide +kernel, rfl, ?_, ?_⟩
  · rintro n x ⟨p, c, hp, -, -, -, -, -, -, h⟩
    cases hp
    revert h
    decide +kernel
  · rintro n x ⟨p, c, hp, -⟩
    cases hp
  · intro r hr
    cases hr
    exact .inr ⟨point, .N, rfl, .inl rfl, rfl⟩
  · intro r hr
    cases hr
    exact .inl (by decide +kernel)

/-- The expired entry of P0 for the cut in S0 that goes by its reverse leg. -/
def overdue : State :=
  at_ 114001 (part { against 1000 with waiting := [{ point := 0, target := .R, claim := .deadline 114000 0 }] })
theorem witness_Deadline_reroutes : overdue.yard.waitingOf 0 = some { point := 0, target := .R, claim := .deadline 114000 0 } ∧
    laterThan overdue.clock 114000 = true ∧ laterThan 114000 114000 = false ∧ overdue.yard.pointLie 0 = some .N ∧
    overdue.yard.queueHead 0 = some 0 ∧ overdue.ladder.fallback 0 .N = some 0 ∧
    (∀ q : PointIx, q ≠ 0 → overdue.yard.queueHead q ≠ some 0) ∧
    (overdue.yard.cutAt 0).map Cut.onLadder = some true ∧ (overdue.yard.startedAt 0).map Started.resolved = some 1 ∧
    overdue.yard.waiting = [{ point := 0, target := .R, claim := .deadline 114000 0 }] := by decide +kernel

/-- What the evaluation finds: no queue, a point that serves, one that is LOST, one against the route at rest: barred, under a
section not CLEAR, and with the throw test passing at 513000 and failing after it. -/
theorem witness_ThrowTest_evaluation : (yard .humping).queueOf 0 = [] ∧ Serves point.state .N ∧
    Serves (.moving .R .N 9000 .deadline) .R ∧ (under 0 4 0).legAt 0 = some .N ∧ rolling.waitingOf 0 = none ∧
    rolling.planOf 0 = some Plan.idle ∧ (PointState.lost .detectionLost).lie = none ∧
    ((against 400000).startedAt 0).bind (fun x => x.legAt 0) = some .R ∧ point.state.lie = some .N ∧
    (areaAt occupied (against 400000)).sectionState (.point 0) ≠ some .clear ∧
    (against 400000).sectionState (.point 0) = some .clear ∧ ladder.fallback 0 .N = some 0 ∧
    (throwTest ladder.consts config { slot := 0, instant := 400000, interval := 300, longAgo := false } 513000).pass = true ∧
    (throwTest ladder.consts config { slot := 0, instant := 400000, interval := 300, longAgo := false } 513001).pass = false ∧
    config.dApp ≤ 30000 ∧ (against 400000).waiting = [] ∧ (against 400000).slotsInUse < ladder.consts.slots := by
  unfold Serves
  refine ⟨by decide +kernel, .inl rfl, .inr ⟨_, _, _, rfl⟩, ?_⟩
  decide +kernel
theorem witness_ThrowTest_entry : (pointAt (.faulty .N .throwFailed) (against 1000)).pointLie 0 = some .N ∧
    (pointAt (.lost .detectionLost) (against 1000)).pointOf 0 = some { point with state := .lost .detectionLost } ∧
    (against 1000).waitingOf 0 = none ∧ (against 1000).control.freezeFlag = false ∧ (Leg.N ≠ Leg.R) := by decide +kernel

theorem witness_Arbiter_order : Ahead 0 { point := 3, target := .N, claim := .deadline (2147483647#32) 0 } ∧
    [({ point := 2, target := .N, claim := .deadline 5 0 } : Waiting), { point := 3, target := .N, claim := .deadline 5 1 },
      { point := 1, target := .R, claim := .manual }].Pairwise (Precedes 0) := by
  refine ⟨?_, ?_⟩
  · rintro d i h; cases h; decide
  · simp [Precedes]
theorem witness_Arbiter_refuses : ladder.consts.slots ≤ ({ requested with slotsInUse := 2 } : Yard).slotsInUse ∧
    (areaAt occupied requested).sectionState (.point 0) ≠ some .clear ∧ requested.sectionState (.point 0) = some .clear := by
  decide +kernel

/-! ## Witnesses: the clauses of the statements on passages -/

/-- An exit: the first axle and the last of the cut in S0, none in the section, a DISTURBED one. -/
theorem witness_Arrival_exit : rolling.sectionOf .lead = some occupied ∧ occupied.state ≠ .disturbed ∧
    occupied.occupants = [] ++ { slot := 0, entered := 1, exited := 0 } :: [] ∧
    rolling.cutAt 0 = some (cut .rolling (some (under 0 4 0))) ∧ occupied.count = axlesIn occupied.occupants ∧
    (∀ o ∈ [({ slot := 0, entered := 3, exited := 3 } : Occupant)], o.entered ≤ o.exited) ∧
    (disturbed 0).state = .disturbed := by decide +kernel
/-- P0 is left by N, the leg that the route names, or by R, the one it does not. -/
theorem witness_Arrival_legs : (under 0 4 0).legAt 0 = some .N ∧ rolling.pointLie 0 = some .N ∧
    ladder.fallback 0 .R = some 1 ∧ rolling.waiting = [] ∧ (1 : TrackIx) ≠ (under 0 4 0).resolved ∧
    (cut .rolling (some (under 0 4 0))).onLadder = true := by decide +kernel
/-- A leading axle comes into a section that is CLEAR, OCCUPIED with 254 or 255 axles, DISTURBED, of a point in motion; the
cut goes on to a point or to a track. -/
theorem witness_Arrival_leading : rolling.sectionOf (.point 0) = some clearSection ∧
    (areaAt { occupied with count := 254 } rolling).sectionOf (.point 0) = some { occupied with count := 254 } ∧
    (areaAt { occupied with count := 255 } rolling).sectionOf (.point 0) = some { occupied with count := 255 } ∧
    (areaAt (disturbed 255) rolling).sectionOf (.point 0) = some (disturbed 255) ∧ moving.pointInMotion 0 = true ∧
    twoPoints.target 0 .N = .point 1 ∧ (∀ leg ∈ [Leg.N, .R], twoPoints.target 0 leg ≠ .point 0) ∧
    (∀ r : PointIx, r ≠ 0 → rolling.queueHead r ≠ some 0) ∧ rolling.waitingOf 0 = none := by decide +kernel
theorem witness_Arrival_further : occupied.occupants = [] ++ { slot := 0, entered := 1, exited := 0 } :: [] ∧
    (areaAt occupied rolling).sectionOf (.point 0) = some occupied ∧ (∀ o ∈ occupied.occupants, o.slot ≠ 1) ∧
    moving.pointInMotion 0 = true ∧ rolling.pointInMotion 0 = false := by decide +kernel
theorem witness_Arrival_track : (under 1 4 3).inTrack + 1 = (cut .rolling (some (under 1 4 3))).axles ∧
    (under 1 4 2).inTrack + 1 ≠ (cut .rolling (some (under 1 4 2))).axles ∧
    (cut .entering (some (under 1 4 3))).state ≠ .rolling := by decide +kernel

/-! ## Witnesses: the clauses of the statements on requests -/

/-- The fields of P0 in SET POINT and those of the yard constants, each changed just beyond its range. -/
theorem witness_Configuration_fields : (∀ m < 10, PointFieldInRange { pointFields 39 config with stall := 601 } m) ∧
    ¬ PointFieldInRange { pointFields 39 config with stall := 601 } 10 ∧
    ¬ PointFieldInRange { pointFields 0 config with point := 40 } 0 ∧
    ¬ PointFieldInRange { pointFields 0 config with nKind := 2, nIndex := 41 } 3 ∧
    PointFieldInRange { pointFields 0 config with nKind := 0, nIndex := 255 } 3 ∧
    ¬ PointFieldInRange { pointFields 0 config with dApp := 299 } 5 ∧
    (∀ m < 4, YardFieldInRange { yardFields ladder.consts with gIn := 200, gCpl := 151 } m) ∧
    ¬ YardFieldInRange { yardFields ladder.consts with gIn := 200, gCpl := 151 } 4 ∧
    (∀ m < 8, YardFieldInRange { yardFields ladder.consts with defaultTrack := 41 } m) ∧
    ¬ YardFieldInRange { yardFields ladder.consts with defaultTrack := 41 } 8 ∧ (pointFields 39 config).inUse = 1 := by
  refine ⟨?_, ?_, ?_, ?_, ?_, ?_, ?_, ?_, ?_, ?_, rfl⟩
  case refine_1 => intro m hm; interval_cases m <;> simp [PointFieldInRange, TargetInRange, TrackOrNoneInRange, pointFields, config, targetCode, trackCode, boolCode]
  case refine_7 => intro m hm; interval_cases m <;> simp [YardFieldInRange, yardFields, ladder, Constants.reset]
  case refine_9 => intro m hm; interval_cases m <;> simp [YardFieldInRange, TrackOrNoneInRange, yardFields, ladder, Constants.reset, trackCode]
  all_goals simp [PointFieldInRange, YardFieldInRange, TargetInRange, TrackOrNoneInRange]
/-- SET LINE: a kind, a head, an active level and a class out of range behind fields that are in range. -/
theorem witness_SetLine_fields : LineFieldInRange 6 3 1 1 4 ∧ ¬ LineFieldInRange 7 0 0 0 1 ∧
    (∀ m < 2, LineFieldInRange 1 82 2 2 m) ∧ ¬ LineFieldInRange 1 82 2 2 2 ∧ (∀ m < 3, LineFieldInRange 5 255 2 2 m) ∧
    ¬ LineFieldInRange 5 255 2 2 3 ∧ (∀ m < 4, LineFieldInRange 4 39 1 2 m) ∧ ¬ LineFieldInRange 4 39 1 2 4 ∧
    (part (yard .humping)).mode ≠ .setup := by
  refine ⟨?_, ?_, ?_, ?_, ?_, ?_, ?_, ?_, by decide +kernel⟩
  case refine_3 | refine_5 | refine_7 => intro m hm; interval_cases m <;> simp [LineFieldInRange]
  all_goals simp [LineFieldInRange]

/-- Two roots, the second refused; a role held twice. -/
theorem witness_Commission_checks :
    IsRoot (Ladder.mk (Table.put ladder.points 39 (some config)) ladder.consts) 0 ∧
    IsRoot (Ladder.mk (Table.put ladder.points 39 (some config)) ladder.consts) 39 ∧
    (Ladder.mk (Table.put ladder.points 39 (some config)) ladder.consts).check = some (39, 3) ∧
    (Ladder.mk (Table.put ladder.points 0 (some { config with isRoot := false })) ladder.consts).check = some (255, 2) ∧
    twoPoints.check = none ∧ twoPoints.target 1 .N = .track 0 ∧ twoPoints.routeOf 0 = [(0, .N), (1, .N)] ∧
    Doubled (Table.put lines 255 { Line.reset with role := .stop }) 255 ∧
    ladder.checkLines (Table.put lines 255 { Line.reset with role := .stop }) = some (255, 1) ∧
    Configured ladder 2 ∧ (part (yard .halted)).mode ≠ .setup ∧ (part (yard .halted)).mode ≠ .standby := by
  refine ⟨⟨config, by decide +kernel, rfl⟩, ⟨config, by decide +kernel, rfl⟩, by decide +kernel, by decide +kernel,
    by decide +kernel, by decide +kernel, by decide +kernel, ?_, by decide +kernel,
    .inr ⟨0, .N, by decide +kernel, by decide +kernel⟩, by decide +kernel, by decide +kernel⟩
  unfold Doubled
  decide +kernel

theorem witness_Destinations_out_of_range : ¬ DestinationInRange (part (yard .humping)) 1 2 ∧
    ¬ DestinationInRange before 1 41 ∧ ¬ DestinationInRange before 2 0 ∧ DestinationInRange before 1 40 ∧
    DestinationInRange (part (yard .humping)) 0 255 ∧ (1#8).toNat < 2 ∧ 120 < (121#8).toNat ∧ 3 < (4#8).toNat := by
  have h : ∀ s : State, DestinationInRange s 1 2 → TrackAccepted s 2 := by
    rintro s (h | ⟨-, t, h, k⟩)
    · exact absurd h (by decide)
    · have e : t = 2 := Fin.ext (by simpa using h.symm)
      exact e ▸ k
  refine ⟨fun k => witness_TrackRequestsReplaceSettings.2.2 (h _ k), ?_, ?_, .inr ⟨rfl, 40, rfl, .inl rfl⟩, .inl rfl,
    by decide, by decide, by decide⟩
  · rintro (h | ⟨-, t, h, -⟩)
    · exact absurd h (by decide)
    · have := t.isLt; simp at h; omega
  · rintro (h | ⟨h, -⟩) <;> exact absurd h (by decide)

/-- The cut of S0 past P0 toward T0: T1 is not to be reached, T0 closed by W0, T0 full with 3 axles there. -/
def passed : Yard := { rolling with slots := Table.put rolling.slots 0 (some (.cut (cut .rolling (some (under 1 4 0))))) }
theorem witness_AmendReroutes_refusals : (under 1 4 0).route[0]? = some (0, Leg.N) ∧
    (ladder.routeOf 1)[0]? ≠ some (0, Leg.N) ∧ (under 1 4 0).progress = 1 ∧
    (under 1 4 0).route.take 1 <+: ladder.routeOf 0 ∧
    ({ passed with windows := closing.windows } : Yard).closed ladder 0 = true ∧ passed.closed ladder 0 = false ∧
    ladder.consts.reject ≠ some 0 ∧
    (({ passed with tracks := Table.put passed.tracks 0 { capacity := 6, fill := 3, reserved := 4 } } : Yard).trackOf 0).capacity
      < 3 + (4 - 4) + 4 ∧
    (({ passed with tracks := Table.put passed.tracks 0 { capacity := 7, fill := 3, reserved := 4 } } : Yard).trackOf 0).capacity
      = 3 + (4 - 4) + 4 := by decide +kernel

/-- READ SECTION, READ HEAD and READ LINE of a line that has been sampled and of one that has not. -/
theorem witness_Reads_fields : rolling.sectionOf .lead = some occupied ∧ (part rolling).mode ≠ .setup ∧
    occupied.occupants.length = 1 ∧ Configured ladder 0 ∧ Configured ladder 3 ∧ ladder.headConfigured 4 = false ∧
    Table.look mapped.blockMap 31 = some { code := 200, span := 7, track := 0 } ∧ Table.look mapped.blockMap 0 = none ∧
    (listed .humping).pendingList = [0] ∧ short.yard.crest.timer = some { origin := 1000, expiry := 31000, longAgo := false } ∧
    absorbing.yard.crest.state = .absorbing none { number := 501, tally := 2, target := 4 } ∧
    (Table.look lines 255).everSampled = false := by
  refine ⟨by decide +kernel, by decide +kernel, rfl, .inl ⟨.inl rfl, 0, by decide +kernel⟩,
    .inr ⟨0, .R, by decide +kernel, by decide +kernel⟩, ?_⟩
  decide +kernel

/-- THROW of P0 in motion, with an entry, its section OCCUPIED, a queue, under freeze. -/
theorem witness_Throw_refusals : moving.pointOf 0 = some { point with state := .moving .R .N 9000 .deadline } ∧
    (PointState.moving .R .N 9000 .deadline).inMotion = true ∧ requested.waitingOf 0 ≠ none ∧
    (areaAt occupied (yard .standby)).sectionState (.point 0) ≠ some .clear ∧ rolling.queueOf 0 ≠ [] ∧
    rolling.sectionState (.point 0) = some .clear ∧ thawing.yard.control.freezeFlag = true ∧ 1 < (2#8).toNat := by
  decide +kernel

/-- An OCCUPIED section with its stall flag set. -/
def stalled : Section := { occupied with stallTimer := none, stallFlag := true }
/-- C FAULTY with both its sensors INACTIVE. -/
def faultyCrest : State :=
  { part (yard .halted) with
      heads := Table.put (part (yard .halted)).heads 0 { Head.off with state := .held, condition := .faulty } }
theorem witness_ResetSection_stalled : ({ rolling with lead := some stalled } : Yard).sectionOf .lead = some stalled ∧
    stalled.Lawful ∧ stalled.state ≠ .clear ∧ stalled.stallFlag = true ∧
    (∀ p : PointIx, ∀ z, ({ rolling with lead := some stalled } : Yard).sectionOf (.point p) = some z →
      z.occupants = []) := by
  refine ⟨rfl, by unfold Section.Lawful; decide, by decide, rfl, ?_⟩
  intro p z h
  have hp : ∀ p : PointIx, rolling.sectionOf (.point p) = none ∨ rolling.sectionOf (.point p) = some clearSection := by
    decide +kernel
  rcases hp p with k | k
  · exact absurd (k.symm.trans h) (by simp)
  · cases k.symm.trans h; rfl
theorem witness_ResetSection_crest : Restores faultyCrest (.point 0) 0 ∧ Restores faultyCrest .lead 0 ∧
    ¬ Blocks faultyCrest 0 ∧
    Blocks { faultyCrest with lines := Table.put lines 0 { Table.look lines 0 with filtered := true } } 0 := by
  have h : ¬ Blocks faultyCrest 0 := by unfold Blocks; decide +kernel
  refine ⟨⟨by decide +kernel, .inr ⟨rfl, h, 0, by decide +kernel, rfl⟩⟩, ⟨by decide +kernel, .inl (by decide +kernel)⟩, h, ?_⟩
  unfold Blocks
  decide +kernel

/-! ## Witnesses: detection changes -/

/-- The levels of P0's detection after its due lines are taken. -/
def shownAfter (s : State) : Bool × Bool :=
  (roleLevel (takeDue s.lines (.point 0)) (.detectN 0), roleLevel (takeDue s.lines (.point 0)) (.detectR 0))
/-- P0's reverse line is ACTIVE besides. -/
def bothActive (s : State) : State := withLine 9 (fun l => { l with filtered := true }) s
/-- P0's normal line is INACTIVE. -/
def unproved (s : State) : State := withLine 8 (fun l => { l with filtered := false }) s
/-- P0 proves its lie again, loses it, swaps its two lines at once. -/
theorem witness_Detection_at_rest : (Table.look (due 9 (bothActive (part (yard .humping)))).lines 9).due = true ∧
    (Table.look (due 8 (part (yard .humping))).lines 8).role = .detectN 0 ∧ point.state.lie = some .N ∧
    shownAfter (due 9 (bothActive (part (yard .humping)))) = (true, false) ∧ proves true false = some .N ∧
    shownAfter (due 8 (part (yard .humping))) = (false, false) ∧ proves false false = none ∧
    shownAfter (due 9 (due 8 (part (yard .humping)))) = (false, true) ∧ proves false true = some .R ∧
    (part (yard .humping)).mode = .humping ∧ (yard .humping).control.lost = 0 ∧ (part (yard .standby)).mode ≠ .humping ∧
    requested.waitingOf 0 = some { point := 0, target := .R, claim := .manual } ∧ (against 1000).waiting = [] ∧
    (against 1000).queueOf 0 = [{ slot := 0, instant := 1000, interval := 300, longAgo := false }] ∧
    ((against 1000).startedAt 0).bind (fun z => z.legAt 0) = some .R ∧ ladder.config 0 ≠ none ∧
    (before.yard.pointOf 0) = none := by decide +kernel
/-- P0 MOVING to R while unproved, RETURNING to N while unproved and when N is proved, LOST. -/
theorem witness_Detection_in_motion : shownAfter (due 8 (part moving)) = (false, false) ∧
    moving.pointOf 0 = some { point with state := .moving .R .N 9000 .deadline } ∧
    shownAfter (due 9 (unproved (bothActive (part returning)))) = (false, false) ∧
    shownAfter (due 8 (unproved (part returning))) = (true, false) ∧
    returning.pointOf 0 = some { point with state := .returning .N 18000 .deadline } ∧ returning.waitingOf 0 = none ∧
    returning.waiting = [] ∧ (pointAt (.lost .detectionLost) (yard .halted)).pointOf 0 =
      some { point with state := .lost .detectionLost } := by decide +kernel
/-- The cut that needs the reverse leg waits for P0 that returns to N. -/
def turnedBack : Yard := { against 1000 with points := returning.points, slotsInUse := 1, drive := returning.drive }
theorem witness_Detection_return_diverts : turnedBack.waiting = [] ∧ turnedBack.planOf 0 = some Plan.idle ∧
    turnedBack.queueHead 0 = some 0 ∧ (turnedBack.cutAt 0).map Cut.onLadder = some true ∧
    (turnedBack.startedAt 0).bind (fun z => z.legAt 0) = some .R ∧ ladder.fallback 0 .N = some 0 ∧
    (turnedBack.startedAt 0).map Started.resolved = some 1 := by decide +kernel
/-- R127, R136: the return completes, and the cut is diverted to the fallback track of N. -/
theorem test_return_completes : ((turnedBack.detectionChange (env 5 ladder) 0 true false).pointStateOf 0) =
      some (.faulty .N .throwFailed) ∧
    ((turnedBack.detectionChange (env 5 ladder) 0 true false).startedAt 0).map (fun x => x.resolved) = some 0 := by
  decide +kernel
/-- R127: a point at rest is LOST by an unproved detection or by the other leg, each with its cause. -/
theorem test_rest_is_lost : ((yard .humping).detectionChange (env 5 ladder) 0 false false).pointStateOf 0 =
      some (.lost .detectionLost) ∧
    ((yard .humping).detectionChange (env 5 ladder) 0 false true).pointStateOf 0 = some (.lost .unexpectedMove) := by
  decide +kernel

/-! ## Witnesses: axles at C -/

/-- The lead with another record. -/
def leadAt (x : Section) (y : Yard) : Yard := { y with lead := some x }
/-- The cut of S0 has entered with 3 of its 4 axles. -/
def nearlyIn : Yard :=
  { short.yard with crest := { short.yard.crest with state := .entering 0 { number := 501, tally := 3, target := 4 } } }
theorem witness_Crest_further : short.yard.crest.state = .entering 0 { number := 501, tally := 2, target := 4 } ∧
    (2 + 1 : Nat) ≠ 4 ∧ nearlyIn.crest.state = .entering 0 { number := 501, tally := 3, target := 4 } ∧
    nearlyIn.cutAt 0 = some (cut .entering (some (under 0 2 0))) ∧ (crossing 7).direction = .downhill ∧
    (nearlyIn.lead.map (fun x => (x.state, x.count, x.occupants))) =
      some (.occupied, 2, [] ++ { slot := 0, entered := 2, exited := 0 } :: []) ∧
    (leadAt (disturbed 255) nearlyIn).lead = some (disturbed 255) ∧
    (leadAt { occupied with count := 255 } nearlyIn).lead = some { occupied with count := 255 } ∧
    (leadAt { occupied with count := 254 } nearlyIn).lead = some { occupied with count := 254 } ∧
    (∀ o ∈ clearSection.occupants, o.slot ≠ 0) := by decide +kernel
theorem witness_Crest_absorbed :
    absorbing.yard.crest.state = .absorbing none { number := 501, tally := 2, target := 4 } ∧ (3 + 1 : Nat) = 4 ∧
    ({ absorbing.yard.crest with state := .absorbing (some 63) { number := 501, tally := 3, target := 4 } } : Crest).state =
      .absorbing (some 63) { number := 501, tally := 3, target := 4 } ∧
    absorbing.yard.pendingList = [0] ∧ Table.look absorbing.yard.slots 0 = some (.hold 900 false) := by decide +kernel
theorem witness_Crest_unlisted : (listed .standby).control.mode = .standby ∧ (listed .standby).crest.state = .idle ∧
    absorbing.yard.pendingList = [0] ∧ absorbing.yard.cutAt 0 = none ∧ (yard .humping).pendingList = [] := by decide +kernel
theorem witness_Crest_uphill : ({ crossing 7 with direction := .uphill } : Passage).direction = .uphill ∧
    (yard .humping).crest.state = .idle ∧ short.yard.cutAt 0 = some (cut .entering (some (under 0 2 0))) ∧
    (∃ o ∈ (short.yard.lead.map (fun x => x.occupants)).getD [], o.slot = 0) := by decide +kernel
theorem witness_Crest_lost_start : (listed .halted).control.mode = .halted ∧ (listed .halted).crest.state = .idle ∧
    (leadAt (disturbed 254) (listed .halted)).lead = some (disturbed 254) ∧ (disturbed 254).occupants = [] ∧
    (leadAt { occupied with count := 255 } (listed .halted)).lead = some { occupied with count := 255 } ∧
    (listed .halted).cutAt 0 = some (cut .pending none) := by decide +kernel
/-- R91, R93: the last axle makes the cut ROLLING and the previous cut, its instant the last crest instant. -/
theorem test_last_axle_leaves_entering :
    let z := nearlyIn.deliver (env 50 ladder) crestHead (crossing 40)
    (z.cutAt 0).map Cut.state = some .rolling ∧ z.crest.state = .idle ∧
      z.crest.previous = some { slot := 0, number := 501, instant := (crossing 40).instant, longAgo := false } := by
  decide +kernel
/-- R103: the axle that rolls back lowers the tally, and the entering cut of the lead is LOST. -/
theorem test_uphill_at_crest :
    let z := short.yard.deliver (env 50 ladder) crestHead { crossing 40 with direction := .uphill }
    (z.cutAt 0).map Cut.state = some .lost ∧
      z.crest.state = .absorbing (some 0) { number := 501, tally := 1, target := 4 } := by
  decide +kernel

/-! ## Witnesses: the arbiter's expired entry, block destinations, common checks, reads -/

theorem witness_Arbiter_expired :
    overdue.yard.waiting = { point := 0, target := .R, claim := .deadline 114000 0 } :: [] ∧
    laterThan overdue.clock 114000 = true ∧ laterThan (114000 : Instant) 114000 = false ∧
    overdue.yard.slotsInUse < overdue.ladder.consts.slots ∧ overdue.yard.control.freezeFlag = false ∧
    overdue.yard.pointLie 0 = some .N ∧ overdue.yard.queueHead 0 = some 0 ∧
    (overdue.yard.cutAt 0).map Cut.onLadder = some true ∧ overdue.ladder.fallback 0 .N = some 0 ∧
    (yard .humping).queueHead 0 = none := by decide +kernel
/-- M31 names T0, which W0 closes, or which has room for 4 axles and no more; with no map entry the reject track is taken. -/
theorem witness_Block_resolves : mapped.lookup ladder 128 = (0, none) ∧ mapped.lookup ladder 127 = (1, some .noBlock) ∧
    ladder.consts.reject = some 1 ∧ ({ mapped with windows := closing.windows } : Yard).covered ladder 0 = true ∧
    mapped.covered ladder 0 = false ∧
    (({ mapped with tracks := closing.tracks } : Yard).trackOf 0) = { capacity := 10, fill := 4, reserved := 2 } ∧
    10 < 4 + 2 + 5 ∧ 4 + 2 + 4 ≤ 10 := by decide +kernel
theorem witness_Point_checks : before.mode = .setup ∧ (part (yard .standby)).mode ≠ .setup ∧ 39 < (40#8).toNat ∧
    (39#8).toNat = (39 : PointIx).val ∧ (yard .standby).pointOf 39 = none ∧
    (yard .standby).sectionOf (.point 39) = none ∧ (254 : Byte) ≠ 255 := by decide +kernel
/-- BAR and THROW of P39, not in use, and of an index beyond the last point. -/
theorem test_point_checks :
    (onPoint 39 barBody (part (yard .standby))).1 = { status := .noRecord, payload := [39] } ∧
    (onPoint 40 (throwBody 0) (part (yard .standby))).1 = { status := .badValue, payload := [0] } ∧
    (onPoint 0 restoreBody before).1 = { status := .badMode, payload := [] } := by decide +kernel
theorem witness_Read_refusals : 1 < (2#8).toNat ∧ NumberFree (yard .standby) 501 ∧ 63 < (64#16).toNat ∧
    Table.look (yard .standby).slots 63 = none ∧ 63 < (64#8).toNat ∧ 40 < (41#8).toNat ∧ 31 < (32#8).toNat ∧
    3 < (4#8).toNat ∧ 81 < (82#8).toNat ∧ (yard .standby).sectionOf .lead = some clearSection :=
  ⟨by decide, witness_EnterAndHoldAppendRecord.1, by decide, by decide +kernel, by decide, by decide, by decide, by decide,
    by decide, rfl⟩
/-- The feeding leg of T1 is P0/R; T2 is not in use; the highest track in use is T1. -/
theorem witness_Read_tracks : FeedsTrack ladder (0, .R) 1 ∧ ¬ Used ladder 2 ∧ Used ladder 1 ∧ (∀ u, Used ladder u → u ≤ 1) ∧
    (∀ u, ¬ Used Ladder.reset u) ∧ CoveredBy closing ladder 0 ∧ CoveredBy closing ladder 1 ∧
    ¬ CoveredBy (yard .humping) ladder 0 := by
  have h : ∀ p : PointIx, p = 0 ∨ (ladder.target p .N = .none ∧ ladder.target p .R = .none) := by decide +kernel
  have u : ∀ t, Used ladder t → t ≤ 1 := by
    rintro t ⟨p, leg, ht⟩
    rcases h p with rfl | ⟨a, b⟩
    · cases leg
      · obtain rfl : (0 : TrackIx) = t := by simpa using (show Target.track 0 = Target.track t from ht)
        decide
      · obtain rfl : (1 : TrackIx) = t := by simpa using (show Target.track 1 = Target.track t from ht)
        decide
    · cases leg <;> simp_all
  refine ⟨⟨by decide +kernel, ?_⟩, fun k => absurd (u 2 k) (by decide), ⟨0, .R, by decide +kernel⟩, u, ?_,
    ⟨0, by decide +kernel, by decide +kernel, 1, ⟨0, .R, by decide +kernel⟩, by decide⟩,
    ⟨0, by decide +kernel, by decide +kernel, 1, ⟨0, .R, by decide +kernel⟩, by decide⟩, ?_⟩
  · rintro ⟨p, leg⟩ (hp | ⟨hp, hl, -⟩)
    · exact absurd hp (Fin.not_lt_zero p)
    · cases hp; cases hl; decide +kernel
  · have r : ∀ p : PointIx, Ladder.reset.target p .N = .none ∧ Ladder.reset.target p .R = .none := by decide +kernel
    rintro t ⟨p, leg, ht⟩
    cases leg
    · exact absurd ((r p).1.symm.trans ht) (by simp)
    · exact absurd ((r p).2.symm.trans ht) (by simp)
  · rintro ⟨w, h1, h2, -⟩
    have k : ∀ w : Fin 4, ¬ ((Table.look (yard .humping).windows w).first ≤ 0 ∧
        0 ≤ (Table.look (yard .humping).windows w).last) := by decide +kernel
    exact k w ⟨h1, h2⟩
/-- R187, R188: READ CUT and READ POINT byte for byte as the rules lay them out. -/
theorem test_read_layouts :
    recordBytes 0 (.cut (cut .rolling (some (under 1 4 2)))) 5 =
      [0, 0, 0xF5, 1, 2, 5, 1, 0, 4, 1, 1, 0, 0, 0, 0, 0, 1, 1, 4, 2, 0, 0, 0, 0, 0, 0, 0] ++ List.replicate 32 0 ∧
    ((part waiting).pointBytes 0 point).take 17 =
      [0, 0x10, 1, 0, 0, 0, 0, 0, 1, 0, 0x50, 0xBD, 1, 0, 0xF5, 1, 0] := by decide +kernel

/-! ## Witnesses: the stages of the ladder check and of the line check -/

/-- A ladder of P0 alone with a record and yard constants. -/
def single (c : PointConfig) (k : Constants) : Ladder := { points := Table.put (Table.fill 40 none) 0 (some c), consts := k }
/-- A ladder of the root P0 and of P1 with their leg targets. -/
def pair (n0 r0 n1 r1 : Target) : Ladder :=
  { ladder with
      points :=
        Table.put (Table.put (Table.fill 40 none) 0 (some { config with normal := n0, reverse := r0 })) 1
          (some { config with isRoot := false, normal := n1, reverse := r1 }) }
/-- A chain of nine points by their normal legs. -/
def chain : Ladder :=
  { ladder with
      points := Table.tab (fun p =>
        if h : p.val < 9 then
          some { config with
            isRoot := p.val == 0, reverse := .track ⟨20 + p.val, by omega⟩,
            normal := if p.val < 8 then .point ⟨p.val + 1, by omega⟩ else .track 8 }
        else none) }

theorem oneRoot_of (l : Ladder) (h0 : (l.config 0).map PointConfig.isRoot = some true)
    (h : ∀ p : PointIx, (l.config p).map PointConfig.isRoot = some true → p = 0) :
    ∃ r, IsRoot l r ∧ ∀ p, IsRoot l p → p = r := by
  refine ⟨0, ?_, fun p hp => h p (by obtain ⟨c, hc, hr⟩ := hp; rw [hc]; simpa using hr)⟩
  cases hc : l.config 0 with
  | none => rw [hc] at h0; cases h0
  | some c => rw [hc] at h0; exact ⟨c, hc, by simpa using h0⟩
theorem target_unused (l : Ladder) (p : PointIx) (leg : Leg) (h : l.config p = none) : l.target p leg = .none := by
  unfold Ladder.target; rw [h]
/-- No leg fails stage 2, where the legs of the points in use are listed. -/
theorem legs_pass (l : Ladder) (us : List Pair)
    (h1 : ∀ p : PointIx, l.config p = none ∨ ((p, Leg.N) ∈ us ∧ (p, Leg.R) ∈ us))
    (h2 : ∀ x ∈ us, l.target x.1 x.2 ≠ .none ∧
      ∀ q, l.target x.1 x.2 = .point q → (l.config q).map PointConfig.isRoot = some false)
    (h3 : ∀ x ∈ us, ∀ y ∈ us, l.target x.1 x.2 = l.target y.1 y.2 → x = y) : ∀ leg n, ¬ LegFails l leg n := by
  have mem : ∀ x : Pair, l.config x.1 ≠ none → x ∈ us := by
    rintro ⟨p, leg⟩ h
    rcases h1 p with k | ⟨a, b⟩
    · exact absurd k h
    · cases leg <;> assumption
  have named : ∀ x : Pair, l.target x.1 x.2 ≠ .none → x ∈ us := fun x h => mem x fun k => h (target_unused l _ _ k)
  have pts : ∀ (x : Pair) (q : PointIx), l.target x.1 x.2 = .point q → (l.config q).map PointConfig.isRoot = some false := by
    intro x q h
    exact (h2 x (named x (by rw [h]; simp))).2 q h
  intro x n h
  match n, h with
  | 4, h => exact (h2 x (mem x h.1)).1 h.2
  | 5, ⟨q, hq, k⟩ => have := pts x q hq; rw [k] at this; cases this
  | 6, ⟨q, hq, c, hc, hr⟩ => have := pts x q hq; rw [hc] at this; simp [hr] at this
  | 7, ⟨h, _, e, he, k⟩ =>
    have := h3 e (named e (k ▸ h)) x (named x h) k
    subst this
    rcases he with h | ⟨-, a, b⟩
    · exact absurd h (lt_irrefl _)
    · exact absurd (a.symm.trans b) (by decide)
/-- Before P0/N there is no leg, before P0/R only it. -/
theorem earlier_zero (x : Pair) : (¬ EarlierLeg x (0, .N)) ∧ (EarlierLeg x (0, .R) → x = (0, .N)) := by
  refine ⟨?_, ?_⟩
  · rintro (h | ⟨-, -, h⟩)
    · exact absurd h (Fin.not_lt_zero _)
    · exact absurd h (by decide)
  · rintro (h | ⟨h, k, -⟩)
    · exact absurd h (Fin.not_lt_zero _)
    · exact Prod.ext h k

/-- Stage 2: no target, one not in use, the root, one named before. -/
theorem witness_Ladder_legs :
    (∃ r, IsRoot (pair .none (.track 1) (.track 0) (.track 2)) r ∧
      ∀ p, IsRoot (pair .none (.track 1) (.track 0) (.track 2)) p → p = r) ∧
    LegFails (pair .none (.track 1) (.track 0) (.track 2)) (0, .N) 4 ∧
    LegFails (pair (.point 39) (.track 1) (.track 0) (.track 2)) (0, .N) 5 ∧
    LegFails (pair (.point 0) (.track 1) (.track 0) (.track 2)) (0, .N) 6 ∧
    LegFails (pair (.track 40) (.track 40) (.track 0) (.track 2)) (0, .R) 7 ∧
    (∀ m, ¬ LegFails (pair (.track 40) (.track 40) (.track 0) (.track 2)) (0, .N) m) := by
  refine ⟨oneRoot_of _ (by decide +kernel) (by decide +kernel), ⟨by decide +kernel, by decide +kernel⟩,
    ⟨39, by decide +kernel, by decide +kernel⟩, ⟨0, by decide +kernel, _, rfl, rfl⟩,
    ⟨by decide +kernel, fun q h => absurd (show Target.track 40 = .point q from h) (by simp), (0, .N),
      .inr ⟨rfl, rfl, rfl⟩, by decide +kernel⟩, ?_⟩
  intro m h
  match m, h with
  | 4, h => exact absurd h.2 (by decide +kernel)
  | 5, ⟨q, h, _⟩ => exact absurd (show Target.track 40 = .point q from h) (by simp)
  | 6, ⟨q, h, _⟩ => exact absurd (show Target.track 40 = .point q from h) (by simp)
  | 7, ⟨_, _, e, h, _⟩ => exact (earlier_zero e).1 h
theorem test_ladder_legs : (pair .none (.track 1) (.track 0) (.track 2)).check = some (0, 4) ∧
    (pair (.point 39) (.track 1) (.track 0) (.track 2)).check = some (0, 5) ∧
    (pair (.point 0) (.track 1) (.track 0) (.track 2)).check = some (0, 6) ∧
    (pair (.track 40) (.track 40) (.track 0) (.track 2)).check = some (0, 7) ∧
    (pair (.track 40) (.point 1) (.track 40) (.track 2)).check = some (1, 7) := by decide +kernel

/-- Stage 3: P1 in use and fed by no leg. -/
theorem witness_Ladder_feeding :
    (∃ r, IsRoot (pair (.track 5) (.track 1) (.track 0) (.track 2)) r ∧
      ∀ p, IsRoot (pair (.track 5) (.track 1) (.track 0) (.track 2)) p → p = r) ∧
    (∀ leg n, ¬ LegFails (pair (.track 5) (.track 1) (.track 0) (.track 2)) leg n) ∧
    Unfed (pair (.track 5) (.track 1) (.track 0) (.track 2)) 1 ∧
    ¬ Unfed (pair (.track 5) (.track 1) (.track 0) (.track 2)) 0 ∧
    (pair (.track 5) (.track 1) (.track 0) (.track 2)).check = some (1, 8) := by
  refine ⟨oneRoot_of _ (by decide +kernel) (by decide +kernel),
    legs_pass _ [(0, .N), (0, .R), (1, .N), (1, .R)] (by decide +kernel) (by decide +kernel) (by decide +kernel),
    ⟨by decide +kernel, ?_, ?_⟩, fun h => h.2.1 ⟨_, rfl, rfl⟩, by decide +kernel⟩
  · rintro ⟨c, hc, hr⟩; cases hc; cases hr
  · have h : ∀ p : PointIx, (pair (.track 5) (.track 1) (.track 0) (.track 2)).target p .N ≠ .point 1 ∧
        (pair (.track 5) (.track 1) (.track 0) (.track 2)).target p .R ≠ .point 1 := by decide +kernel
    intro p leg
    cases leg
    · exact (h p).1
    · exact (h p).2

/-- Stage 4: P1 names itself, which no route from the root reaches. -/
theorem witness_Ladder_cycle :
    (∀ leg n, ¬ LegFails (pair (.track 5) (.track 1) (.track 0) (.point 1)) leg n) ∧
    (∀ q, ¬ Unfed (pair (.track 5) (.track 1) (.track 0) (.point 1)) q) ∧
    Unreached (pair (.track 5) (.track 1) (.track 0) (.point 1)) 1 ∧
    ¬ Unreached (pair (.track 5) (.track 1) (.track 0) (.point 1)) 0 ∧
    (pair (.track 5) (.track 1) (.track 0) (.point 1)).check = some (1, 9) := by
  have hc : ∀ p : PointIx, p = 0 ∨ p = 1 ∨ (pair (.track 5) (.track 1) (.track 0) (.point 1)).config p = none := by
    decide +kernel
  have root : ∀ p, IsRoot (pair (.track 5) (.track 1) (.track 0) (.point 1)) p → p = 0 := by
    rintro p ⟨c, h, hr⟩
    rcases hc p with rfl | rfl | k
    · rfl
    · cases h; cases hr
    · rw [k] at h; cases h
  refine ⟨legs_pass _ [(0, .N), (0, .R), (1, .N), (1, .R)] (by decide +kernel) (by decide +kernel) (by decide +kernel), ?_,
    ⟨by decide +kernel, ?_⟩, ?_, by decide +kernel⟩
  · rintro q ⟨h, hr, k⟩
    rcases hc q with rfl | rfl | n
    · exact hr ⟨_, rfl, rfl⟩
    · exact k 1 .R (by decide +kernel)
    · exact h n
  · rintro route leg ⟨⟨first, hf, hr⟩, hd, hl⟩
    have h0 := root _ hr
    match route, hf, hd, hl with
    | [a], hf, _, hl =>
      cases hf; cases hl; exact absurd h0 (by simp)
    | ⟨p, l⟩ :: b :: rest, hf, hd, _ =>
      cases hf
      cases h0
      cases l
      · exact absurd (show Target.track 5 = .point b.1 from hd.1) (by simp)
      · exact absurd (show Target.track 1 = .point b.1 from hd.1) (by simp)
  · rintro ⟨-, h⟩
    exact h [(0, .N)] .N ⟨⟨_, rfl, _, rfl, rfl⟩, trivial, rfl⟩

/-- A list of pairs descends where each leg names the next point. -/
theorem descends_of (l : Ladder) (r : List Pair)
    (h : (r.zip r.tail).all (fun x => l.target x.1.1 x.1.2 == .point x.2.1) = true) : Descends l r := by
  induction r with
  | nil => trivial
  | cons a r ih =>
    cases r with
    | nil => trivial
    | cons b r =>
      simp only [List.tail_cons, List.zip_cons_cons, List.all_cons, Bool.and_eq_true, beq_iff_eq] at h
      exact ⟨h.1, ih h.2⟩
/-- The way down the chain to a point. -/
def chainRoute (q : PointIx) : List Pair := ((List.finRange 40).take (q.val + 1)).map (fun p => (p, Leg.N))
theorem chainRoute_descends : ∀ q : PointIx, q.val < 9 → RouteFrom chain (chainRoute q) (q, .N) := by
  have h : ∀ q : PointIx, q.val < 9 →
      ((chainRoute q).zip (chainRoute q).tail).all (fun x => chain.target x.1.1 x.1.2 == .point x.2.1) = true ∧
        (chainRoute q).head? = some (0, .N) ∧ (chainRoute q).getLast? = some (q, .N) := by decide +kernel
  intro q hq
  obtain ⟨a, b, c⟩ := h q hq
  exact ⟨⟨_, b, _, rfl, rfl⟩, descends_of _ _ a, c⟩
/-- In the chain a list of pairs goes down by one point at each. -/
theorem chain_depth (route : List Pair) : ∀ a b, Descends chain (a :: route) → (a :: route).getLast? = some b →
    b.1.val = a.1.val + route.length := by
  have t : ∀ p q : PointIx, (chain.target p .N = .point q ∨ chain.target p .R = .point q) → q.val = p.val + 1 := by
    decide +kernel
  induction route with
  | nil => rintro a b - h; cases h; rfl
  | cons c rest ih =>
    rintro ⟨p, l⟩ b ⟨h, k⟩ e
    have := ih c b k (by simpa using e)
    have hc : c.1.val = p.val + 1 := t p c.1 (by cases l; exacts [.inl h, .inr h])
    simp only [List.length_cons]
    omega
/-- Stage 4: P8 at depth 9. -/
theorem witness_Ladder_deep : (∀ leg n, ¬ LegFails chain leg n) ∧ (∀ q, ¬ Unfed chain q) ∧ (∀ q, ¬ Unreached chain q) ∧
    TooDeep chain 8 ∧ (∀ r, r < 8 → ¬ TooDeep chain r) ∧ chain.check = some (8, 10) := by
  have hc : ∀ p : PointIx, p.val < 9 ∨ chain.config p = none := by decide +kernel
  have fed : ∀ q : PointIx, q.val < 9 → q = 0 ∨ ∃ p : PointIx, chain.target p .N = .point q := by decide +kernel
  have root : ∀ p : PointIx, (chain.config p).map PointConfig.isRoot = some true → p = 0 := by decide +kernel
  refine ⟨legs_pass _ (((List.finRange 40).take 9).flatMap (fun p => [(p, Leg.N), (p, Leg.R)])) (by decide +kernel)
    (by decide +kernel) (by decide +kernel), ?_, ?_, ⟨chainRoute 8, .N, chainRoute_descends 8 (by decide), by decide⟩, ?_,
    by decide +kernel⟩
  · rintro q ⟨h, hr, k⟩
    rcases hc q with hq | n
    · rcases fed q hq with rfl | ⟨p, hp⟩
      · exact hr ⟨_, rfl, rfl⟩
      · exact k p .N hp
    · exact h n
  · rintro q ⟨h, k⟩
    rcases hc q with hq | n
    · exact k _ _ (chainRoute_descends q hq)
    · exact h n
  · rintro r hr ⟨route, leg, ⟨⟨f, hf, c, hc, hroot⟩, hd, hl⟩, hn⟩
    cases route with
    | nil => cases hf
    | cons a rest =>
      obtain rfl : a = f := by simpa using hf
      have h0 := root a.1 (by rw [hc]; simpa using hroot)
      have := chain_depth rest a _ hd hl
      rw [h0] at this
      simp at this hn
      have : r.val < 8 := hr
      omega

/-! In a ladder of P0 alone, its legs leading to T0 and T1, the stages before the fifth pass. -/

/-- P0 alone: every list from the root to a leg is that leg. -/
theorem single_route (c : PointConfig) (k : Constants) (hn : c.normal = .track 0) (hr : c.reverse = .track 1)
    (route : List Pair) (leg : Pair) (h : RouteFrom (single c k) route leg) : route = [leg] ∧ leg.1 = 0 := by
  have hc : ∀ p : PointIx, p ≠ 0 → (single c k).config p = none := by
    intro p hp
    simp [single, Ladder.config, Table.look_put, Ne.symm hp]
  obtain ⟨⟨f, hf, x, hx, -⟩, hd, hl⟩ := h
  have hf0 : f.1 = 0 := by
    by_contra h
    rw [hc _ h] at hx; cases hx
  match route, hf, hd, hl with
  | [a], hf, _, hl => cases hf; cases hl; exact ⟨rfl, hf0⟩
  | ⟨p, l⟩ :: b :: rest, hf, hd, _ =>
    cases hf
    cases hf0
    have h1 := hd.1
    cases l
    · exact absurd ((show c.normal = .point b.1 from h1).symm.trans hn) (by simp)
    · exact absurd ((show c.reverse = .point b.1 from h1).symm.trans hr) (by simp)
/-- P0 alone: the four stages before the fifth pass. -/
theorem single_sound (c : PointConfig) (k : Constants) (ho : c.isRoot = true) (hn : c.normal = .track 0)
    (hr : c.reverse = .track 1) :
    (∃ r, IsRoot (single c k) r ∧ ∀ p, IsRoot (single c k) p → p = r) ∧ (∀ leg n, ¬ LegFails (single c k) leg n) ∧
    (∀ q, ¬ Unfed (single c k) q) ∧ (∀ q, ¬ Unreached (single c k) q) ∧ ∀ q, ¬ TooDeep (single c k) q := by
  have h0 : (single c k).config 0 = some c := by simp [single, Ladder.config]
  have hc : ∀ p : PointIx, p ≠ 0 → (single c k).config p = none := by
    intro p hp
    simp [single, Ladder.config, Table.look_put, Ne.symm hp]
  have only : ∀ p, (single c k).config p ≠ none → p = 0 := fun p h => by by_contra hp; exact h (hc p hp)
  have tn : (single c k).target 0 .N = .track 0 := by unfold Ladder.target; rw [h0]; exact hn
  have tr : (single c k).target 0 .R = .track 1 := by unfold Ladder.target; rw [h0]; exact hr
  have root : IsRoot (single c k) 0 := ⟨c, h0, ho⟩
  refine ⟨⟨0, root, fun p ⟨x, hx, _⟩ => only p (by rw [hx]; simp)⟩, legs_pass _ [(0, .N), (0, .R)] ?_ ?_ ?_, ?_, ?_, ?_⟩
  · intro p
    by_cases hp : p = 0
    · subst hp; exact .inr (by simp)
    · exact .inl (hc p hp)
  · simp [tn, tr]
  · simp [tn, tr]
  · rintro q ⟨h, k, -⟩
    exact k (only q h ▸ root)
  · rintro q ⟨h, k⟩
    obtain rfl := only q h
    exact k [(0, .N)] .N ⟨⟨_, rfl, root⟩, trivial, rfl⟩
  · rintro q ⟨route, leg, h, hl⟩
    rw [(single_route c k hn hr route _ h).1] at hl
    simp at hl
/-- P0 alone: a fallback track passes where it is the leg's own track. -/
theorem single_fallback (c : PointConfig) (k : Constants) (ho : c.isRoot = true) (hn : c.normal = .track 0)
    (hr : c.reverse = .track 1) :
    (c.nFallback = some 0 → ∀ m, ¬ FallbackFails (single c k) (0, .N) m) ∧
    (c.rFallback = some 1 → ∀ m, ¬ FallbackFails (single c k) (0, .R) m) ∧
    (c.rFallback = some 0 → FallbackFails (single c k) (0, .R) 12) := by
  have h0 : (single c k).config 0 = some c := by simp [single, Ladder.config]
  have tn : (single c k).target 0 .N = .track 0 := by unfold Ladder.target; rw [h0]; exact hn
  have tr : (single c k).target 0 .R = .track 1 := by unfold Ladder.target; rw [h0]; exact hr
  have fn : (single c k).fallback 0 .N = c.nFallback := by unfold Ladder.fallback; rw [h0]; rfl
  have fr : (single c k).fallback 0 .R = c.rFallback := by unfold Ladder.fallback; rw [h0]; rfl
  have toLeg : ∀ l : Leg, RouteTo (single c k) [(0, l)] (0, l) := fun l => ⟨⟨⟨_, rfl, c, h0, ho⟩, trivial, rfl⟩, by simp⟩
  refine ⟨?_, ?_, ?_⟩
  · intro h m hm
    match m, hm with
    | 11, hm => exact absurd ((fn.trans h).symm.trans (show _ = none from hm)) (by simp)
    | 12, ⟨t, ht, hm⟩ =>
      rw [fn, h] at ht; cases ht
      exact hm _ _ (toLeg .N) tn (by simp)
  · intro h m hm
    match m, hm with
    | 11, hm => exact absurd ((fr.trans h).symm.trans (show _ = none from hm)) (by simp)
    | 12, ⟨t, ht, hm⟩ =>
      rw [fr, h] at ht; cases ht
      exact hm _ _ (toLeg .R) tr (by simp)
  · intro h
    refine ⟨0, by rw [fr, h], ?_⟩
    rintro route ⟨p, l⟩ ⟨hroute, -⟩ ht
    obtain ⟨rfl, hp⟩ := single_route c k hn hr route _ hroute
    cases hp
    cases l
    · simp
    · exact absurd (tr.symm.trans ht) (by decide)
/-- R20: at 1200 ms and 20 % the least approach distance is 2160 cm. -/
theorem approach_boundary : ApproachSuffices { config with dApp := 2160 } ladder.consts ∧
    ¬ ApproachSuffices { config with dApp := 2159 } ladder.consts := by
  refine ⟨⟨18000, 1200, by decide, by decide, by decide, by decide, by decide⟩, ?_⟩
  rintro ⟨v, arr, h1, -, h3, -, h5⟩
  have a : 18000 ≤ v := by
    have : 15000 * (100 + 20) ≤ v * 100 := h1
    omega
  have b : 1200 ≤ arr := h5
  have e : arr * v ≤ 21590000 := h3
  have := Nat.mul_le_mul b a
  omega
/-- Stage 5: a fallback track missing, one outside its leg, an approach too short. -/
theorem witness_Ladder_points :
    PointFails (single { config with nFallback := none } ladder.consts) 0 11 ∧
    PointFails (single { config with rFallback := some 0 } ladder.consts) 0 12 ∧
    PointFails (single { config with dApp := 2159 } ladder.consts) 0 13 ∧
    (∀ p n, ¬ PointFails (single config { ladder.consts with reject := none }) p n) := by
  have f := fun c h1 h2 h3 => single_fallback c ladder.consts h1 h2 h3
  refine ⟨⟨_, rfl, .inl rfl⟩, ⟨_, rfl, .inr (.inl ⟨(f _ rfl rfl rfl).1 rfl, (f _ rfl rfl rfl).2.2 rfl⟩)⟩,
    ⟨_, rfl, .inr (.inr ⟨?_, rfl, approach_boundary.2⟩)⟩, ?_⟩
  · intro m leg
    cases leg
    · exact (f _ rfl rfl rfl).1 rfl m
    · exact (f _ rfl rfl rfl).2.1 rfl m
  · rintro p n ⟨c, hc, h⟩
    have hp : p = 0 := by
      by_contra hp
      simp [single, Ladder.config, Table.look_put, Ne.symm hp] at hc
    subst hp
    cases hc
    have g := single_fallback config { ladder.consts with reject := none } rfl rfl rfl
    rcases h with h | ⟨-, h⟩ | ⟨-, -, h⟩
    · exact g.1 rfl n h
    · exact g.2.1 rfl n h
    · exact h ⟨18000, 3333, by decide, by decide, by decide, by decide, by decide⟩
theorem test_ladder_points : (single { config with nFallback := none } ladder.consts).check = some (0, 11) ∧
    (single { config with rFallback := some 0 } ladder.consts).check = some (0, 12) ∧
    (single { config with dApp := 2159 } ladder.consts).check = some (0, 13) ∧
    (single { config with dApp := 2160 } ladder.consts).check = none := by decide +kernel
/-- Stage 6: no reject track, one not in use, a default track not in use. -/
theorem witness_Ladder_tracks : (single config { ladder.consts with reject := none }).check = some (255, 14) ∧
    (single config { ladder.consts with reject := some 40 }).check = some (255, 15) ∧
    (single config { ladder.consts with defaultTrack := some 40 }).check = some (255, 16) ∧
    (single config ladder.consts).target 0 .R = .track 1 ∧
    (∀ p : PointIx, (single config ladder.consts).target p .N ≠ .track 40 ∧
      (single config ladder.consts).target p .R ≠ .track 40) := by decide +kernel

/-- In the lines of the small yard no role is held twice. -/
theorem lines_single : ∀ i, ¬ Doubled lines i := by
  have u : ∀ i : LineIx, (Table.look lines i).role = .unused ∨ i.val < 12 := by decide +kernel
  have d : ∀ i j : Fin 12, j < i →
      (Table.look lines (Fin.castLE (by decide) j)).role ≠ (Table.look lines (Fin.castLE (by decide) i)).role := by
    decide +kernel
  rintro i ⟨h, j, hj, e⟩
  have hi := (u i).resolve_left h
  have hj' : j.val < 12 := lt_trans hj hi
  exact d ⟨i.val, hi⟩ ⟨j.val, hj'⟩ hj e
/-- The lines with one of them UNUSED. -/
def without (i : LineIx) : Table 256 Line := Table.put lines i Line.reset
theorem without_single (k : LineIx) : ∀ i, ¬ Doubled (without k) i := by
  have r : ∀ i, (Table.look (without k) i).role = if k = i then .unused else (Table.look lines i).role := by
    intro i
    unfold without
    rw [Table.look_put]
    split <;> rfl
  rintro i ⟨h, j, hj, e⟩
  rw [r] at h e
  rw [r] at e
  by_cases hi : k = i
  · simp [hi] at h
  · by_cases hk : k = j
    · simp only [hk, if_true] at e h
      exact h (by simpa [hk ▸ hi] using e.symm)
    · simp only [hi, hk, if_false] at e h
      exact lines_single i ⟨h, j, hj, e⟩
/-- A line check's stages 2 and 3: head 1 without its sensor A or B, P0 without a detection line. -/
theorem witness_Lines_stages : SensorFails ladder (without 2) 1 2 ∧ SensorFails ladder (without 3) 1 3 ∧
    (∀ k m, k < 1 → ¬ SensorFails ladder (without 2) k m) ∧
    (∀ h n, ¬ SensorFails ladder (without 8) h n) ∧ DetectionFails ladder (without 8) 0 4 ∧
    DetectionFails ladder (without 9) 0 5 ∧ ladder.checkLines (without 2) = some (1, 2) ∧
    ladder.checkLines (without 3) = some (1, 3) ∧ ladder.checkLines (without 8) = some (0, 4) ∧
    ladder.checkLines (without 9) = some (0, 5) := by
  have u : Configured ladder 1 := .inl ⟨.inr rfl, 0, by decide +kernel⟩
  have p0 : ladder.config 0 ≠ none := by decide +kernel
  have only : ∀ p : PointIx, ladder.config p ≠ none → p = 0 := by decide +kernel
  have a2 : ∀ i : LineIx, (Table.look (without 2) i).role ≠ .sensorA 1 := by decide +kernel
  have a3 : ∀ i : LineIx, (Table.look (without 3) i).role ≠ .sensorB 1 := by decide +kernel
  have a8 : ∀ i : LineIx, (Table.look (without 8) i).role ≠ .detectN 0 := by decide +kernel
  have a9 : ∀ i : LineIx, (Table.look (without 9) i).role ≠ .detectR 0 := by decide +kernel
  refine ⟨⟨u, .inl ⟨rfl, fun ⟨i, h⟩ => a2 i h⟩⟩, ⟨u, .inr ⟨rfl, ⟨2, by decide +kernel⟩, fun ⟨i, h⟩ => a3 i h⟩⟩, ?_, ?_,
    ⟨p0, .inl ⟨rfl, fun ⟨i, h⟩ => a8 i h⟩⟩, ⟨p0, .inr ⟨rfl, ⟨8, by decide +kernel⟩, fun ⟨i, h⟩ => a9 i h⟩⟩, by decide +kernel,
    by decide +kernel, by decide +kernel, by decide +kernel⟩
  · rintro k m hk ⟨-, h⟩
    obtain rfl : k = 0 := Fin.ext (by have : k.val < 1 := hk; omega)
    rcases h with ⟨-, h⟩ | ⟨-, -, h⟩
    · exact h ⟨0, by decide +kernel⟩
    · exact h ⟨1, by decide +kernel⟩
  · have held : ∀ h : HeadIx, h.val < 4 → Held (without 8) (.sensorA h) ∧ Held (without 8) (.sensorB h) := by
      have k : ∀ h : HeadIx, h.val < 4 → (Table.look (without 8) ⟨2 * h.val, by omega⟩).role = .sensorA h ∧
          (Table.look (without 8) ⟨2 * h.val + 1, by omega⟩).role = .sensorB h := by decide +kernel
      exact fun h hh => ⟨⟨_, (k h hh).1⟩, ⟨_, (k h hh).2⟩⟩
    rintro h n ⟨hc, hf⟩
    have hh : h.val < 4 := by
      rcases hc with ⟨rfl | rfl, -⟩ | ⟨p, leg, rfl, hp⟩
      · decide
      · decide
      · cases only p hp
        cases leg <;> decide
    rcases hf with ⟨-, hf⟩ | ⟨-, -, hf⟩
    · exact hf (held h hh).1
    · exact hf (held h hh).2

/-! ## Witnesses: what a head hands on, and when the planner is told -/

/-- Two cuts in the approach queue of P0, the cut of S0 (for T0, by P1) before that of S1 (for the reject track), P1's queue
empty; the ladder is that of two points. -/
def following2 : Yard :=
  { queued [(crossing 1000).entryOf 0, (crossing 1300).entryOf 1] rolling with
      slots := Table.put (Table.put Yard.reset.slots 0 (some (.cut (cut .rolling (some { under 0 4 0 with route := [(0, .N), (1, .N)] })))))
        1 (some (.cut { cut .rolling (some { under 0 4 0 with resolved := 1, route := [(0, .R)] }) with number := 502 })),
      points := Table.put (Table.put (Table.fill 40 none) 0 (some point)) 1 (some point),
      plans := Table.put (Table.put (Table.fill 40 none) 0 (some Plan.idle)) 1 (some Plan.idle),
      sections := Table.put (Table.put (Table.fill 40 none) 0 (some clearSection)) 1 (some clearSection) }
/-- Head 2 with its line B due, the last transition of a downhill sequence, of none, and of a sequence it breaks. -/
def lastOf (d : DecoderState) : State :=
  let s := due 5 (withLine 5 (fun l => { l with filtered := true }) (part (yard .humping)))
  { s with heads := Table.put s.heads 2 { Head.off with state := d, first := 7, gap := 300 } }
theorem witness_FourTransitions_handed : (Table.look (lastOf .down3).lines 5).due = true ∧
    (Table.look (lastOf .down3).lines 5).role = .sensorB 2 ∧
    ((Table.look (lastOf .down3).heads 2).change false true false false 0).2 = .passage (crossing 7) ∧
    ((Table.look (lastOf .up2).heads 2).change false true false false 0).2 = .nothing ∧
    ((Table.look (lastOf .down2).heads 2).change false true false false 0).2 = .fault ∧
    (Table.look (lastOf .down3).heads 2).state ≠ .settling := by decide +kernel
/-- R45: the passage of an axle that was never counted into P0's section disturbs it. R54: so does the fault of its head. -/
theorem test_transition_reaches_yard :
    ((lastOf .down3).takeTransitions (.head 2)).yard.sectionOf (.point 0) =
      some { clearSection with state := .disturbed, cause := some .phantomExit } ∧
    ((lastOf .down2).takeTransitions (.head 2)).yard.sectionOf (.point 0) =
      some { clearSection with state := .disturbed, cause := some .headFault } ∧
    ((lastOf .up2).takeTransitions (.head 2)).yard.sectionOf (.point 0) = some clearSection := by decide +kernel
theorem witness_FourTransitions_fault : SectionId.lead ∈ ladder.adjoining 1 ∧ SectionId.point 0 ∈ ladder.adjoining 1 ∧
    rolling.sectionOf .lead = some occupied ∧ occupied.state ≠ .disturbed ∧
    (areaAt (disturbed 3) rolling).sectionOf (.point 0) = some (disturbed 3) ∧
    (∀ sid ∈ ladder.adjoining 1, ∀ x ∈ (yard .humping).sectionOf sid, x.occupants = []) ∧
    SectionId.lead ∉ ladder.adjoining 2 := by decide +kernel
/-- The last exit from P0's section, its stall flag set, with a cut in P0's queue. -/
theorem witness_Arrival_clears :
    exitFirst following2.axlesOf [{ slot := 0, entered := 4, exited := 3 }] = [] ∧
    (areaAt { occupied with occupants := [{ slot := 0, entered := 4, exited := 3 }], stallFlag := true } following2).sectionOf
      (.point 0) = some { occupied with occupants := [{ slot := 0, entered := 4, exited := 3 }], stallFlag := true } ∧
    following2.cutAt 0 = some (cut .rolling (some { under 0 4 0 with route := [(0, .N), (1, .N)] })) ∧
    (following2.queueHead 0).isSome = true := by decide +kernel
/-- The cut of S0 goes on from P0 to the empty queue of P1, leaves P1's queue by the leg check, or leaves P0's queue LOST. -/
theorem witness_Arrival_joins : twoPoints.target 0 .N = .point 1 ∧ following2.queueOf 1 = [] ∧ following2.waiting = [] ∧
    following2.pointLie 0 = some .N ∧ following2.queueHead 0 = some 0 ∧
    (following2.queueOf 0).filter (fun a => a.slot ≠ 0) = [(crossing 1300).entryOf 1] ∧ following2.planOf 0 = some Plan.idle ∧
    twoPoints.config 0 ≠ none ∧ (following2.startedAt 1).bind (fun w => w.legAt 0) = some .R ∧
    (∀ r : PointIx, r ≠ 0 → following2.queueHead r ≠ some 0) ∧
    ({ following2 with queues := Table.put following2.queues 1 (following2.queueOf 0) } : Yard).queueOf 1 =
      [(crossing 1000).entryOf 0, (crossing 1300).entryOf 1] ∧
    (∀ r : PointIx, r ≠ 0 → following2.queueOf r = []) ∧
    (∀ sid ∈ allSections, ∀ x ∈ ({ following2 with lead := some clearSection } : Yard).sectionOf sid, x.occupants = []) := by
  decide +kernel
/-- R42, R48: after the entry P1 is evaluated for the cut of S0, and P0 for the cut of S1, which finds the section OCCUPIED. -/
theorem test_entry_tells_planner :
    planned (following2.leadingEntry (env 1100 twoPoints) 0 0 (crossing 1050)) 1 = some (.set, some 0, some .N) ∧
    planned (following2.leadingEntry (env 1100 twoPoints) 0 0 (crossing 1050)) 0 = some (.waitingClear, some 1, some .R) := by
  decide +kernel
theorem witness_HeadCut_joins : (listed .humping).queueOf 0 = [] ∧ (listed .humping).waitingOf 0 = none ∧
    following.yard.queueOf 0 = [] := by decide +kernel
/-- R92: the started cut that needs the leg P0 lies in finds the root SET. -/
theorem test_start_tells_planner :
    planned ((listed .humping).deliver (env 10 ladder) crestHead (crossing 7)) 0 = some (.set, some 0, some .N) := by
  decide +kernel
/-- P0 MOVING with a cut in its queue, and a second entry in the list. -/
def awaited : State :=
  let s := due 9 (withLine 8 (fun l => { l with filtered := false }) (part turnedBack))
  { s with yard := { pointAt (.moving .R .N 9000 .deadline) turnedBack with
      waiting := [{ point := 1, target := .R, claim := .manual }] } }
theorem witness_Detection_completes : (Table.look awaited.lines 9).due = true ∧ (Table.look awaited.lines 9).role = .detectR 0 ∧
    roleLevel (takeDue awaited.lines (.point 0)) (.detectN 0) = false ∧
    roleLevel (takeDue awaited.lines (.point 0)) (.detectR 0) = true ∧ proves false true = some .R ∧
    awaited.yard.pointOf 0 = some { point with state := .moving .R .N 9000 .deadline } ∧
    awaited.yard.queueHead 0 = some 0 ∧ awaited.yard.waiting ≠ [] := by decide +kernel
/-- R146: the completed throw is SET for the head of the queue; BAR diverts a head that needs the other leg, and UNBAR evaluates
it. -/
theorem test_requests_tell_planner :
    planned (awaited.takeTransitions (.point 0)).yard 0 = some (.set, some 0, some .R) ∧
    planned ((against 1000).bar (env 1100 ladder) 0) 0 = some (.diverted, some 0, some .N) ∧
    planned (((against 1000).setBar 0 false).evaluate (env 1100 ladder) 0) 0 = some (.set, some 0, some .R) := by decide +kernel
/-- AMEND of the cut at the head of P0's queue to the reject track, by the other leg of P0. -/
theorem witness_AmendReroutes_head : rolling.queueHead 0 = some 0 ∧ (ladder.routeOf 1)[(under 0 4 0).progress]? = some (0, Leg.R) ∧
    (1 : TrackIx) ≠ (under 0 4 0).resolved ∧ rolling.closed ladder 1 = false := by decide +kernel
/-- R156: the point ahead is evaluated with the new route. -/
theorem test_amend_tells_planner :
    planned (rolling.amendStarted (env 1100 ladder) 0 (.track 1) 1 none 0) 0 = some (.set, some 0, some .R) := by decide +kernel
/-- BAR, UNBAR, RESTORE and RESET SECTION of P0 with a cut in its queue. -/
theorem witness_Requests_with_queue : (against 1000).queueHead 0 = some 0 ∧ (against 1000).pointOf 0 = some point ∧
    (part (areaAt occupied (against 1000))).yard.sectionOf (.point 0) = some occupied ∧ occupied.state ≠ .clear ∧
    (areaAt (disturbed 3) (against 1000)).sectionOf (.point 0) = some (disturbed 3) ∧ (disturbed 3).occupants = [] ∧
    (areaAt occupied (against 1000)).pointInMotion 0 = false := by decide +kernel

/-! ## Witnesses: the stop line, short cuts, standing entries -/

/-- The stop line due in a mode, at its activation or at its end. -/
def stopDue (m : Mode) (active : Bool) : State :=
  due 10 (withLine 10 (fun l => { l with filtered := active })
    (part { yard m with control := { (yard m).control with stopFlag := active } }))
theorem witness_StopLine_modes : (Table.look (stopDue .setup true).lines 10).due = true ∧
    (Table.look (stopDue .setup true).lines 10).role = .stop ∧
    ∀ m active, (stopDue m active).mode = m ∧ (stopDue m active).yard.control.stopFlag = active :=
  ⟨by decide +kernel, by decide +kernel, fun _ _ => ⟨rfl, rfl⟩⟩
/-- R169: in HALTED STOP_INPUT joins the set, in STANDBY nothing is recorded, and the end of the stop changes the flag alone. -/
theorem test_stop_line_modes :
    (let c := ((yard .halted).reportStop true).control; (c.mode, c.halt, c.stopFlag)) = (.halted, reasonBit 2, true) ∧
    (let c := ((yard .standby).reportStop true).control; (c.mode, c.halt, c.stopFlag)) = (.standby, 0, true) ∧
    (let c := (((yard .humping).modifyControl (fun m => { m with stopFlag := true })).reportStop false).control;
      (c.mode, c.halt, c.stopFlag)) = (.humping, 0, false) := by decide +kernel

/-- The short cut with a record for P0's section and a number of its axles in its track. -/
def shortIn (x : Section) (inTrack : Nat) : State :=
  { short with yard := areaAt x { short.yard with
      slots := Table.put short.yard.slots 0 (some (.cut (cut .entering (some (under 0 2 inTrack))))),
      tracks := Table.put short.yard.tracks 0 { capacity := 0, fill := 7, reserved := 4 } } }
/-- A stalled section that the short cut has left with both its axles. -/
def gone : Section := { stalled with count := 0, occupants := [{ slot := 0, entered := 2, exited := 2 }] }
/-- The same with another cut in it. -/
def shared : Section :=
  { occupied with occupants := [{ slot := 0, entered := 2, exited := 2 }, { slot := 1, entered := 1, exited := 0 }] }
theorem witness_ShortCut_sections : (shortIn gone 0).yard.sectionOf (.point 0) = some gone ∧
    keptBy 0 2 gone.occupants = [] ∧ keptBy 0 2 shared.occupants = [{ slot := 1, entered := 1, exited := 0 }] ∧
    keptBy 0 2 shared.occupants ≠ shared.occupants ∧
    keptBy 0 2 [{ slot := 0, entered := 2, exited := 1 }] = [{ slot := 0, entered := 2, exited := 1 }] ∧
    (under 0 2 0).inTrack ≠ (under 0 2 0).crestAxles ∧ (under 0 2 2).inTrack = (under 0 2 2).crestAxles ∧
    (∀ sid ∈ allSections, sid ≠ .point 0 → ∀ y ∈ (shortIn gone 0).yard.sectionOf sid,
      keptBy 0 2 y.occupants = y.occupants) ∧
    (under 0 2 0).crestAxles ≤ 4 ∧ 4 ≤ ((shortIn gone 0).yard.trackOf 0).reserved := by decide +kernel
/-- R59: the emptied section is CLEAR, and the cut arrives with its new count where its axles are in the track. -/
theorem test_short_cut_sections :
    ((shortIn gone 0).yard.shortCut (shortIn gone 0).env).sectionOf (.point 0) = some clearSection ∧
    ((shortIn shared 0).yard.shortCut (shortIn shared 0).env).listed (.point 0) = [1] ∧
    (((shortIn gone 2).yard.shortCut (shortIn gone 2).env).cutAt 0).map (fun c => c.state) = some .arrived ∧
    ((shortIn gone 2).yard.shortCut (shortIn gone 2).env).trackOf 0 = { capacity := 0, fill := 9, reserved := 0 } := by
  decide +kernel

/-- P0 at rest in N, the cut at the head of its queue needs R, and an entry of P0 made for a cut stands in the list. -/
def standing (i : SlotIx) : Yard :=
  { against 400000 with
      waiting := [{ point := 0, target := .R, claim := .deadline 513000 i }], slotsInUse := 2,
      plans := Table.put (Table.fill 40 none) 0
        (some { state := .requested, head := some i, needed := some .R, test := none }) }
theorem witness_ThrowTest_standing : (standing 0).planOf 0 =
      some { state := .requested, head := some 0, needed := some .R, test := none } ∧
    (standing 0).queueHead 0 = some 0 ∧ (standing 1).queueHead 0 ≠ some 1 ∧
    (standing 0).waitingOf 0 = some { point := 0, target := .R, claim := .deadline 513000 0 } ∧
    (standing 0).pointOf 0 = some point ∧ point.barred = false ∧
    (standing 0).waiting.filter (fun b => b.point ≠ 0) = [] ∧
    (areaAt occupied (standing 0)).sectionState (.point 0) ≠ some .clear ∧
    ladder.consts.slots ≤ (standing 0).slotsInUse ∧ (513001#32 - 400000#32).toNat < 2 ^ 30 := by decide +kernel
theorem witness_ThrowTest_ranges : PointInRange config ∧ ConstantsInRange ladder.consts := by
  unfold PointInRange ConstantsInRange
  decide +kernel
/-- R149: at the deadline the entry stands as it is and P0 stays REQUESTED; after it the cut is diverted. R146: an entry made for
another cut is withdrawn and a new one placed. -/
theorem test_standing_entry :
    ((standing 0).evaluate (env 513000 ladder) 0).waiting = (standing 0).waiting ∧
    planned ((standing 0).evaluate (env 513000 ladder) 0) 0 = some (.requested, some 0, some .R) ∧
    ((standing 0).evaluate (env 513001 ladder) 0).waiting = [] ∧
    planned ((standing 0).evaluate (env 513001 ladder) 0) 0 = some (.diverted, some 0, some .N) ∧
    ((standing 1).evaluate (env 500000 ladder) 0).waiting =
      [{ point := 0, target := .R, claim := .deadline 513000 0 }] := by decide +kernel

/-! ## Single steps -/

/-- R35: an interval of 0 is carried as 1, one beyond 65535 as 65535. -/
theorem test_interval_is_clamped : carriedInterval 0 = 1 ∧ carriedInterval 65536 = 65535 := by decide +kernel
/-- R118: OVERFILL is raised only above the capacity. -/
theorem test_overfill_boundary : ((closing.account ladder 0 6).notices.reasons (.track 0)) = 0 ∧
    ((closing.account ladder 0 7).notices.reasons (.track 0)) = 1 := by decide +kernel
/-- R97: the short cut keeps the axles that were counted. -/
theorem test_short_cut_count : (match exec .shortCut short with
    | .next s => (s.yard.cutAt 0).map Cut.axles
    | _ => none) = some 2 := by decide +kernel

/-- R131: an entry that is overdue stands first, and a nearer deadline before the new one. -/
theorem test_waiting_order : (insertWaiting 1000 { point := 2, target := .N, claim := .deadline 3000 2 }
      [{ point := 0, target := .N, claim := .deadline 999 0 }, { point := 1, target := .N, claim := .deadline 2000 1 },
       { point := 3, target := .R, claim := .manual }]).map (fun w => w.point) = [0, 1, 2, 3] := by decide +kernel
/-- R30: SET LINE leaves the raw level of the most recent sample; a line not sampled yet shows the present one. -/
theorem test_set_line_keeps_sample :
    let s := ({ before with raw := 1 } : State).setLine 0 (.sensorA 0) .high .slow
    (Table.look s.lines 0).sampled = (Table.look before.lines 0).sampled ∧ s.reportedLevel 0 = .high ∧
      (withLine 0 (fun l => { l with everSampled := true, sampled := .low }) s).reportedLevel 0 = .low := by
  decide +kernel
/-- R40, R44: the exit goes to the first entry with an axle in the section, and the last exit of a cut takes it out. -/
theorem test_exit_first : exitFirst (fun _ => 4) [{ slot := 0, entered := 2, exited := 2 }, { slot := 1, entered := 4, exited := 3 }] =
    [{ slot := 0, entered := 2, exited := 2 }] := by decide +kernel
/-- R104: RESET SECTION of the root's section returns C to OK. -/
theorem test_root_reset_restores_crest_head : (Table.look (faultyCrest.restoredHeads (.point 0)) 0).condition = .ok ∧
    (Table.look (faultyCrest.restoredHeads (.point 0)) 0).state = .idle := by decide +kernel
/-- R145: a passage whose sequence began 2^31 ticks ago brings an entry whose elapsed time is 2^31. -/
theorem test_long_sequence : ({ Head.off with state := .down1 }.tick 2147483648).longAgo = true ∧
    ({ Head.off with state := .down1 }.tick 2147483647).longAgo = false ∧
    (throwTest Constants.reset config ({ crossing 0 with longAgo := true }.entryOf 0) 1).pass = false := by decide +kernel

end Sys2Proof.Tests
end

section
/-! SUPPORT. What requests answer: the link interface, PERMIT and ATTN after a served request, and the checks of coded
fields as the statements say them. -/

namespace Sys2Proof.Proofs

open Sys2Proof Sys2Proof.Machine Sys2Proof.Spec

/-! ## PERMIT and ATTN after an event (R171, R178) -/

theorem headIsPendingCut_iff (y : Yard) :
    y.headIsPendingCut = true ↔
      ∃ i rest c, y.pendingList = i :: rest ∧ y.cutAt i = some c ∧ c.state = .pending := by
  unfold Yard.headIsPendingCut
  cases y.pendingList with
  | nil => simp
  | cons i rest => simp

theorem classRaised_iff (n : Notices) (cls : Fin 5) : n.classRaised cls = true ↔ n.raisedIn cls := by
  unfold Notices.classRaised Notices.raisedIn Notices.reasons
  fin_cases cls <;> simp

theorem permitLaw_iff (y : Yard) :
    permitLaw y = true ↔
      y.control.mode = .humping ∧ y.control.freezeFlag = false ∧
        ∃ i rest c, y.pendingList = i :: rest ∧ y.cutAt i = some c ∧ c.state = .pending := by
  simp only [permitLaw, Bool.and_eq_true, beq_iff_eq, Bool.not_eq_true', headIsPendingCut_iff]
  tauto

theorem attnLaw_iff (n : Notices) :
    attnLaw n = true ↔ n.mask = false ∧ ∃ cls, Table.look n.enables cls = true ∧ n.raisedIn cls := by
  simp [attnLaw, classRaised_iff]

theorem permitLaw_withYard (s : State) (y : Yard) : (s.withYard y).PermitLaw := permitLaw_iff y

theorem attnLaw_withYard (s : State) (y : Yard) : (s.withYard y).AttnLaw := attnLaw_iff y.notices

theorem settledFrom_withYard (s : State) (y : Yard) : SettledFrom s y (s.withYard y) :=
  ⟨⟨permitLaw y, attnLaw y.notices, rfl⟩, permitLaw_withYard s y, attnLaw_withYard s y⟩

/-! ## Served requests (R183) -/

section Served

variable {c : Instr} {s : State} {body : State → Reply × State}

theorem answers_of_serve {r : Reply} {t : State} (he : exec c s = serve ((codeOf c).getD 0) (payloadOf c) body s)
    (hb : body s = (r, t)) : Answers c s r t := by
  rw [Answers, he, serve_eq, hb]
  rfl

theorem refuses_of_serve {st : Status} {detail : List Byte}
    (he : exec c s = serve ((codeOf c).getD 0) (payloadOf c) body s)
    (hb : body s = ({ status := st, payload := detail }, s)) : Refuses c s st detail :=
  answers_of_serve he hb

theorem answersYard_of_serve {r : Reply} {y : Yard} (he : exec c s = serve ((codeOf c).getD 0) (payloadOf c) body s)
    (hb : body s = (r, s.withYard y)) : AnswersYard c s r y :=
  ⟨s.withYard y, answers_of_serve he hb, settledFrom_withYard s y⟩

end Served

/-! ## Coded fields (R112, R120, R184) -/

theorem yesNo?_eq_none {b : Byte} : yesNo? b = none ↔ 1 < b.toNat := by
  have zero_or_one : ¬ 1 < b.toNat ↔ b = 0 ∨ b = 1 := by bv_omega
  unfold yesNo?
  split_ifs <;> simp_all

theorem track?_eq_some {b : Byte} {t : TrackIx} : track? b = some t ↔ b.toNat = t.val := index?_eq_some

theorem track?_eq_none {b : Byte} : track? b = none ↔ 40 < b.toNat := index?_eq_none

theorem inRange_eq_false {lo hi n : Nat} : inRange lo hi n = false ↔ n < lo ∨ hi < n := by
  rw [← Bool.not_eq_true, inRange_iff]
  omega

theorem trackRefused_eq_false {s : State} {t : TrackIx} : s.trackRefused t = false ↔ TrackAccepted s t := by
  simp [State.trackRefused, State.commissioned, TrackAccepted, or_iff_not_imp_left]

theorem trackRefused_eq_true {s : State} {t : TrackIx} : s.trackRefused t = true ↔ ¬ TrackAccepted s t := by
  rw [← trackRefused_eq_false, Bool.not_eq_false]

theorem namedTrack?_of_accepted {s : State} {track : Byte} {t : TrackIx} (ht : track.toNat = t.val)
    (ha : TrackAccepted s t) : s.namedTrack? track = some t := by
  simp [State.namedTrack?, track?_eq_some.mpr ht, trackRefused_eq_false.mpr ha]

theorem namedTrack?_of_refused {s : State} {track : Byte}
    (h : 40 < track.toNat ∨ ∃ t : TrackIx, track.toNat = t.val ∧ ¬ TrackAccepted s t) : s.namedTrack? track = none := by
  obtain hout | ⟨t, ht, hna⟩ := h
  · simp [State.namedTrack?, track?_eq_none.mpr hout]
  · simp [State.namedTrack?, track?_eq_some.mpr ht, trackRefused_eq_true.mpr hna]

end Sys2Proof.Proofs
end

section
/-! PROOFS. The destination unit: the lookup of a block code (R111), and SET WINDOW, SET MAP, SET TRACK, SET FILL and PULL
(R109, R112, R120, R121). -/

namespace Sys2Proof.Proofs

open Sys2Proof Sys2Proof.Machine Sys2Proof.Spec

/-! ## The lookup of a block code (R111) -/

/-- A search in ascending index ends at an index whose answer is the first. -/
theorem findSome?_finRange_of_first {n : Nat} {α : Type} {f : Fin n → Option α} {i : Fin n} {x : α} (hi : f i = some x)
    (hbelow : ∀ j, j < i → f j = none) : (List.finRange n).findSome? f = some x := by
  obtain ⟨before, after, hsplit⟩ := List.append_of_mem (List.mem_finRange i)
  have hsorted : (before ++ i :: after).Pairwise (· < ·) := hsplit ▸ List.pairwise_lt_finRange n
  obtain ⟨-, -, hacross⟩ := List.pairwise_append.mp hsorted
  have hlt : ∀ j ∈ before, j < i := fun j hj => hacross j hj i List.mem_cons_self
  exact List.findSome?_eq_some_iff.mpr ⟨before, i, after, hsplit, hi, fun j hj => hbelow j (hlt j hj)⟩

/-- An entry is passed over when it is invalid, does not cover the code, or names a track not in use. -/
theorem mapTrack_eq_none_iff {l : Ladder} {code : Nat} {m : Option MapEntry} :
    l.mapTrack code m = none ↔
      ∀ n, m = some n → code / 2 ^ n.span = n.code / 2 ^ n.span → l.trackInUse n.track = false := by
  cases m with
  | none => simp [Ladder.mapTrack]
  | some n => simp [Ladder.mapTrack, MapEntry.covers]

theorem mapTrack_of_covers {l : Ladder} {code : Nat} {m : MapEntry} (hc : code / 2 ^ m.span = m.code / 2 ^ m.span)
    (hu : l.trackInUse m.track = true) : l.mapTrack code (some m) = some m.track := by
  simp [Ladder.mapTrack, MapEntry.covers, hc, hu]

theorem lookup_of_found {y : Yard} {l : Ladder} {code : Byte} {t : TrackIx}
    (h : (List.finRange 32).findSome? (fun i => l.mapTrack code.toNat (Table.look y.blockMap i)) = some t) :
    y.lookup l code = (t, none) := by
  simp [Yard.lookup, h]

/-- Steps 3 and 4 of R111: every entry is passed over. -/
theorem lookup_of_all_passed {y : Yard} {l : Ladder} {code : Byte}
    (h : ∀ i, l.mapTrack code.toNat (Table.look y.blockMap i) = none) :
    y.lookup l code = (l.consts.defaultTrack.elim (l.rejectTrack, some .noBlock) fun d => (d, none)) := by
  have hnone : (List.finRange 32).findSome? (fun i => l.mapTrack code.toNat (Table.look y.blockMap i)) = none :=
    List.findSome?_eq_none_iff.mpr fun i _ => h i
  rw [Yard.lookup, hnone]
  cases l.consts.defaultTrack <;> rfl

/-- Settles O42: the search in ascending index ends at the first entry that is not passed over. -/
theorem lookupTakesFirstCoveringEntry : Obligations.LookupTakesFirstCoveringEntry := by
  intro y l code
  refine ⟨fun i m hm hcovers hused hbelow => ?_, fun hpassed => ?_⟩
  · have hfirst : l.mapTrack code.toNat (Table.look y.blockMap i) = some m.track :=
      hm ▸ mapTrack_of_covers hcovers hused
    exact lookup_of_found
      (findSome?_finRange_of_first hfirst fun j hj => mapTrack_eq_none_iff.mpr (hbelow j hj))
  · have hlookup := lookup_of_all_passed fun j => mapTrack_eq_none_iff.mpr (hpassed j)
    refine ⟨fun d hd => ?_, fun r hd hr => ?_⟩
    · rw [hlookup, hd, Option.elim_some]
    · rw [hlookup, hd, Option.elim_none, Ladder.rejectTrack, hr, Option.getD_some]

/-! ## SET WINDOW (R109) -/

section SetWindow

variable {s : State} {w first last : Byte}

theorem setWindow_replaces {i : Fin 4} (hw : w.toNat = i.val) (hf : first.toNat ≤ 40) :
    AnswersYard (.setWindow w first last) s ok
      { s.yard with windows := Table.put s.yard.windows i { first := first.toNat, last := last.toNat } } := by
  have hrange : inRange 0 40 first.toNat = true := inRange_iff.mpr ⟨Nat.zero_le _, hf⟩
  apply answersYard_of_serve (body := setWindowBody w first last) rfl
  simp only [setWindowBody, index?_eq_some.mpr hw, hrange]
  rfl

theorem setWindow_refuses_window (hw : 3 < w.toNat) : Refuses (.setWindow w first last) s .badValue [0] := by
  apply refuses_of_serve (body := setWindowBody w first last) rfl
  simp only [setWindowBody, index?_eq_none.mpr hw]
  rfl

theorem setWindow_refuses_first (hw : w.toNat ≤ 3) (hf : 40 < first.toNat) :
    Refuses (.setWindow w first last) s .badValue [1] := by
  have hindex : index? 4 w = some ⟨w.toNat, by omega⟩ := index?_eq_some.mpr rfl
  apply refuses_of_serve (body := setWindowBody w first last) rfl
  simp only [setWindowBody, hindex, inRange_eq_false.mpr (.inr hf)]
  rfl

end SetWindow

/-! ## SET MAP (R112) -/

section SetMap

variable {s : State} {entry valid code span track : Byte} {i : Fin 32}

theorem setMap_refuses_entry (he : 31 < entry.toNat) : Refuses (.setMap entry valid code span track) s .badValue [0] := by
  apply refuses_of_serve (body := setMapBody entry valid code span track) rfl
  simp only [setMapBody, index?_eq_none.mpr he]
  rfl

theorem setMap_refuses_valid (he : entry.toNat = i.val) (hv : 1 < valid.toNat) :
    Refuses (.setMap entry valid code span track) s .badValue [1] := by
  apply refuses_of_serve (body := setMapBody entry valid code span track) rfl
  simp only [setMapBody, index?_eq_some.mpr he, yesNo?_eq_none.mpr hv]
  rfl

theorem setMap_invalidates (he : entry.toNat = i.val) :
    AnswersYard (.setMap entry 0 code span track) s ok
      { s.yard with blockMap := Table.put s.yard.blockMap i none } := by
  apply answersYard_of_serve (body := setMapBody entry 0 code span track) rfl
  simp only [setMapBody, index?_eq_some.mpr he]
  rfl

/-- Past the entry and the valid byte, SET MAP is the checks of a valid entry's own fields. -/
theorem setMapBody_valid (he : entry.toNat = i.val) :
    setMapBody entry 1 code span track s = setEntry i code span track s := by
  simp only [setMapBody, index?_eq_some.mpr he]
  rfl

theorem setMap_refuses_span (he : entry.toNat = i.val) (hs : 7 < span.toNat) :
    Refuses (.setMap entry 1 code span track) s .badValue [3] := by
  apply refuses_of_serve (body := setMapBody entry 1 code span track) rfl
  rw [setMapBody_valid he]
  simp only [setEntry, inRange_eq_false.mpr (.inr hs)]
  rfl

/-- Past the span check, the track checks of a valid entry are those of R120. -/
theorem setEntry_of_span (hs : span.toNat ≤ 7) :
    setEntry i code span track s =
      (s.namedTrack? track).elim (badValue 4, s) fun t =>
        (done, s.withYard (s.yard.putMap i (some { code := code.toNat, span := span.toNat, track := t }))) := by
  have hrange : inRange 0 7 span.toNat = true := inRange_iff.mpr ⟨Nat.zero_le _, hs⟩
  simp only [setEntry, hrange, State.namedTrack?, Bool.not_true, Bool.false_eq_true, if_false]
  cases track? track with
  | none => rfl
  | some t => cases h : s.trackRefused t <;> simp [h]

theorem setMap_refuses_track (he : entry.toNat = i.val) (hs : span.toNat ≤ 7)
    (ht : 40 < track.toNat ∨ ∃ t : TrackIx, track.toNat = t.val ∧ ¬ TrackAccepted s t) :
    Refuses (.setMap entry 1 code span track) s .badValue [4] := by
  apply refuses_of_serve (body := setMapBody entry 1 code span track) rfl
  rw [setMapBody_valid he, setEntry_of_span hs, namedTrack?_of_refused ht]
  rfl

theorem setMap_replaces {t : TrackIx} (he : entry.toNat = i.val) (hs : span.toNat ≤ 7) (ht : track.toNat = t.val)
    (ha : TrackAccepted s t) :
    AnswersYard (.setMap entry 1 code span track) s ok
      { s.yard with
          blockMap := Table.put s.yard.blockMap i (some { code := code.toNat, span := span.toNat, track := t }) } := by
  apply answersYard_of_serve (body := setMapBody entry 1 code span track) rfl
  rw [setMapBody_valid he, setEntry_of_span hs, namedTrack?_of_accepted ht ha]
  rfl

end SetMap

/-! ## SET TRACK, SET FILL and PULL (R120, R121) -/

section Track

variable {s : State} {track : Byte} {capacity count : Word16} {value : Word32}

theorem setTrack_refuses_track (h : s.namedTrack? track = none) : Refuses (.setTrack track capacity) s .badValue [0] := by
  apply refuses_of_serve (body := setTrackBody track capacity) rfl
  simp only [setTrackBody, h]
  rfl

theorem setFill_refuses_track (h : s.namedTrack? track = none) : Refuses (.setFill track value) s .badValue [0] := by
  apply refuses_of_serve (body := setFillBody track value) rfl
  simp only [setFillBody, h]
  rfl

theorem pull_refuses_track (h : s.namedTrack? track = none) : Refuses (.pull track count) s .badValue [0] := by
  apply refuses_of_serve (body := pullBody track count) rfl
  simp only [pullBody, h]
  rfl

variable {t : TrackIx}

theorem setTrack_refuses_capacity (h : s.namedTrack? track = some t) (hc : 4095 < capacity.toNat) :
    Refuses (.setTrack track capacity) s .badValue [1] := by
  apply refuses_of_serve (body := setTrackBody track capacity) rfl
  simp only [setTrackBody, h, inRange_eq_false.mpr (.inr hc)]
  rfl

theorem setTrack_replaces_capacity (h : s.namedTrack? track = some t) (hc : capacity.toNat ≤ 4095) :
    AnswersYard (.setTrack track capacity) s ok
      { s.yard with tracks := Table.put s.yard.tracks t { s.yard.trackOf t with capacity := capacity.toNat } } := by
  have hrange : inRange 0 4095 capacity.toNat = true := inRange_iff.mpr ⟨Nat.zero_le _, hc⟩
  apply answersYard_of_serve (body := setTrackBody track capacity) rfl
  simp only [setTrackBody, h, hrange]
  rfl

theorem setFill_replaces_fill (h : s.namedTrack? track = some t) :
    AnswersYard (.setFill track value) s (doneWith (le16 (BitVec.ofNat 16 (min value.toNat 65535))))
      { s.yard with
          tracks := Table.put s.yard.tracks t { s.yard.trackOf t with fill := min value.toNat 65535 } } := by
  apply answersYard_of_serve (body := setFillBody track value) rfl
  simp only [setFillBody, h]
  rfl

theorem pull_lowers_fill (h : s.namedTrack? track = some t) :
    AnswersYard (.pull track count) s (doneWith (le16 (BitVec.ofNat 16 ((s.yard.trackOf t).fill - count.toNat))))
      { s.yard with
          tracks := Table.put s.yard.tracks t
            { s.yard.trackOf t with fill := (s.yard.trackOf t).fill - count.toNat } } := by
  apply answersYard_of_serve (body := pullBody track count) rfl
  simp only [pullBody, h]
  rfl

end Track

/-- Settles O54, request by request, each check in field order. -/
theorem trackRequestsReplaceSettings : Obligations.TrackRequestsReplaceSettings := by
  intro s
  refine ⟨fun w first last => ?window, fun entry valid code span track => ?map,
    fun track capacity count value => ⟨fun hbad => ?refused, fun t ht ha => ?accepted⟩⟩
  case window =>
    exact ⟨fun i hw hf => setWindow_replaces hw hf, setWindow_refuses_window, setWindow_refuses_first⟩
  case map =>
    refine ⟨setMap_refuses_entry, fun i he => ⟨setMap_refuses_valid he, ?_, ?_⟩⟩
    · rintro rfl
      exact setMap_invalidates he
    · rintro rfl
      exact ⟨setMap_refuses_span he, fun hs => ⟨fun hout => setMap_refuses_track he hs (.inl hout), fun t ht =>
        ⟨fun hna => setMap_refuses_track he hs (.inr ⟨t, ht, hna⟩), setMap_replaces he hs ht⟩⟩⟩
  case refused =>
    have hnone := namedTrack?_of_refused hbad
    exact ⟨setTrack_refuses_track hnone, setFill_refuses_track hnone, pull_refuses_track hnone⟩
  case accepted =>
    have hsome := namedTrack?_of_accepted ht ha
    exact ⟨setTrack_refuses_capacity hsome, setTrack_replaces_capacity hsome, setFill_replaces_fill hsome,
      pull_lowers_fill hsome⟩

end Sys2Proof.Proofs
end

section
/-! SUPPORT. Where the outputs are judged: the yard of a command's next state is the earlier one, or one that PERMIT and
ATTN have been judged on (R171, R178), but at a reset and at a tick of the clock. A law that judging restores, or that reads
none of what else changes, is kept by every step. -/

namespace Sys2Proof.Proofs

open Sys2Proof Sys2Proof.Machine Sys2Proof.Spec

/-! ## Next states whose outputs are judged -/

/-- The yard is the earlier one, or its outputs have been judged. -/
def Judged (s t : State) : Prop := t.yard = s.yard ∨ ∃ y : Yard, t.yard = y.settle

variable {s t : State}

theorem judged_of_yard_eq (h : t.yard = s.yard) : Judged s t := .inl h

theorem judged_self (s : State) : Judged s s := judged_of_yard_eq rfl

theorem judged_withYard (s r : State) (y : Yard) : Judged s (r.withYard y) := .inr ⟨y, rfl⟩

/-- A request is judged as its body is: the link is no part of the yard. -/
theorem judged_of_serve {code : Byte} {payload : List Byte} {body : State → Reply × State}
    (h : serve code payload body s = .next t) (hb : Judged s (body s).2) : Judged s t := by
  rw [serve_eq, Host.Outcome.next.injEq] at h
  exact h ▸ hb

theorem judged_of_discard {bytes : List Byte} (h : discard bytes s = .next t) : Judged s t := by
  rw [discard_eq, Host.Outcome.next.injEq] at h
  exact h ▸ judged_self s

/-! ## Events -/

theorem takeTransitions_judged (c : Consumer) (s : State) : Judged s (s.takeTransitions c) := by
  cases c with
  | nobody => exact judged_self s
  | head | point | stop | freeze => exact judged_withYard s _ _

theorem filteredTransition_judged {line : LineIx} (h : execFilteredTransition line s = .next t) : Judged s t := by
  unfold execFilteredTransition at h
  split at h
  · cases h
    exact takeTransitions_judged _ s
  · cases h
    exact judged_self s

theorem bothActiveTimerExpiry_judged {k : HeadIx} (h : execBothActiveTimerExpiry k s = .next t) : Judged s t := by
  unfold execBothActiveTimerExpiry at h
  split at h
  · cases h
    exact judged_withYard s _ _
  · cases h
    exact judged_self s

theorem requestDiscarded_judged {bytes : List Byte} (h : execRequestDiscarded bytes s = .next t) : Judged s t := by
  unfold execRequestDiscarded at h
  split at h
  · exact judged_of_discard h
  · cases h
    exact judged_self s

/-! ## Configuration and modes: every refusal answers the state itself -/

variable (s)

theorem setPointBody_judged (f : PointFields) : Judged s (setPointBody f s).2 := by
  unfold setPointBody
  repeat' split
  all_goals exact judged_of_yard_eq rfl

theorem setYardBody_judged (f : YardFields) : Judged s (setYardBody f s).2 := by
  unfold setYardBody
  repeat' split
  all_goals exact judged_of_yard_eq rfl

theorem setLineBody_judged (line kind index level cls : Byte) : Judged s (setLineBody line kind index level cls s).2 := by
  unfold setLineBody
  repeat' split
  any_goals exact judged_self s
  exact judged_withYard s _ _

theorem commissionBody_judged : Judged s (commissionBody s).2 := by
  unfold commissionBody
  repeat' split
  any_goals exact judged_self s
  exact judged_withYard s _ _

theorem decommissionBody_judged : Judged s (decommissionBody s).2 := by
  unfold decommissionBody
  repeat' split
  any_goals exact judged_self s
  exact judged_withYard s _ _

theorem goHumping_judged : Judged s s.goHumping.2 := by
  obtain ⟨c, -, h⟩ | ⟨-, h⟩ := goHumping_cases s
  · exact h ▸ judged_self s
  · exact h ▸ judged_withYard s s _

theorem startBody_judged : Judged s (startBody s).2 := by
  unfold startBody
  split
  · exact judged_self s
  · exact goHumping_judged s

theorem resumeBody_judged : Judged s (resumeBody s).2 := by
  unfold resumeBody
  split
  · exact judged_self s
  · exact goHumping_judged s

theorem stopBody_judged : Judged s (stopBody s).2 := by
  unfold stopBody
  split
  · exact judged_withYard s _ _
  · exact judged_withYard s _ _
  · exact judged_self s
  · exact judged_self s

theorem finishHumping_judged : Judged s s.finishHumping.2 := by
  unfold State.finishHumping
  split
  · exact judged_self s
  · exact judged_withYard s _ _

theorem finishBody_judged : Judged s (finishBody s).2 := by
  unfold finishBody
  split
  · exact finishHumping_judged s
  · exact finishHumping_judged s
  · exact judged_self s
  · exact judged_self s

/-! ## The cut table -/

theorem makeRecord_judged (number : Word16) (r : Record) : Judged s (s.makeRecord number r).2 := by
  obtain ⟨i, -, h⟩ | ⟨-, -, h⟩ | ⟨i, -, -, h⟩ := makeRecord_cases number r s
  · exact h ▸ judged_self s
  · exact h ▸ judged_self s
  · exact h ▸ judged_withYard s s _

theorem enterBody_judged (number : Word16) (kind value axles : Byte) :
    Judged s (enterBody number kind value axles s).2 := by
  unfold enterBody
  repeat' split
  any_goals exact judged_self s
  exact makeRecord_judged s _ _

theorem holdBody_judged (number : Word16) : Judged s (holdBody number s).2 := by
  unfold holdBody
  split
  · exact judged_self s
  · exact makeRecord_judged s _ _

theorem amendInFlight_judged (i : SlotIx) (c : Cut) (x : Started) (d : Destination) :
    Judged s (s.amendInFlight i c x d).2 := by
  unfold State.amendInFlight
  dsimp only
  split
  · exact judged_self s
  · repeat' split
    any_goals exact judged_self s
    all_goals exact judged_withYard s _ _

theorem amendRecord_judged (number : Word16) (d : Option Destination) (axles : Option Nat) :
    Judged s (s.amendRecord number d axles).2 := by
  unfold State.amendRecord
  repeat' split
  any_goals exact judged_self s
  · exact judged_withYard s _ _
  · exact amendInFlight_judged s _ _ _ _

theorem amendBody_judged (number : Word16) (selection kind value axles : Byte) :
    Judged s (amendBody number selection kind value axles s).2 := by
  unfold amendBody
  dsimp only
  repeat' split
  any_goals exact judged_self s
  all_goals exact amendRecord_judged s _ _ _

theorem withdrawBody_judged (number : Word16) : Judged s (withdrawBody number s).2 := by
  unfold withdrawBody
  repeat' split
  any_goals exact judged_self s
  all_goals exact judged_withYard s _ _

theorem retireBody_judged (number : Word16) : Judged s (retireBody number s).2 := by
  unfold retireBody
  repeat' split
  any_goals exact judged_self s
  exact judged_withYard s _ _

/-! ## Tracks, block map and windows -/

theorem setMapBody_judged (entry valid code span track : Byte) :
    Judged s (setMapBody entry valid code span track s).2 := by
  unfold setMapBody setEntry
  repeat' split
  any_goals exact judged_self s
  all_goals exact judged_withYard s _ _

theorem setWindowBody_judged (window first last : Byte) : Judged s (setWindowBody window first last s).2 := by
  unfold setWindowBody
  repeat' split
  any_goals exact judged_self s
  exact judged_withYard s _ _

theorem setTrackBody_judged (track : Byte) (capacity : Word16) : Judged s (setTrackBody track capacity s).2 := by
  unfold setTrackBody
  repeat' split
  any_goals exact judged_self s
  exact judged_withYard s _ _

theorem setFillBody_judged (track : Byte) (value : Word32) : Judged s (setFillBody track value s).2 := by
  unfold setFillBody
  split
  · exact judged_self s
  · exact judged_withYard s _ _

theorem pullBody_judged (track : Byte) (count : Word16) : Judged s (pullBody track count s).2 := by
  unfold pullBody
  split
  · exact judged_self s
  · exact judged_withYard s _ _

/-! ## Points and sections -/

theorem onPoint_judged (point : Byte) {body : PointIx → Point → State → Reply × State}
    (hb : ∀ p x, Judged s (body p x s).2) : Judged s (onPoint point body s).2 := by
  obtain ⟨-, h⟩ | ⟨-, -, h⟩ | ⟨p, -, -, -, h⟩ | ⟨p, x, -, -, -, h⟩ := onPoint_cases point body s
  · exact h ▸ judged_self s
  · exact h ▸ judged_self s
  · exact h ▸ judged_self s
  · exact h ▸ hb p x

theorem throwBody_judged (leg : Byte) (p : PointIx) (x : Point) : Judged s (throwBody leg p x s).2 := by
  unfold throwBody
  repeat' split
  any_goals exact judged_self s
  all_goals exact judged_withYard s _ _

theorem barBody_judged (p : PointIx) (x : Point) : Judged s (barBody p x s).2 := by
  unfold barBody
  repeat' split
  any_goals exact judged_self s
  exact judged_withYard s _ _

theorem unbarBody_judged (p : PointIx) (x : Point) : Judged s (unbarBody p x s).2 := by
  unfold unbarBody
  split
  · exact judged_withYard s _ _
  · exact judged_self s

theorem restoreBody_judged (p : PointIx) (x : Point) : Judged s (restoreBody p x s).2 := by
  unfold restoreBody
  repeat' split
  any_goals exact judged_self s
  exact judged_withYard s _ _

theorem resetSectionOf_judged (sid : SectionId) (x : Section) : Judged s (resetSectionOf s sid x).2 := by
  unfold resetSectionOf
  repeat' split
  any_goals exact judged_self s
  exact judged_withYard s _ _

theorem resetSectionBody_judged (selector : Byte) : Judged s (resetSectionBody selector s).2 := by
  unfold resetSectionBody onSection
  repeat' split
  any_goals exact judged_self s
  exact resetSectionOf_judged s _ _

/-! ## Notices -/

theorem ackBody_judged (cls index : Byte) (reasons : List Byte) : Judged s (ackBody cls index reasons s).2 := by
  unfold ackBody
  repeat' split
  any_goals exact judged_self s
  exact judged_withYard s _ _

theorem setAttentionBody_judged (e0 e1 e2 e3 e4 mask : Byte) :
    Judged s (setAttentionBody e0 e1 e2 e3 e4 mask s).2 := by
  unfold setAttentionBody
  split
  · exact judged_self s
  · exact judged_withYard s _ _

variable {s}

theorem ack_judged {cls index : Byte} {reasons : List Byte} (h : execAck cls index reasons s = .next t) :
    Judged s t := by
  unfold execAck at h
  split at h
  · exact judged_of_serve h (ackBody_judged s _ _ _)
  · exact judged_of_discard h

/-! ## Every command -/

theorem exec_judged {c : Instr} (hreset : ¬ IsReset c) (htick : ¬ IsTick c) (h : exec c s = .next t) : Judged s t := by
  cases c with
  | hardwareReset adr1 adr0 => exact absurd ⟨adr1, adr0, rfl⟩ hreset
  | ladderClockTick raw => exact absurd ⟨raw, rfl⟩ htick
  | filteredTransition line => exact filteredTransition_judged h
  | bothActiveTimerExpiry k => exact bothActiveTimerExpiry_judged h
  | stallTimerExpiry | shortCut | absorptionEnd | throwTimeout | returnFailed | deadlineExpiry =>
    cases h
    exact judged_withYard s _ _
  | requestDiscarded bytes => exact requestDiscarded_judged h
  | setPoint => exact judged_of_serve h (setPointBody_judged s _)
  | setYard => exact judged_of_serve h (setYardBody_judged s _)
  | setLine => exact judged_of_serve h (setLineBody_judged s _ _ _ _ _)
  | commission => exact judged_of_serve h (commissionBody_judged s)
  | decommission => exact judged_of_serve h (decommissionBody_judged s)
  | start => exact judged_of_serve h (startBody_judged s)
  | stop => exact judged_of_serve h (stopBody_judged s)
  | resume => exact judged_of_serve h (resumeBody_judged s)
  | finish => exact judged_of_serve h (finishBody_judged s)
  | enter => exact judged_of_serve h (enterBody_judged s _ _ _ _)
  | hold => exact judged_of_serve h (holdBody_judged s _)
  | amend => exact judged_of_serve h (amendBody_judged s _ _ _ _ _)
  | withdraw => exact judged_of_serve h (withdrawBody_judged s _)
  | retire => exact judged_of_serve h (retireBody_judged s _)
  | setMap => exact judged_of_serve h (setMapBody_judged s _ _ _ _ _)
  | setWindow => exact judged_of_serve h (setWindowBody_judged s _ _ _)
  | setTrack => exact judged_of_serve h (setTrackBody_judged s _ _)
  | setFill => exact judged_of_serve h (setFillBody_judged s _ _)
  | pull => exact judged_of_serve h (pullBody_judged s _ _)
  | throw => exact judged_of_serve h (onPoint_judged s _ (throwBody_judged s _))
  | bar => exact judged_of_serve h (onPoint_judged s _ (barBody_judged s))
  | unbar => exact judged_of_serve h (onPoint_judged s _ (unbarBody_judged s))
  | restore => exact judged_of_serve h (onPoint_judged s _ (restoreBody_judged s))
  | resetSection => exact judged_of_serve h (resetSectionBody_judged s _)
  | ack => exact ack_judged h
  | setAttention => exact judged_of_serve h (setAttentionBody_judged s _ _ _ _ _ _)
  | readCut | readPending | readTrack | readMap | readPoint | readSection | readHead | readLine | readDevice
  | readNotices =>
    cases h
    exact judged_of_yard_eq rfl

/-- Everything a command can do to the yard's outputs: a reset and a tick set the yard themselves, and every other command
leaves it or judges it. -/
theorem exec_yard_cases {c : Instr} (h : exec c s = .next t) :
    (IsReset c ∧ t.yard = Yard.reset) ∨ (IsTick c ∧ t.yard = s.yard.tick (s.clock + 1)) ∨ Judged s t := by
  by_cases hreset : IsReset c
  · obtain ⟨adr1, adr0, rfl⟩ := hreset
    cases h
    exact .inl ⟨⟨adr1, adr0, rfl⟩, rfl⟩
  by_cases htick : IsTick c
  · obtain ⟨raw, rfl⟩ := htick
    cases h
    exact .inr (.inl ⟨⟨raw, rfl⟩, rfl⟩)
  exact .inr (.inr (exec_judged hreset htick h))

/-- What every command keeps, and what does not read the queue of waiting commands, every step keeps. -/
theorem step_keeps_of_exec_keeps {P : State → Prop}
    (hqueue : ∀ (s : State) (q : List Instr), P s → P { s with pending := q })
    (hexec : ∀ (c : Instr) (s t : State), P s → exec c s = .next t → P t) (s t : State) (hs : P s)
    (h : step s = .next t) : P t := by
  unfold step at h
  split at h
  · cases h
    exact hs
  · exact hexec _ _ t (hqueue s _ hs) h

end Sys2Proof.Proofs
end

section
/-! PROOFS. Operating modes and the hump permit: the law of PERMIT (R171), and START, RESUME, STOP and FINISH (R166 to
R169). -/

namespace Sys2Proof.Proofs

open Sys2Proof Sys2Proof.Machine Sys2Proof.Spec

/-! ## The permit law (R171) -/

/-- The permit law reads the mode controller, the pending list and the cut table alone. -/
theorem permitLaw_of_agree {s t : State} (hcontrol : t.yard.control = s.yard.control)
    (hlist : t.yard.pendingList = s.yard.pendingList) (hslots : t.yard.slots = s.yard.slots) (h : s.PermitLaw) :
    t.PermitLaw := by
  have hcut := Yard.cutAt_congr hslots
  unfold State.PermitLaw
  simp only [hcontrol, hlist, hcut]
  exact h

theorem permitLaw_of_yard_eq {s t : State} (hyard : t.yard = s.yard) (h : s.PermitLaw) : t.PermitLaw :=
  permitLaw_of_agree (congrArg _ hyard) (congrArg _ hyard) (congrArg _ hyard) h

theorem permitLaw_of_settled {t : State} {y : Yard} (h : t.yard = y.settle) : t.PermitLaw :=
  permitLaw_of_yard_eq h (permitLaw_withYard t y)

/-- After a reset the mode is SETUP and PERMIT is de-asserted. -/
theorem permitLaw_reset : State.reset.PermitLaw :=
  ⟨fun hpermit => absurd hpermit Bool.false_ne_true, fun ⟨hmode, _⟩ => absurd hmode (by decide)⟩

theorem exec_keeps_permitLaw (c : Instr) (s t : State) (hs : s.PermitLaw) (h : exec c s = .next t) : t.PermitLaw := by
  obtain ⟨-, hreset⟩ | ⟨-, htick⟩ | hsame | ⟨y, hsettled⟩ := exec_yard_cases h
  · exact permitLaw_of_yard_eq hreset permitLaw_reset
  · exact permitLaw_of_agree (htick ▸ rfl) (htick ▸ rfl) (htick ▸ rfl) hs
  · exact permitLaw_of_yard_eq hsame hs
  · exact permitLaw_of_settled hsettled

/-- Settles O9: every command keeps the law, which does not read the queue. -/
theorem permitLawIsKept : Obligations.PermitLawIsKept :=
  step_keeps_of_exec_keeps (fun _ _ h => permitLaw_of_yard_eq rfl h) exec_keeps_permitLaw

/-! ## The first live condition (R163, R166) -/

section FirstLive

variable {m : ModeControl}

theorem firstLive_of_stop (h : m.stopFlag = true) : m.firstLive = some .stopInput := by
  simp [ModeControl.firstLive, ModeControl.live, h]

variable (hstop : m.stopFlag = false)
include hstop

theorem firstLive_of_disturbed (h : 0 < m.disturbed) : m.firstLive = some .disturbedSection := by
  simp [ModeControl.firstLive, ModeControl.live, hstop, h]

variable (hdisturbed : m.disturbed = 0)
include hdisturbed

theorem firstLive_of_lost (h : 0 < m.lost) : m.firstLive = some .lostPoint := by
  simp [ModeControl.firstLive, ModeControl.live, hstop, hdisturbed, h]

variable (hlost : m.lost = 0)
include hlost

theorem firstLive_of_stall (h : 0 < m.stall) : m.firstLive = some .stalledSection := by
  simp [ModeControl.firstLive, ModeControl.live, hstop, hdisturbed, hlost, h]

variable (hstall : m.stall = 0)
include hstall

theorem firstLive_of_freeze (h : m.freezeFlag = true) : m.firstLive = some .freeze := by
  simp [ModeControl.firstLive, ModeControl.live, hstop, hdisturbed, hlost, hstall, h]

theorem firstLive_eq_none (h : m.freezeFlag = false) : m.firstLive = none := by
  simp [ModeControl.firstLive, ModeControl.live, hstop, hdisturbed, hlost, hstall, h]

end FirstLive

/-! ## START and RESUME (R166, R167) -/

section GoHumping

variable {s : State} {c : Instr}

/-- In their own modes START and RESUME are one request. -/
theorem exec_eq_goHumping (hc : (c = .start ∧ s.mode = .standby) ∨ (c = .resume ∧ s.mode = .halted)) :
    exec c s = serve ((codeOf c).getD 0) (payloadOf c) State.goHumping s := by
  obtain ⟨rfl, hmode⟩ | ⟨rfl, hmode⟩ := hc
  · have hbody : startBody s = s.goHumping := if_neg (not_not_intro hmode)
    rw [serve_eq, ← hbody]
    rfl
  · have hbody : resumeBody s = s.goHumping := if_neg (not_not_intro hmode)
    rw [serve_eq, ← hbody]
    rfl

theorem goHumping_refuses (he : exec c s = serve ((codeOf c).getD 0) (payloadOf c) State.goHumping s)
    {cause : HaltCause} (hlive : s.yard.control.firstLive = some cause) :
    Refuses c s .notReady [BitVec.ofNat 8 (haltCauseNumber cause)] := by
  apply refuses_of_serve he
  simp only [State.goHumping, hlive]
  rfl

theorem goHumping_enters (he : exec c s = serve ((codeOf c).getD 0) (payloadOf c) State.goHumping s)
    (hlive : s.yard.control.firstLive = none) :
    AnswersYard c s ok { s.yard with control := { s.yard.control with mode := .humping, halt := 0 } } := by
  apply answersYard_of_serve he
  simp only [State.goHumping, hlive]
  rfl

theorem start_refuses_mode (h : s.mode ≠ .standby) : Refuses .start s .badMode [] :=
  refuses_of_serve (body := startBody) rfl (if_pos h)

theorem resume_refuses_mode (h : s.mode ≠ .halted) : Refuses .resume s .badMode [] :=
  refuses_of_serve (body := resumeBody) rfl (if_pos h)

end GoHumping

/-! ## STOP (R167, R169) -/

section Stop

variable {s : State}

theorem enterCause_of_humping {y : Yard} (cause : HaltCause) (h : y.control.mode = .humping) :
    y.enterCause cause =
      { y with
          control := { y.control with mode := .halted, halt := y.control.halt ||| reasonBit (haltCauseNumber cause) },
          notices := { y.notices with device := y.notices.device ||| reasonBit 1 } } := by
  simp only [Yard.enterCause, h]
  rfl

theorem enterCause_of_halted {y : Yard} (cause : HaltCause) (h : y.control.mode = .halted) :
    y.enterCause cause =
      { y with control := { y.control with halt := y.control.halt ||| reasonBit (haltCauseNumber cause) } } := by
  simp only [Yard.enterCause, h, Yard.modifyControl]

theorem stop_halts_hump (h : s.mode = .humping) :
    AnswersYard .stop s ok
      { s.yard with
          control := { s.yard.control with mode := .halted, halt := s.yard.control.halt ||| reasonBit 1 },
          notices := { s.yard.notices with device := s.yard.notices.device ||| reasonBit 1 } } := by
  have hyard := enterCause_of_humping .stopRequest h
  apply answersYard_of_serve (body := stopBody) rfl
  simp only [stopBody, h, hyard]
  rfl

theorem stop_joins_set (h : s.mode = .halted) :
    AnswersYard .stop s ok
      { s.yard with control := { s.yard.control with halt := s.yard.control.halt ||| reasonBit 1 } } := by
  have hyard := enterCause_of_halted .stopRequest h
  apply answersYard_of_serve (body := stopBody) rfl
  simp only [stopBody, h, hyard]
  rfl

theorem stop_refuses_mode (h : s.mode = .setup ∨ s.mode = .standby) : Refuses .stop s .badMode [] := by
  apply refuses_of_serve (body := stopBody) rfl
  obtain hmode | hmode := h
  · simp only [stopBody, hmode]
    rfl
  · simp only [stopBody, hmode]
    rfl

end Stop

/-! ## FINISH (R168) -/

section Finish

variable {s : State}

theorem onLadder_iff (c : Cut) : c.onLadder = true ↔ c.state = .entering ∨ c.state = .rolling := by
  simp [Cut.onLadder]

theorem anyOnLadder_iff (y : Yard) : y.anyOnLadder = true ↔ CutOnLadder y := by
  simp [Yard.anyOnLadder, CutOnLadder, onLadder_iff]

/-- In HUMPING and HALTED, FINISH is what follows its mode check. -/
theorem finishBody_of_mode (h : s.mode = .humping ∨ s.mode = .halted) : finishBody s = s.finishHumping := by
  obtain hmode | hmode := h
  · simp only [finishBody, hmode]
  · simp only [finishBody, hmode]

theorem finish_refuses_busy (h : s.mode = .humping ∨ s.mode = .halted) (hcut : CutOnLadder s.yard) :
    Refuses .finish s .busy [] := by
  apply refuses_of_serve (body := finishBody) rfl
  rw [finishBody_of_mode h]
  exact if_pos ((anyOnLadder_iff s.yard).mpr hcut)

theorem finish_enters_standby (h : s.mode = .humping ∨ s.mode = .halted) (hcut : ¬ CutOnLadder s.yard) :
    AnswersYard .finish s ok { s.yard with control := { s.yard.control with mode := .standby, halt := 0 } } := by
  apply answersYard_of_serve (body := finishBody) rfl
  rw [finishBody_of_mode h]
  exact if_neg (mt (anyOnLadder_iff s.yard).mp hcut)

theorem finish_refuses_mode (h : s.mode = .setup ∨ s.mode = .standby) : Refuses .finish s .badMode [] := by
  apply refuses_of_serve (body := finishBody) rfl
  obtain hmode | hmode := h
  · simp only [finishBody, hmode]
    rfl
  · simp only [finishBody, hmode]
    rfl

end Finish

/-- Settles O49, request by request, START and RESUME together in the order of the conditions. -/
theorem modeRequestsChangeMode : Obligations.ModeRequestsChangeMode := by
  intro s
  refine ⟨fun c hc => ?goHumping, stop_halts_hump, stop_joins_set,
    fun hmode => ⟨finish_refuses_busy hmode, finish_enters_standby hmode⟩, start_refuses_mode, resume_refuses_mode,
    fun hmode => ⟨stop_refuses_mode hmode, finish_refuses_mode hmode⟩⟩
  have he := exec_eq_goHumping hc
  refine ⟨fun h => goHumping_refuses he (firstLive_of_stop h), fun hstop => ?_⟩
  refine ⟨fun h => goHumping_refuses he (firstLive_of_disturbed hstop h), fun hdisturbed => ?_⟩
  refine ⟨fun h => goHumping_refuses he (firstLive_of_lost hstop hdisturbed h), fun hlost => ?_⟩
  refine ⟨fun h => goHumping_refuses he (firstLive_of_stall hstop hdisturbed hlost h), fun hstall => ?_⟩
  exact ⟨fun h => goHumping_refuses he (firstLive_of_freeze hstop hdisturbed hlost hstall h),
    fun h => goHumping_enters he (firstLive_eq_none hstop hdisturbed hlost hstall h)⟩

end Sys2Proof.Proofs
end

section
/-! PROOFS. Notices and the attention line: SET ATTENTION (R179). -/

namespace Sys2Proof.Proofs

open Sys2Proof Sys2Proof.Machine Sys2Proof.Spec

/-! ## SET ATTENTION (R179) -/

section SetAttention

variable {e0 e1 e2 e3 e4 m : Byte} {s : State} {k : Nat}

/-- The refused field is the one a search of the six in field order ends at. -/
theorem attention?_eq_error_of_findIdx? (h : [e0, e1, e2, e3, e4, m].findIdx? (fun b => (yesNo? b).isNone) = some k) :
    attention? e0 e1 e2 e3 e4 m = .error k := by
  -- In each branch the fields before the failing one are read, so the search passes them over.
  unfold attention?
  split <;> simp_all [List.findIdx?_cons]

theorem yesNo?_boolCode (b : Bool) : yesNo? (boolCode b) = some b := yesNo?_eq_some.mpr rfl

theorem attention?_of_codes (e : Fin 5 → Bool) (mask : Bool) :
    attention? (boolCode (e 0)) (boolCode (e 1)) (boolCode (e 2)) (boolCode (e 3)) (boolCode (e 4)) (boolCode mask) =
      .ok (Table.tab e, mask) := by
  have hread : (fun i : Fin 5 => [e 0, e 1, e 2, e 3, e 4].getD i.val false) = e := by
    funext i
    fin_cases i <;> rfl
  simp only [attention?, yesNo?_boolCode, hread]

theorem setAttention_replaces (e : Fin 5 → Bool) (mask : Bool) :
    AnswersYard
      (.setAttention (boolCode (e 0)) (boolCode (e 1)) (boolCode (e 2)) (boolCode (e 3)) (boolCode (e 4)) (boolCode mask))
      s ok { s.yard with notices := { s.yard.notices with enables := Table.tab e, mask := mask } } := by
  apply answersYard_of_serve (body := setAttentionBody _ _ _ _ _ _) rfl
  rw [setAttentionBody, attention?_of_codes]
  rfl

theorem setAttention_refuses (h : attention? e0 e1 e2 e3 e4 m = .error k) :
    Refuses (.setAttention e0 e1 e2 e3 e4 m) s .badValue [BitVec.ofNat 8 k] := by
  apply refuses_of_serve (body := setAttentionBody e0 e1 e2 e3 e4 m) rfl
  rw [setAttentionBody, h]
  rfl

/-- Among fields of which one is neither on nor off, the search ends at the first such field. -/
theorem findIdx?_first_bad {fields : List Byte} (h : ∃ k, k < fields.length ∧ 1 < (fields.getD k 0).toNat) :
    ∃ k, k < fields.length ∧ 1 < (fields.getD k 0).toNat ∧ (∀ j, j < k → (fields.getD j 0).toNat ≤ 1) ∧
      fields.findIdx? (fun b => (yesNo? b).isNone) = some k := by
  obtain ⟨n, hn, hbad⟩ := h
  have hsome : (fields.findIdx? fun b => (yesNo? b).isNone).isSome := by
    rw [List.getD_eq_getElem _ _ hn] at hbad
    simpa [List.findIdx?_isSome, yesNo?_eq_none] using ⟨_, List.getElem_mem hn, hbad⟩
  obtain ⟨k, hk⟩ := Option.isSome_iff_exists.mp hsome
  obtain ⟨hlt, hfirst, hbelow⟩ := List.findIdx?_eq_some_iff_getElem.mp hk
  refine ⟨k, hlt, ?_, fun j hj => ?_, hk⟩
  · rw [List.getD_eq_getElem _ _ hlt]
    simpa [yesNo?_eq_none] using hfirst
  · rw [List.getD_eq_getElem _ _ (hj.trans hlt)]
    simpa [yesNo?_eq_none] using hbelow j hj

end SetAttention

/-- Settles O60: the five enables make one table, replaced with the mask; the refusal names the field at which the
search ends. -/
theorem setAttentionReplacesEnables : Obligations.SetAttentionReplacesEnables := by
  intro s e mask
  refine ⟨⟨Table.tab e, Table.look_tab e, setAttention_replaces e mask⟩, fun e0 e1 e2 e3 e4 m hbad => ?_⟩
  obtain ⟨k, hk, hfirst, hbelow, hfind⟩ := findIdx?_first_bad (fields := [e0, e1, e2, e3, e4, m]) hbad
  exact ⟨k, hk, hfirst, hbelow, setAttention_refuses (attention?_eq_error_of_findIdx? hfind)⟩

end Sys2Proof.Proofs
end


section
/-! SUPPORT. What every command can do, said once: `Effect s c u` lists the states that a command makes of a state but for
the link, each with what the command has checked; `exec_effect` says that there are no others. -/

namespace Sys2Proof.Proofs

open Sys2Proof Sys2Proof.Machine Sys2Proof.Spec

/-- The state u is what the command c makes of the state s, but for the link; a reset and a tick stand apart. -/
inductive Effect (s : State) : Instr → State → Prop
  | same (c : Instr) : Effect s c s
  | transition (line : LineIx) : (Table.look s.lines line).due = true →
      Effect s (.filteredTransition line) (s.takeTransitions (Table.look s.lines line).role.consumer)
  | bothActive (h : HeadIx) : (Table.look s.heads h).bothActiveExpired s.clock = true →
      Effect s (.bothActiveTimerExpiry h)
        (({ s with heads := Table.put s.heads h ((Table.look s.heads h).faulted s.clock) }).withYard
          (s.yard.headFault s.env h))
  | stall (sid : SectionId) : Effect s (.stallTimerExpiry sid) (s.withYard (s.yard.stallExpired s.env sid))
  | shortCut : Effect s .shortCut (s.withYard (s.yard.shortCut s.env))
  | absorptionEnd : Effect s .absorptionEnd (s.withYard (s.yard.absorptionEnd s.env))
  | throwTimeout (p : PointIx) : Effect s (.throwTimeout p) (s.withYard (s.yard.throwTimeout s.env p))
  | returnFailed (p : PointIx) : Effect s (.returnFailed p) (s.withYard (s.yard.returnFailed s.env p))
  | deadlineExpiry (p : PointIx) : Effect s (.deadlineExpiry p) (s.withYard (s.yard.deadlineExpiry s.env p))
  | setPoint (f : PointFields) (p : PointIx) (x : Option PointConfig) : s.mode = .setup →
      Effect s (.setPoint f) (s.setConfig p x)
  | setYard (f : YardFields) (k : Constants) : s.mode = .setup →
      Effect s (.setYard f) { s with ladder := { s.ladder with consts := k } }
  | setLine (line kind index level cls : Byte) (role : Role) (a : Level) (c : FilterClass) : s.mode = .setup →
      Effect s (.setLine line kind index level cls) (s.setLine line.toFin role a c)
  | commission : s.mode = .setup → s.ladder.check = none → Effect s .commission s.commissionedFrom
  | decommission : s.mode = .standby → s.yard.anyOnLadder = false →
      Effect s .decommission (({ s with heads := Table.fill 82 Head.off }).withYard s.yard.decommission)
  | start : s.mode = .standby → Effect s .start (s.withYard (s.yard.enterMode .humping))
  | resume : s.mode = .halted → Effect s .resume (s.withYard (s.yard.enterMode .humping))
  | stop : s.mode = .humping ∨ s.mode = .halted → Effect s .stop (s.withYard (s.yard.enterCause .stopRequest))
  | finish : s.mode = .humping ∨ s.mode = .halted → Effect s .finish (s.withYard (s.yard.enterMode .standby))
  | enter (n : Word16) (kind value axles : Byte) (i : SlotIx) (c : Cut) : s.yard.freeSlot = some i → c.state = .pending →
      Effect s (.enter n kind value axles) (s.withYard (s.yard.append i (.cut c)))
  | hold (n : Word16) (i : SlotIx) : s.yard.freeSlot = some i →
      Effect s (.hold n) (s.withYard (s.yard.append i (.hold n false)))
  | amendPending (n : Word16) (sel kind value axles : Byte) (i : SlotIx) (c : Cut) (d : Option Destination)
      (k : Option Nat) : s.yard.cutAt i = some c → c.state = .pending →
      Effect s (.amend n sel kind value axles) (s.withYard (s.yard.modifyCut i (amendedCut d k)))
  | amendStarted (n : Word16) (sel kind value axles : Byte) (i : SlotIx) (c : Cut) (x : Started) (d : Destination)
      (t : TrackIx) (cause : Option ResolutionCause) : s.yard.cutAt i = some c → c.onLadder = true →
      c.started = some x →
      Effect s (.amend n sel kind value axles) (s.withYard (s.yard.amendStarted s.env i d t cause x.resolved))
  | withdraw (n : Word16) (i : SlotIx) : (∀ c, s.yard.cutAt i = some c → c.state = .pending) →
      Effect s (.withdraw n) (s.withYard (s.yard.withdrawSlot i))
  | retire (n : Word16) (i : SlotIx) (c : Cut) : s.yard.cutAt i = some c → c.state = .arrived ∨ c.state = .lost →
      Effect s (.retire n) (s.withYard (s.yard.retireSlot i))
  | setMap (entry valid code span track : Byte) (i : Fin 32) (m : Option MapEntry) :
      Effect s (.setMap entry valid code span track) (s.withYard (s.yard.putMap i m))
  | setWindow (window first last : Byte) (i : Fin 4) (w : Window) :
      Effect s (.setWindow window first last) (s.withYard (s.yard.putWindow i w))
  | setTrack (track : Byte) (capacity : Word16) (t : TrackIx) (n : Nat) :
      Effect s (.setTrack track capacity) (s.withYard (s.yard.modifyTrack t (fun x => { x with capacity := n })))
  | setFill (track : Byte) (value : Word32) (t : TrackIx) (n : Nat) :
      Effect s (.setFill track value) (s.withYard (s.yard.modifyTrack t (fun x => { x with fill := n })))
  | pull (track : Byte) (count : Word16) (t : TrackIx) (n : Nat) :
      Effect s (.pull track count) (s.withYard (s.yard.modifyTrack t (fun x => { x with fill := n })))
  | throwInPosition (point leg : Byte) (p : PointIx) (x : Point) (l : Leg) : s.mode ≠ .setup →
      s.yard.pointOf p = some x → x.state.lie = some l →
      Effect s (.throw point leg) (s.withYard (s.yard.throwInPosition s.env p l))
  | throwPlaced (point leg : Byte) (p : PointIx) (x : Point) (l : Leg) : s.mode ≠ .setup →
      s.yard.pointOf p = some x → s.yard.throwRefusal p x = none →
      Effect s (.throw point leg) (s.withYard (s.yard.throwPlaced s.env p l))
  | bar (point : Byte) (p : PointIx) (x : Point) : s.mode ≠ .setup → s.yard.pointOf p = some x →
      x.state.inMotion = false → x.state.isLost = false → Effect s (.bar point) (s.withYard (s.yard.bar s.env p))
  | unbar (point : Byte) (p : PointIx) (x : Point) : s.mode ≠ .setup → s.yard.pointOf p = some x →
      Effect s (.unbar point) (s.withYard ((s.yard.setBar p false).evaluate s.env p))
  | restore (point : Byte) (p : PointIx) (x : Point) (l : Leg) : s.mode ≠ .setup → s.yard.pointOf p = some x →
      x.state.inMotion = false →
      Effect s (.restore point) (s.withYard (s.yard.restorePoint s.env p x.state.isLost l))
  | resetSection (selector : Byte) (sid : SectionId) (x : Section) : s.mode ≠ .setup →
      s.yard.sectionOf sid = some x → s.yard.sectionMoving sid = false →
      Effect s (.resetSection selector)
        (({ s with heads := s.restoredHeads sid }).withYard (s.yard.afterReset s.env sid x))
  | ack (cls index : Byte) (reasons : List Byte) (k : NoticeKey) (left : Byte) :
      Effect s (.ack cls index reasons) (s.withYard (s.yard.modifyNotices (fun n => n.putReasons k left)))
  | setAttention (e0 e1 e2 e3 e4 mask : Byte) (enables : Table 5 Bool) (off : Bool) :
      Effect s (.setAttention e0 e1 e2 e3 e4 mask) (s.withYard (s.yard.setAttention enables off))

/-! ## The bodies of requests -/

/-- What the body of a request answers: an effect of the request, none where it is refused, and a payload that a response
frame can hold (R183, R185). -/
structure Serves (s : State) (c : Instr) (x : Reply × State) : Prop where
  effect : Effect s c x.2
  refused : x.1.status ≠ .done → x.2 = s
  responds : x.1.status ≠ .noResponse
  fits : x.1.payload.length ≤ 62

variable {s : State} {c : Instr}

/-- A refusal with a payload of at most two bytes. -/
theorem serves_refusal {r : Reply} (hstatus : r.status ≠ .noResponse) (hfits : r.payload.length ≤ 62) :
    Serves s c (r, s) :=
  ⟨.same c, fun _ => rfl, hstatus, hfits⟩

theorem serves_refuse {st : Status} (h : st ≠ .noResponse) : Serves s c (refuse st, s) :=
  serves_refusal h (Nat.zero_le _)

theorem serves_refuseAt {st : Status} {n : Nat} (h : st ≠ .noResponse) : Serves s c (refuseAt st n, s) :=
  serves_refusal h (by simp [refuseAt])

theorem serves_badValue {n : Nat} : Serves s c (badValue n, s) := serves_refuseAt (by decide)

theorem serves_doneWith {payload : List Byte} {u : State} (h : Effect s c u) (hfits : payload.length ≤ 62) :
    Serves s c (doneWith payload, u) :=
  ⟨h, fun hstatus => absurd rfl hstatus, Status.noConfusion, hfits⟩

theorem serves_done {u : State} (h : Effect s c u) : Serves s c (done, u) := serves_doneWith h (Nat.zero_le _)

theorem serves_ite {p : Prop} [Decidable p] {a b : Reply × State} (ha : Serves s c a) (hb : Serves s c b) :
    Serves s c (if p then a else b) := by
  split
  · exact ha
  · exact hb

theorem setPointBody_serves (f : PointFields) : Serves s (.setPoint f) (setPointBody f s) := by
  unfold setPointBody
  split
  · exact serves_refuse (by decide)
  next hm =>
    have hsetup : s.mode = .setup := Decidable.not_not.mp hm
    repeat' split
    any_goals exact serves_badValue
    all_goals exact serves_done (.setPoint _ _ _ hsetup)

theorem setYardBody_serves (f : YardFields) : Serves s (.setYard f) (setYardBody f s) := by
  unfold setYardBody
  split
  · exact serves_refuse (by decide)
  next hm =>
    split
    · exact serves_badValue
    · exact serves_done (.setYard _ _ (Decidable.not_not.mp hm))

theorem setLineBody_serves (line kind index level cls : Byte) :
    Serves s (.setLine line kind index level cls) (setLineBody line kind index level cls s) := by
  unfold setLineBody
  split
  · exact serves_refuse (by decide)
  next hm =>
    repeat' split
    any_goals exact serves_badValue
    exact serves_done (.setLine _ _ _ _ _ _ _ _ (Decidable.not_not.mp hm))

theorem commissionBody_serves : Serves s .commission (commissionBody s) := by
  unfold commissionBody
  split
  · exact serves_refuse (by decide)
  next hm =>
    split
    · exact serves_refusal (by simp [refuseCheck]) (by simp [refuseCheck])
    next hcheck =>
      split
      · exact serves_refusal (by simp [refuseCheck]) (by simp [refuseCheck])
      · exact serves_done (.commission (Decidable.not_not.mp hm) hcheck)

theorem decommissionBody_serves : Serves s .decommission (decommissionBody s) := by
  unfold decommissionBody
  split
  · exact serves_refuse (by decide)
  next hm =>
    split
    · exact serves_refuse (by decide)
    next hnone => exact serves_done (.decommission (Decidable.not_not.mp hm) (Bool.not_eq_true _ ▸ hnone))

theorem goHumping_serves (h : Effect s c (s.withYard (s.yard.enterMode .humping))) : Serves s c s.goHumping := by
  obtain ⟨k, -, he⟩ | ⟨-, he⟩ := goHumping_cases s
  · exact he ▸ serves_refuseAt (by decide)
  · exact he ▸ serves_done h

theorem startBody_serves : Serves s .start (startBody s) := by
  unfold startBody
  split
  · exact serves_refuse (by decide)
  next hm => exact goHumping_serves (.start (Decidable.not_not.mp hm))

theorem resumeBody_serves : Serves s .resume (resumeBody s) := by
  unfold resumeBody
  split
  · exact serves_refuse (by decide)
  next hm => exact goHumping_serves (.resume (Decidable.not_not.mp hm))

theorem stopBody_serves : Serves s .stop (stopBody s) := by
  unfold stopBody
  split
  next hm => exact serves_done (.stop (.inl hm))
  next hm => exact serves_done (.stop (.inr hm))
  · exact serves_refuse (by decide)
  · exact serves_refuse (by decide)

theorem finishHumping_serves (hm : s.mode = .humping ∨ s.mode = .halted) : Serves s .finish s.finishHumping := by
  unfold State.finishHumping
  split
  · exact serves_refuse (by decide)
  · exact serves_done (.finish hm)

theorem finishBody_serves : Serves s .finish (finishBody s) := by
  unfold finishBody
  split
  next hm => exact finishHumping_serves (.inl hm)
  next hm => exact finishHumping_serves (.inr hm)
  · exact serves_refuse (by decide)
  · exact serves_refuse (by decide)

theorem makeRecord_serves {n : Word16} {r : Record}
    (h : ∀ i, s.yard.freeSlot = some i → Effect s c (s.withYard (s.yard.append i r))) :
    Serves s c (s.makeRecord n r) := by
  obtain ⟨i, -, he⟩ | ⟨-, -, he⟩ | ⟨i, -, hfree, he⟩ := makeRecord_cases n r s <;> rw [he]
  · exact serves_refuseAt (by decide)
  · exact serves_refuse (by decide)
  · exact serves_doneWith (h i hfree) (by simp)

theorem enterBody_serves (n : Word16) (kind value axles : Byte) :
    Serves s (.enter n kind value axles) (enterBody n kind value axles s) := by
  unfold enterBody
  repeat' split
  any_goals exact serves_badValue
  exact makeRecord_serves fun i hi => .enter n kind value axles i _ hi rfl

theorem holdBody_serves (n : Word16) : Serves s (.hold n) (holdBody n s) := by
  unfold holdBody
  split
  · exact serves_badValue
  · exact makeRecord_serves fun i hi => .hold n i hi

theorem amendInFlight_serves {n : Word16} {sel kind value axles : Byte} {i : SlotIx} {k : Cut} {x : Started}
    {d : Destination} (hk : s.yard.cutAt i = some k) (hl : k.onLadder = true) (hx : k.started = some x) :
    Serves s (.amend n sel kind value axles) (s.amendInFlight i k x d) := by
  unfold State.amendInFlight
  dsimp only
  split
  · exact serves_refuseAt (by decide)
  · refine serves_ite (serves_refuseAt (by decide)) (serves_ite (serves_refuseAt (by decide)) ?_)
    exact serves_doneWith (.amendStarted n sel kind value axles i k x d _ _ hk hl hx) (by simp)

theorem amendRecord_serves {n : Word16} {sel kind value axles : Byte} {d : Option Destination} {k : Option Nat} :
    Serves s (.amend n sel kind value axles) (s.amendRecord n d k) := by
  unfold State.amendRecord
  split
  · exact serves_refuse (by decide)
  next i hi =>
    split
    · exact serves_refuseAt (by decide)
    next x hx =>
      split
      next hp => exact serves_done (.amendPending _ _ _ _ _ i x d k hx hp)
      · split
        · exact serves_refuseAt (by decide)
        next hl =>
          split
          · exact serves_refuseAt (by decide)
          · split
            next hst => exact amendInFlight_serves hx (by simpa using hl) hst
            · exact serves_refuseAt (by decide)

theorem amendBody_serves (n : Word16) (sel kind value axles : Byte) :
    Serves s (.amend n sel kind value axles) (amendBody n sel kind value axles s) := by
  unfold amendBody
  dsimp only
  repeat' split
  any_goals exact serves_badValue
  all_goals exact amendRecord_serves

theorem withdrawBody_serves (n : Word16) : Serves s (.withdraw n) (withdrawBody n s) := by
  unfold withdrawBody
  split
  · exact serves_badValue
  · split
    · exact serves_refuse (by decide)
    next i hi =>
      split
      next hnone => exact serves_done (.withdraw n i (by simp [hnone]))
      next k hk =>
        split
        next hp => exact serves_done (.withdraw n i (by simp [hk, hp]))
        · exact serves_refuseAt (by decide)

theorem retireBody_serves (n : Word16) : Serves s (.retire n) (retireBody n s) := by
  unfold retireBody
  split
  · exact serves_badValue
  · split
    · exact serves_refuse (by decide)
    next i hi =>
      split
      · exact serves_refuseAt (by decide)
      next k hk =>
        split
        next hp => exact serves_done (.retire n i k hk hp)
        · exact serves_refuseAt (by decide)

theorem setMapBody_serves (entry valid code span track : Byte) :
    Serves s (.setMap entry valid code span track) (setMapBody entry valid code span track s) := by
  unfold setMapBody setEntry
  repeat' split
  any_goals exact serves_badValue
  all_goals exact serves_done (.setMap _ _ _ _ _ _ _)

theorem setWindowBody_serves (window first last : Byte) :
    Serves s (.setWindow window first last) (setWindowBody window first last s) := by
  unfold setWindowBody
  repeat' split
  any_goals exact serves_badValue
  exact serves_done (.setWindow _ _ _ _ _)

theorem setTrackBody_serves (track : Byte) (capacity : Word16) :
    Serves s (.setTrack track capacity) (setTrackBody track capacity s) := by
  unfold setTrackBody
  repeat' split
  any_goals exact serves_badValue
  exact serves_done (.setTrack _ _ _ _)

theorem setFillBody_serves (track : Byte) (value : Word32) :
    Serves s (.setFill track value) (setFillBody track value s) := by
  unfold setFillBody
  split
  · exact serves_badValue
  · exact serves_doneWith (.setFill _ _ _ _) (by simp [bytes2, le16])

theorem pullBody_serves (track : Byte) (count : Word16) : Serves s (.pull track count) (pullBody track count s) := by
  unfold pullBody
  split
  · exact serves_badValue
  · exact serves_doneWith (.pull _ _ _ _) (by simp [bytes2, le16])

/-- A request on a point serves where its body does, past the common checks (section 7.6). -/
theorem onPoint_serves {point : Byte} {body : PointIx → Point → State → Reply × State}
    (h : ∀ p x, s.mode ≠ .setup → s.yard.pointOf p = some x → Serves s c (body p x s)) :
    Serves s c (onPoint point body s) := by
  obtain ⟨-, he⟩ | ⟨-, -, he⟩ | ⟨p, -, -, -, he⟩ | ⟨p, x, hm, -, hx, he⟩ := onPoint_cases point body s
  · exact he ▸ serves_refuse (by decide)
  · exact he ▸ serves_badValue
  · exact he ▸ serves_refuseAt (by decide)
  · exact he ▸ h p x hm hx

theorem throwRefusal_responds {y : Yard} {p : PointIx} {x : Point} {st : Status} (h : y.throwRefusal p x = some st) :
    st ≠ .noResponse := by
  unfold Yard.throwRefusal at h
  grind

theorem throwBody_serves {point leg : Byte} {p : PointIx} {x : Point} (hm : s.mode ≠ .setup)
    (hx : s.yard.pointOf p = some x) : Serves s (.throw point leg) (throwBody leg p x s) := by
  unfold throwBody
  split
  · exact serves_badValue
  next l hl =>
    split
    next st hst => exact serves_refuseAt (throwRefusal_responds hst)
    next hok =>
      split
      next hlie => exact serves_doneWith (.throwInPosition _ _ p x l hm hx hlie) (by simp)
      · exact serves_doneWith (.throwPlaced _ _ p x l hm hx hok) (by simp)

theorem barBody_serves {point : Byte} {p : PointIx} {x : Point} (hm : s.mode ≠ .setup)
    (hx : s.yard.pointOf p = some x) : Serves s (.bar point) (barBody p x s) := by
  unfold barBody
  split
  · exact serves_refuseAt (by decide)
  next hmotion =>
    split
    · exact serves_refuseAt (by decide)
    next hlost =>
      split
      · exact serves_done (.same _)
      · exact serves_done (.bar _ p x hm hx (by simpa using hmotion) (by simpa using hlost))

theorem unbarBody_serves {point : Byte} {p : PointIx} {x : Point} (hm : s.mode ≠ .setup)
    (hx : s.yard.pointOf p = some x) : Serves s (.unbar point) (unbarBody p x s) := by
  unfold unbarBody
  split
  · exact serves_done (.unbar _ p x hm hx)
  · exact serves_done (.same _)

theorem restoreBody_serves {point : Byte} {p : PointIx} {x : Point} (hm : s.mode ≠ .setup)
    (hx : s.yard.pointOf p = some x) : Serves s (.restore point) (restoreBody p x s) := by
  unfold restoreBody
  split
  · exact serves_refuseAt (by decide)
  next hmotion =>
    split
    · exact serves_refuseAt (by decide)
    · split
      · exact serves_refuseAt (by decide)
      · exact serves_doneWith (.restore _ p x _ hm hx (by simpa using hmotion)) (by simp)

theorem resetSectionBody_serves (selector : Byte) : Serves s (.resetSection selector) (resetSectionBody selector s) := by
  unfold resetSectionBody onSection
  split
  · exact serves_refuse (by decide)
  next hm =>
    split
    · exact serves_badValue
    next sid hsid =>
      split
      · exact serves_refuseAt (by decide)
      next x hx =>
        unfold resetSectionOf
        split
        · exact serves_refuseAt (by decide)
        next hrest =>
          split
          · exact serves_refuseAt (by decide)
          · exact serves_done (.resetSection _ sid x hm hx (by simpa using hrest))

theorem ackBody_serves (cls index : Byte) (reasons : List Byte) :
    Serves s (.ack cls index reasons) (ackBody cls index reasons s) := by
  unfold ackBody
  repeat' split
  any_goals exact serves_badValue
  exact serves_doneWith (.ack _ _ _ _ _) (by simp)

theorem setAttentionBody_serves (e0 e1 e2 e3 e4 mask : Byte) :
    Serves s (.setAttention e0 e1 e2 e3 e4 mask) (setAttentionBody e0 e1 e2 e3 e4 mask s) := by
  unfold setAttentionBody
  split
  · exact serves_badValue
  · exact serves_done (.setAttention _ _ _ _ _ _ _ _)

/-! ## The answers of reads -/

theorem le16_length (w : Word16) : (le16 w).length = 2 := rfl

theorem le32_length (w : Word32) : (le32 w).length = 4 := rfl

theorem bytes2_length (n : Nat) : (bytes2 n).length = 2 := rfl

/-- A list whose entries take a number of bytes each. -/
theorem flatMap_length_le {α : Type} {f : α → List Byte} {n : Nat} (hf : ∀ a, (f a).length ≤ n) (l : List α) :
    (l.flatMap f).length ≤ n * l.length := by
  induction l with
  | nil => simp
  | cons a l ih =>
    have := hf a
    simp only [List.flatMap_cons, List.length_append, List.length_cons, Nat.mul_add]
    omega

theorem padded_length (n : Nat) (l : List Byte) : (padded n l).length = n := by simp [padded]

theorem destinationBytes_length (d : Destination) : (destinationBytes d).length = 2 := by cases d <;> rfl

theorem recordBytes_length_le (i : SlotIx) (r : Record) (b : Byte) : (recordBytes i r b).length ≤ 62 := by
  cases r with
  | hold n reached => simp [recordBytes, le16_length]
  | cut k =>
    cases hk : k.started with
    | none => simp [recordBytes, startedBytes, destinationBytes_length, le16_length, hk]
    | some x =>
      simp [recordBytes, startedBytes, destinationBytes_length, le16_length, le32_length, bytes2_length, padded_length, hk]

theorem serves_readSlot (i : SlotIx) : Serves s c (s.readSlot i, s) := by
  unfold State.readSlot
  split
  · exact serves_doneWith (.same c) (recordBytes_length_le _ _ _)
  · exact serves_refuseAt (by decide)

theorem readCutAnswer_serves (kind : Byte) (value : Word16) : Serves s c (readCutAnswer kind value s, s) := by
  unfold readCutAnswer
  split
  · split
    · exact serves_badValue
    · split
      · exact serves_readSlot _
      · exact serves_refuse (by decide)
  · split
    · split
      · exact serves_readSlot _
      · exact serves_badValue
    · exact serves_badValue

theorem readPendingAnswer_serves (start : Byte) : Serves s c (readPendingAnswer start s, s) := by
  unfold readPendingAnswer
  split
  · refine serves_doneWith (.same c) ?_
    have hlen := flatMap_length_le (f := fun i => le16 (s.yard.numberAt i)) (n := 2) (fun _ => le_rfl)
      ((s.yard.pendingList.drop start.toNat).take Config.pendingChunk)
    have htake := List.length_take_le Config.pendingChunk (s.yard.pendingList.drop start.toNat)
    simp only [counted, List.length_cons]
    have : Config.pendingChunk = 24 := rfl
    omega
  · exact serves_badValue

theorem optional_length {α : Type} {width : Nat} {f : α → List Byte} (hf : ∀ a, (f a).length = width) (o : Option α) :
    (Machine.optional width f o).length = width + 1 := by
  cases o <;> simp [Machine.optional, hf]

theorem pointLegBytes_length (pr : Pair) : (pointLegBytes pr).length = 2 := rfl

theorem readTrackAnswer_serves (track : Byte) : Serves s c (readTrackAnswer track s, s) := by
  unfold readTrackAnswer
  split
  · exact serves_badValue
  · exact serves_doneWith (.same c)
      (by simp [State.trackBytes, optional_length pointLegBytes_length, bytes2_length])

theorem readMapAnswer_serves (kind index : Byte) : Serves s c (readMapAnswer kind index s, s) := by
  unfold readMapAnswer
  repeat' split
  any_goals exact serves_badValue
  · exact serves_doneWith (.same c) (by simp [State.entryBytes, optional_length])
  · exact serves_doneWith (.same c) (by simp [State.windowBytes, optional_length])

theorem targetBytes_length (t : Target) : (targetBytes t).length = 2 := by cases t <;> rfl

theorem configBytes_length (p : PointIx) (k : Option PointConfig) : (configBytes p k).length = 16 := by
  cases k <;> simp [configBytes, targetBytes_length, bytes2_length]

theorem claimBytes_length (y : Yard) (k : Claim) : (claimBytes y k).2.length = 6 := by
  cases k <;> simp [claimBytes, le16_length, le32_length]

theorem waitingBytes_length (y : Yard) (p : PointIx) : (waitingBytes y p).length = 9 := by
  unfold waitingBytes
  split
  · rfl
  · simp [claimBytes_length]

theorem testBytes_length (t : Option Test) : (testBytes t).length = 21 := by
  cases t <;> simp [testBytes, bytes2_length, le32_length, bytesOfInt]

theorem planBytes_length (y : Yard) (r : Plan) : (planBytes y r).length = 25 := by
  simp [planBytes, testBytes_length, le16_length]

theorem pointBytes_length (p : PointIx) (x : Point) : (s.pointBytes p x).length = 45 := by
  simp [State.pointBytes, waitingBytes_length, planBytes_length, le32_length]

theorem readPointAnswer_serves (point : Byte) : Serves s c (readPointAnswer point s, s) := by
  unfold readPointAnswer
  repeat' split
  · exact serves_badValue
  · exact serves_doneWith (.same c) (by simp [configBytes_length])
  · exact serves_doneWith (.same c) (by simp [configBytes_length, pointBytes_length])

theorem sectionBytes_length (y : Yard) (sid : SectionId) (x : Section) : (sectionBytes y sid x).length = 8 := by
  simp [sectionBytes, optional_length]

theorem occupantBytes_length (y : Yard) (o : Occupant) : (occupantBytes y o).length = 4 := rfl

theorem queueBytes_length (y : Yard) (q : QueueEntry) : (queueBytes y q).length = 8 := rfl

theorem counted_chunk_length_le {α : Type} {f : α → List Byte} {n : Nat} (hf : ∀ a, (f a).length ≤ n) (start : Byte)
    (l : List α) : (counted f (chunk start l)).length ≤ n * 4 + 1 := by
  have hlen := flatMap_length_le hf (chunk start l)
  have htake : (chunk start l).length ≤ 4 := List.length_take_le 4 _
  have hmul := Nat.mul_le_mul_left n htake
  simp only [counted, List.length_cons]
  omega

theorem readSectionAnswer_serves (selector list start : Byte) : Serves s c (readSectionAnswer selector list start s, s) := by
  unfold readSectionAnswer onSection
  split
  · exact serves_refuse (by decide)
  · split
    · exact serves_badValue
    next sid _ =>
      split
      · exact serves_refuseAt (by decide)
      next x _ =>
        have hocc := counted_chunk_length_le (fun o => (occupantBytes_length s.yard o).le) start x.occupants
        have hqueue := counted_chunk_length_le (fun q => (queueBytes_length s.yard q).le) start (s.yard.queueAt sid)
        unfold readSectionOf
        repeat' split
        any_goals exact serves_badValue
        all_goals
          refine serves_doneWith (.same c) ?_
          rw [List.length_append, sectionBytes_length]
          omega

theorem passageBytes_length (p : Passage) : (passageBytes p).length = 7 := rfl

theorem readHeadAnswer_serves (head : Byte) : Serves s c (readHeadAnswer head s, s) := by
  unfold readHeadAnswer
  split
  · exact serves_badValue
  · exact serves_doneWith (.same c)
      (by simp [State.headBytes, optional_length passageBytes_length, optional_length,
            optional_length (fun f : HeadFault => le32_length f.instant)])

theorem deviceBytes_length : s.deviceBytes.length = 54 := rfl

theorem noticesBytes_length (n : Notices) : n.bytes.length = 23 := rfl

theorem lineBytes_length (i : LineIx) : (s.lineBytes i).length = 9 := by
  simp [State.lineBytes, optional_length]

/-! ## Every command -/

/-- The command is answered as its body says. -/
theorem effect_of_serve {code : Byte} {body : State → Reply × State} {t : State} (hc : codeOf c = some code)
    (h : serve code (payloadOf c) body s = .next t) (hb : Serves s c (body s)) :
    ∃ r u, Serves s c (r, u) ∧ t = { u with link := reply c r } := by
  rw [serve_eq, Host.Outcome.next.injEq] at h
  exact ⟨_, _, hb, by rw [← h, reply, hc]; rfl⟩

theorem effect_of_serveRead {code : Byte} {answer : State → Reply} {t : State} (hc : codeOf c = some code)
    (h : serveRead code (payloadOf c) answer s = .next t) (hb : Serves s c (answer s, s)) :
    ∃ r u, Serves s c (r, u) ∧ t = { u with link := reply c r } := by
  rw [serveRead_eq, Host.Outcome.next.injEq] at h
  exact ⟨_, _, hb, by rw [← h, reply, hc]; rfl⟩

theorem lengthAllowed_ack (n : Nat) : lengthAllowed 0x62 n = (decide (3 ≤ n) && decide (n ≤ 9)) := rfl

/-- Every request is answered with an effect of its own and a reply in the link; an ACK that names none or more than seven
reasons is no request of its row (R181, R184). -/
theorem request_effect {t : State} (hwf : WellFormed c = true) (hc : (codeOf c).isSome = true) (h : exec c s = .next t) :
    ∃ r u, Serves s c (r, u) ∧ t = { u with link := reply c r } := by
  cases c with
  | hardwareReset | filteredTransition | bothActiveTimerExpiry | stallTimerExpiry | shortCut | absorptionEnd
  | throwTimeout | returnFailed | deadlineExpiry | requestDiscarded | ladderClockTick => cases hc
  | setPoint f => exact effect_of_serve rfl h (setPointBody_serves f)
  | setYard f => exact effect_of_serve rfl h (setYardBody_serves f)
  | setLine => exact effect_of_serve rfl h (setLineBody_serves _ _ _ _ _)
  | commission => exact effect_of_serve rfl h commissionBody_serves
  | decommission => exact effect_of_serve rfl h decommissionBody_serves
  | start => exact effect_of_serve rfl h startBody_serves
  | stop => exact effect_of_serve rfl h stopBody_serves
  | resume => exact effect_of_serve rfl h resumeBody_serves
  | finish => exact effect_of_serve rfl h finishBody_serves
  | enter => exact effect_of_serve rfl h (enterBody_serves _ _ _ _)
  | hold => exact effect_of_serve rfl h (holdBody_serves _)
  | amend => exact effect_of_serve rfl h (amendBody_serves _ _ _ _ _)
  | withdraw => exact effect_of_serve rfl h (withdrawBody_serves _)
  | retire => exact effect_of_serve rfl h (retireBody_serves _)
  | setMap => exact effect_of_serve rfl h (setMapBody_serves _ _ _ _ _)
  | setWindow => exact effect_of_serve rfl h (setWindowBody_serves _ _ _)
  | setTrack => exact effect_of_serve rfl h (setTrackBody_serves _ _)
  | setFill => exact effect_of_serve rfl h (setFillBody_serves _ _)
  | pull => exact effect_of_serve rfl h (pullBody_serves _ _)
  | throw => exact effect_of_serve rfl h (onPoint_serves fun _ _ hm hx => throwBody_serves hm hx)
  | bar => exact effect_of_serve rfl h (onPoint_serves fun _ _ hm hx => barBody_serves hm hx)
  | unbar => exact effect_of_serve rfl h (onPoint_serves fun _ _ hm hx => unbarBody_serves hm hx)
  | restore => exact effect_of_serve rfl h (onPoint_serves fun _ _ hm hx => restoreBody_serves hm hx)
  | resetSection => exact effect_of_serve rfl h (resetSectionBody_serves _)
  | ack cls index reasons =>
    have hlen : lengthAllowed 0x62 (reasons.length + 2) = true := by
      simp only [WellFormed, Bool.and_eq_true, decide_eq_true_eq] at hwf
      rw [lengthAllowed_ack, Bool.and_eq_true, decide_eq_true_eq, decide_eq_true_eq]
      omega
    have he : exec (.ack cls index reasons) s = serve 0x62 (cls :: index :: reasons) (ackBody cls index reasons) s :=
      if_pos hlen
    exact effect_of_serve rfl (he ▸ h) (ackBody_serves _ _ _)
  | setAttention => exact effect_of_serve rfl h (setAttentionBody_serves _ _ _ _ _ _)
  | readCut => exact effect_of_serveRead rfl h (readCutAnswer_serves _ _)
  | readPending => exact effect_of_serveRead rfl h (readPendingAnswer_serves _)
  | readTrack => exact effect_of_serveRead rfl h (readTrackAnswer_serves _)
  | readMap => exact effect_of_serveRead rfl h (readMapAnswer_serves _ _)
  | readPoint => exact effect_of_serveRead rfl h (readPointAnswer_serves _)
  | readSection => exact effect_of_serveRead rfl h (readSectionAnswer_serves _ _ _)
  | readHead => exact effect_of_serveRead rfl h (readHeadAnswer_serves _)
  | readLine line =>
    exact effect_of_serveRead (answer := fun z => doneWith (z.lineBytes line.toFin)) rfl h (serves_doneWith (.same _) ((lineBytes_length line.toFin).le.trans (by decide)))
  | readDevice =>
    exact effect_of_serveRead (answer := fun z => doneWith z.deviceBytes) rfl h (serves_doneWith (.same _) (deviceBytes_length.le.trans (by decide)))
  | readNotices =>
    exact effect_of_serveRead (answer := fun z => doneWith z.yard.notices.bytes) rfl h (serves_doneWith (.same _) ((noticesBytes_length _).le.trans (by decide)))

/-- An event that is no reset and no tick leaves the link, but for the receive buffer of a discarded transfer. -/
theorem event_effect {t : State} (hreset : ¬ IsReset c) (htick : ¬ IsTick c) (hc : codeOf c = none)
    (h : exec c s = .next t) :
    ∃ u, Effect s c u ∧ t = { u with link := t.link } ∧ ((∀ bytes, c ≠ .requestDiscarded bytes) → t.link = s.link) := by
  cases c with
  | hardwareReset adr1 adr0 => exact absurd ⟨adr1, adr0, rfl⟩ hreset
  | ladderClockTick raw => exact absurd ⟨raw, rfl⟩ htick
  | filteredTransition line =>
    change execFilteredTransition line s = _ at h
    unfold execFilteredTransition at h
    split at h
    next hdue =>
      cases h
      refine ⟨_, .transition line hdue, rfl, fun _ => ?_⟩
      unfold State.takeTransitions
      split <;> rfl
    · cases h
      exact ⟨s, .same _, rfl, fun _ => rfl⟩
  | bothActiveTimerExpiry k =>
    change execBothActiveTimerExpiry k s = _ at h
    unfold execBothActiveTimerExpiry at h
    split at h
    next hexp =>
      cases h
      exact ⟨_, .bothActive k hexp, rfl, fun _ => rfl⟩
    · cases h
      exact ⟨s, .same _, rfl, fun _ => rfl⟩
  | stallTimerExpiry sid => cases h; exact ⟨_, .stall sid, rfl, fun _ => rfl⟩
  | shortCut => cases h; exact ⟨_, .shortCut, rfl, fun _ => rfl⟩
  | absorptionEnd => cases h; exact ⟨_, .absorptionEnd, rfl, fun _ => rfl⟩
  | throwTimeout p => cases h; exact ⟨_, .throwTimeout p, rfl, fun _ => rfl⟩
  | returnFailed p => cases h; exact ⟨_, .returnFailed p, rfl, fun _ => rfl⟩
  | deadlineExpiry p => cases h; exact ⟨_, .deadlineExpiry p, rfl, fun _ => rfl⟩
  | requestDiscarded bytes =>
    change execRequestDiscarded bytes s = _ at h
    unfold execRequestDiscarded at h
    split at h
    all_goals
      cases h
      exact ⟨s, .same _, rfl, fun hne => absurd rfl (hne bytes)⟩
  | _ => cases hc

/-- An ACK that is no request of its row changes only the receive buffer (log entry 31). -/
theorem ill_formed_request_effect {t : State} (hwf : WellFormed c ≠ true) (hc : (codeOf c).isSome = true)
    (h : exec c s = .next t) : t = { s with link := t.link } := by
  cases c with
  | ack cls index reasons =>
    have hlen : ¬ lengthAllowed 0x62 (reasons.length + 2) = true := by
      simp [WellFormed] at hwf
      rw [lengthAllowed_ack, Bool.and_eq_true, decide_eq_true_eq, decide_eq_true_eq]
      omega
    have he : exec (.ack cls index reasons) s = discard (requestFrame 0x62 (cls :: index :: reasons)) s := if_neg hlen
    rw [he] at h
    cases h
    rfl
  | requestDiscarded => cases hc
  | _ => exact absurd rfl hwf

/-- Every command but a reset and a tick has one of the effects, and changes besides at most the link. -/
theorem exec_effect {t : State} (hreset : ¬ IsReset c) (htick : ¬ IsTick c) (h : exec c s = .next t) :
    ∃ u, Effect s c u ∧ t = { u with link := t.link } := by
  cases hc : codeOf c with
  | none =>
    obtain ⟨u, hu, ht, -⟩ := event_effect hreset htick hc h
    exact ⟨u, hu, ht⟩
  | some code =>
    by_cases hwf : WellFormed c = true
    · obtain ⟨r, u, hu, ht⟩ := request_effect hwf (by simp [hc]) h
      exact ⟨u, hu.effect, by rw [ht]⟩
    · exact ⟨s, .same c, ill_formed_request_effect hwf (by simp [hc]) h⟩

end Sys2Proof.Proofs
end


section
/-! PROOFS. The block as a whole and the control link: the front command and its answer, what a request leaves in the link,
refusals, and the frames of requests (R181 to R185). -/

namespace Sys2Proof.Proofs

open Sys2Proof Sys2Proof.Machine Sys2Proof.Spec

/-! ## The front command (R180, section 11.3) -/

/-- Settles O1: by the two cases of the queue. -/
theorem stepExecutesFrontCommand : Obligations.StepExecutesFrontCommand :=
  ⟨fun _ _ _ => rfl, fun s hs => by rw [step, hs]⟩

/-- Settles O2: the commands with a condition answer a next state on either branch, every other does so at once. -/
theorem everyCommandAnswersNext : Obligations.EveryCommandAnswersNext := by
  intro c s
  cases c with
  | filteredTransition line => exact (ite_eq_or_eq _ _ _).elim (fun h => ⟨_, h⟩) (fun h => ⟨_, h⟩)
  | bothActiveTimerExpiry k => exact (ite_eq_or_eq _ _ _).elim (fun h => ⟨_, h⟩) (fun h => ⟨_, h⟩)
  | requestDiscarded bytes => exact (ite_eq_or_eq _ _ _).elim (fun h => ⟨_, h⟩) (fun h => ⟨_, h⟩)
  | ack cls index reasons => exact (ite_eq_or_eq _ _ _).elim (fun h => ⟨_, h⟩) (fun h => ⟨_, h⟩)
  | _ => exact ⟨_, rfl⟩

/-! ## What a request leaves in the link (R183, R185) -/

/-- Settles O6: a request that is not DONE has answered the state itself. -/
theorem refusedRequestChangesNothing : Obligations.RefusedRequestChangesNothing := by
  intro c s t hwf hc h hstatus
  obtain ⟨r, u, hserves, rfl⟩ := request_effect hwf hc h
  have hrefused : r.status ≠ .done := fun hdone => hstatus ((statusCode_injective _ _).mpr hdone)
  exact congrArg (fun z : State => { z with link := reply c r }) (hserves.refused hrefused)

/-- Settles O7: the link after a request is the reply, whose status is one of a request's. -/
theorem everyRequestIsAnswered : Obligations.EveryRequestIsAnswered := by
  intro c code s t hwf hc h
  obtain ⟨r, u, hserves, rfl⟩ := request_effect hwf (by simp [hc]) h
  refine ⟨by simp [reply, hc], rfl, by simp [reply, hc], fun hnone => ?_, by simp [reply, hc, responseOf]⟩
  exact hserves.responds ((statusCode_injective _ _).mp hnone)

/-- Settles O8: every body answers a payload that fits. -/
theorem responsePayloadFitsFrame : Obligations.ResponsePayloadFitsFrame := by
  intro c s t hwf hc h
  obtain ⟨r, u, hserves, rfl⟩ := request_effect hwf hc h
  exact hserves.fits

/-- Settles O20: a transfer without a good frame is discarded. -/
theorem discardedRequestKeepsResponse : Obligations.DiscardedRequestKeepsResponse := by
  intro bytes s h
  exact if_pos (by simp [h])

/-! ## The frames of requests (R181, R184) -/

/-- A code with an allowed length is one of the table's, so its length fits a byte. -/
theorem length_lt_of_allowed {code : Byte} {n : Nat} (h : lengthAllowed code n = true) : n < 256 := by
  unfold lengthAllowed at h
  split at h
  next lo hi hlens =>
    have hmem : (lo, hi) ∈ requestTable.map (fun r => r.2) := by
      obtain ⟨r, hr, heq⟩ := Option.map_eq_some_iff.mp hlens
      exact List.mem_map.mpr ⟨r, List.mem_of_find?_eq_some hr, heq⟩
    have hhi : ∀ x ∈ requestTable.map (fun r => r.2), x.2 < 256 := by decide
    have := hhi _ hmem
    simp only [Bool.and_eq_true, decide_eq_true_eq] at h
    omega
  · cases h

theorem codeListed_of_allowed {code : Byte} {n : Nat} (h : lengthAllowed code n = true) : codeListed code = true := by
  unfold lengthAllowed at h
  unfold codeListed
  split at h
  next hlens => simp [hlens]
  · cases h

theorem ofNat_length_toNat {code : Byte} {payload : List Byte} (h : lengthAllowed code payload.length = true) :
    (BitVec.ofNat 8 payload.length).toNat = payload.length := by
  rw [BitVec.toNat_ofNat]
  exact Nat.mod_eq_of_lt (length_lt_of_allowed h)

/-- The frame of an allowed code and payload, and whatever follows it, holds that frame (R181). -/
theorem goodFrame_requestFrame {code : Byte} {payload : List Byte} (h : lengthAllowed code payload.length = true)
    (rest : List Byte) : goodFrame (requestFrame code payload ++ rest) = some (code, payload) := by
  have hlen := ofNat_length_toNat h
  have hsplit : requestFrame code payload ++ rest =
      code :: BitVec.ofNat 8 payload.length ::
        (payload ++ crc8 (code :: BitVec.ofNat 8 payload.length :: payload) :: rest) := by
    simp [requestFrame]
  rw [hsplit]
  simp [goodFrame, hlen, h]

/-- Settles O19: a good frame is the code, the length, the payload and the check byte that the transfer begins with. -/
theorem goodFrameIsAPrefix : Obligations.GoodFrameIsAPrefix := by
  intro bytes code payload
  refine ⟨fun h => ?_, fun ⟨hallowed, rest, hbytes⟩ => hbytes ▸ goodFrame_requestFrame hallowed rest⟩
  obtain _ | ⟨code', _ | ⟨len, rest⟩⟩ := bytes
  · cases h
  · cases h
  simp only [goodFrame, Option.ite_none_right_eq_some, Bool.and_eq_true, decide_eq_true_eq, Option.some.injEq,
    Prod.mk.injEq] at h
  obtain ⟨⟨⟨hallowed, htaken⟩, hcheck⟩, rfl, hpayload⟩ := h
  obtain ⟨tail, htail⟩ := List.head?_eq_some_iff.mp hcheck
  have hlength : payload.length = len.toNat := by rw [← hpayload, htaken]
  have hlenByte : BitVec.ofNat 8 payload.length = len := by rw [hlength, BitVec.ofNat_toNat, BitVec.setWidth_eq]
  refine ⟨hlength ▸ hallowed, tail, ?_⟩
  calc code' :: len :: rest = code' :: len :: (rest.take len.toNat ++ rest.drop len.toNat) := by rw [List.take_append_drop]
    _ = requestFrame code' payload ++ tail := by simp [requestFrame, hlenByte, htail, hpayload]

theorem word16_extract (w : Word16) : word16 (w.extractLsb' 0 8) (w.extractLsb' 8 8) = w := by
  rw [word16, BitVec.extractLsb'_append_extractLsb'_eq_extractLsb' (by rfl)]
  exact BitVec.extractLsb'_eq_self

theorem word32_extract (w : Word32) :
    word32 (w.extractLsb' 0 8) (w.extractLsb' 8 8) (w.extractLsb' 16 8) (w.extractLsb' 24 8) = w := by
  rw [word32, BitVec.extractLsb'_append_extractLsb'_eq_extractLsb' (by rfl),
    BitVec.extractLsb'_append_extractLsb'_eq_extractLsb' (by rfl),
    BitVec.extractLsb'_append_extractLsb'_eq_extractLsb' (by rfl)]
  exact BitVec.extractLsb'_eq_self

/-- The payload of a request spells the request: its fields are cut into bytes and put together again. -/
theorem parseRequest_payloadOf {c : Instr} {code : Byte} (hc : codeOf c = some code) :
    parseRequest code (payloadOf c) = some c := by
  cases c with
  | hardwareReset | filteredTransition | bothActiveTimerExpiry | stallTimerExpiry | shortCut | absorptionEnd
  | throwTimeout | returnFailed | deadlineExpiry | requestDiscarded | ladderClockTick => cases hc
  | _ =>
    cases hc
    simp [parseRequest, payloadOf, PointFields.bytes, YardFields.bytes, le16, le32, word16_extract, word32_extract]

/-- The payload of a well-formed request has a length that R184 allows its code. -/
theorem lengthAllowed_payloadOf {c : Instr} {code : Byte} (hwf : WellFormed c = true) (hc : codeOf c = some code) :
    lengthAllowed code (payloadOf c).length = true := by
  cases c with
  | hardwareReset | filteredTransition | bothActiveTimerExpiry | stallTimerExpiry | shortCut | absorptionEnd
  | throwTimeout | returnFailed | deadlineExpiry | requestDiscarded | ladderClockTick => cases hc
  | ack cls index reasons =>
    cases hc
    simp only [WellFormed, Bool.and_eq_true, decide_eq_true_eq] at hwf
    simp only [payloadOf, List.length_cons, lengthAllowed_ack, Bool.and_eq_true, decide_eq_true_eq]
    omega
  | _ => cases hc; rfl

/-- Settles O17: the frame is good, and its payload is parsed back. -/
theorem requestFrameSpellsItsRequest : Obligations.RequestFrameSpellsItsRequest := by
  intro c frame hwf hframe
  obtain ⟨code, hc, rfl⟩ := Option.map_eq_some_iff.mp hframe
  have hgood := goodFrame_requestFrame (lengthAllowed_payloadOf hwf hc) []
  rw [List.append_nil] at hgood
  simp [commandOfTransfer, hgood, parseRequest_payloadOf hc]

/-! ## The receiver (R181) -/

/-- The receive buffer of a frame under way: code and length have come, with a part of the payload. -/
def receiving (code len : Byte) (part : List Byte) : ReceiveBuffer :=
  { code := some code, length := some len, payload := part, check := crc8 (code :: len :: part), reject := false,
    done := false }

/-- The rest of a payload and the check byte are acknowledged, and end the frame. -/
theorem receiveFrom_receiving {code len : Byte} (rest part : List Byte) (h : (part ++ rest).length = len.toNat) :
    receiveFrom (receiving code len part) (rest ++ [crc8 (code :: len :: (part ++ rest))]) =
      ({ receiving code len (part ++ rest) with done := true }, List.replicate (rest.length + 1) true) := by
  induction rest generalizing part with
  | nil =>
    rw [List.append_nil] at h
    have hexpects : (receiving code len part).expects = .check := by
      simp [receiving, ReceiveBuffer.expects, h]
    simp [receiveFrom, ReceiveBuffer.take, hexpects]
    rfl
  | cons b rest ih =>
    have hlt : part.length < len.toNat := by simp at h; omega
    have hexpects : (receiving code len part).expects = .payload := by
      simp [receiving, ReceiveBuffer.expects, hlt]
    have htake : (receiving code len part).take b = (receiving code len (part ++ [b]), true) := by
      simp only [ReceiveBuffer.take, hexpects]
      simp [receiving, crc8]
    have happend : part ++ b :: rest = part ++ [b] ++ rest := by simp
    rw [List.cons_append, receiveFrom, htake, happend, ih (part ++ [b]) (happend ▸ h)]
    simp [List.replicate_succ]

/-- Settles O18: the code and the length are acknowledged as R184 lists them, then the payload and the check byte. -/
theorem requestFrameIsAcknowledged : Obligations.RequestFrameIsAcknowledged := by
  intro c code hwf hc
  have hallowed := lengthAllowed_payloadOf hwf hc
  have hlen := ofNat_length_toNat hallowed
  have hcode : ReceiveBuffer.empty.take code =
      ({ ReceiveBuffer.empty with code := some code, check := crcByte 0xFF code }, true) := by
    simp [ReceiveBuffer.take, ReceiveBuffer.expects, ReceiveBuffer.empty, codeListed_of_allowed hallowed]
  have hlength : ({ ReceiveBuffer.empty with code := some code, check := crcByte 0xFF code } : ReceiveBuffer).take
      (BitVec.ofNat 8 (payloadOf c).length) = (receiving code (BitVec.ofNat 8 (payloadOf c).length) [], true) := by
    simp only [ReceiveBuffer.take, ReceiveBuffer.expects, ReceiveBuffer.empty, Bool.or_self, Bool.false_eq_true,
      if_false, Option.getD_some, hlen, hallowed, if_true]
    rfl
  have hrest := receiveFrom_receiving (code := code) (len := BitVec.ofNat 8 (payloadOf c).length) (payloadOf c) []
    hlen.symm
  rw [List.nil_append] at hrest
  simp only [receive, requestFrame, List.cons_append, receiveFrom, hcode, hlength, hrest]
  rfl

end Sys2Proof.Proofs
end


section
/-! PROOFS. The state after hardware reset (R13, R174, R180), the attention line (R178), hold markers (R102), the end of an
absorption (R100) and hump orders (R89). -/

namespace Sys2Proof.Proofs

open Sys2Proof Sys2Proof.Machine Sys2Proof.Spec

/-! ## The attention law (R178) -/

/-- The attention law reads the notice unit alone. -/
theorem attnLaw_of_agree {s t : State} (h : t.yard.notices = s.yard.notices) (hs : s.AttnLaw) : t.AttnLaw := by
  unfold State.AttnLaw
  rw [h]
  exact hs

theorem attnLaw_reset : State.reset.AttnLaw := by
  have hzero : ∀ cls, ¬ State.reset.yard.notices.raisedIn cls := by
    simp [State.reset, Yard.reset, Notices.reset, Notices.raisedIn, Notices.reasons]
  exact ⟨fun h => absurd h Bool.false_ne_true, fun ⟨_, cls, _, hraised⟩ => absurd hraised (hzero cls)⟩

theorem exec_keeps_attnLaw (c : Instr) (s t : State) (hs : s.AttnLaw) (h : exec c s = .next t) : t.AttnLaw := by
  obtain ⟨-, hreset⟩ | ⟨-, htick⟩ | hsame | ⟨y, hsettled⟩ := exec_yard_cases h
  · exact attnLaw_of_agree (congrArg Yard.notices hreset) attnLaw_reset
  · exact attnLaw_of_agree (htick ▸ rfl) hs
  · exact attnLaw_of_agree (congrArg Yard.notices hsame) hs
  · exact attnLaw_of_agree (congrArg Yard.notices hsettled) (attnLaw_withYard t y)

/-- Settles O10: a command leaves the notices, judges ATTN on them, or clears them. -/
theorem attnLawIsKept : Obligations.AttnLawIsKept :=
  step_keeps_of_exec_keeps (fun _ _ h => attnLaw_of_agree rfl h) exec_keeps_attnLaw

/-! ## The state after hardware reset -/

@[simp] theorem reset_sectionOf (sid : SectionId) : Yard.reset.sectionOf sid = none := by
  cases sid <;> simp [Yard.reset, Yard.sectionOf]

@[simp] theorem reset_pointOf (p : PointIx) : Yard.reset.pointOf p = none := by simp [Yard.reset, Yard.pointOf]

@[simp] theorem reset_planOf (q : PointIx) : Yard.reset.planOf q = none := by simp [Yard.reset, Yard.planOf]

@[simp] theorem reset_queueOf (q : PointIx) : Yard.reset.queueOf q = [] := by simp [Yard.reset, Yard.queueOf]

@[simp] theorem reset_cutAt (i : SlotIx) : Yard.reset.cutAt i = none := by simp [Yard.reset, Yard.cutAt]

@[simp] theorem reset_drive (d : Fin 80) : Table.look Yard.reset.drive d = false := by simp [Yard.reset]

theorem slotLaw_reset : State.reset.SlotLaw := by
  refine ⟨?_, by decide, fun _ => reset_pointOf⟩
  simp [State.reset, Yard.inMotionPoints, Yard.pointInMotion]
  rfl

theorem countLaw_reset : State.reset.CountLaw := by
  refine ⟨fun sid x hx => ?_, ?_, ?_, ?_⟩
  · simp [State.reset] at hx
  all_goals
    simp [State.reset, Yard.sectionsWith, Yard.pointStateOf]
    rfl

theorem setupLaw_reset : State.reset.SetupLaw := fun _ =>
  ⟨reset_sectionOf, reset_pointOf, reset_planOf, reset_queueOf, rfl, fun h => by simp [State.reset, Head.off],
    reset_drive⟩

/-- Settles O16: after reset every table is empty and every count is 0. -/
theorem resetMeetsEveryLaw : Obligations.ResetMeetsEveryLaw := by
  refine ⟨permitLaw_reset, attnLaw_reset, fun p l => ?_, fun p hp => ?_, slotLaw_reset, fun t => ?_, countLaw_reset,
    setupLaw_reset⟩
  · simp [State.reset, Yard.pointStateOf]
  · simp [State.reset, Yard.pointInMotion] at hp
  · simp [State.reset, Yard.share]
    simp [Yard.reset, Yard.trackOf]

/-- Settles O21: the straps are the two-bit number of their levels. -/
theorem hardwareResetRestoresResetState : Obligations.HardwareResetRestoresResetState := by
  intro adr1 adr0 s
  refine ⟨BitVec.ofNat 2 (2 * (if adr1 then 1 else 0) + (if adr0 then 1 else 0)), ?_, rfl⟩
  cases adr1 <;> cases adr0 <;> rfl

/-- Settles O22: field by field. -/
theorem resetStateHoldsGivenValues : Obligations.ResetStateHoldsGivenValues := by
  have hreasons : ∀ k, Notices.reset.reasons k = 0 := by
    intro k
    cases k <;> simp [Notices.reset, Notices.reasons]
  refine ⟨rfl, fun p => ?_, rfl, fun i => ?_, fun h => ?_, reset_sectionOf, reset_queueOf, reset_planOf, fun i => ?_, rfl,
    rfl, fun t => ?_, fun w => ?_, fun m => ?_, reset_pointOf, reset_drive, rfl, rfl, rfl, hreasons, fun c => ?_, rfl, rfl,
    rfl, rfl, rfl, rfl, rfl, rfl, rfl⟩
  · simp [State.reset, Ladder.reset, Ladder.config]
  · simp [State.reset, Line.reset]
  · simp [State.reset, Head.off]
  all_goals simp [State.reset, Yard.reset, Yard.trackOf, Notices.reset]

/-! ## Hold markers and the end of an absorption (R100, R102) -/

@[simp] theorem isIdle_iff (c : Crest) : c.isIdle = true ↔ c.state = .idle := by
  unfold Crest.isIdle
  split <;> simp_all

theorem judgeMarker_of_idle {y : Yard} {i : SlotIx} {rest : List SlotIx} {n : Word16} (hlist : y.pendingList = i :: rest)
    (hold : Table.look y.slots i = some (.hold n false)) (hidle : y.crest.state = .idle) :
    y.judgeMarker = (y.putSlot i (some (.hold n true))).raise .device 2 := by
  simp [Yard.judgeMarker, hlist, hold, hidle]
  rfl

theorem judgeMarker_of_busy {y : Yard} (hbusy : y.crest.state ≠ .idle) : y.judgeMarker = y := by
  unfold Yard.judgeMarker
  repeat' split
  all_goals simp_all

theorem judgeMarker_of_other {y : Yard} {i : SlotIx} {rest : List SlotIx} (hlist : y.pendingList = i :: rest)
    (hother : ∀ n, Table.look y.slots i ≠ some (.hold n false)) : y.judgeMarker = y := by
  simp only [Yard.judgeMarker, hlist, List.head?_cons]

/-- Settles O34: the three cases of the head of the list. -/
theorem markerIsReachedWithIdleCrest : Obligations.MarkerIsReachedWithIdleCrest := fun _ _ _ hlist =>
  ⟨fun _ hold hidle => judgeMarker_of_idle hlist hold hidle, judgeMarker_of_busy, judgeMarker_of_other hlist⟩

theorem gapExpired_of_timer {c : Crest} {now : Instant} {g : GapTimer} (hg : c.timer = some g)
    (hexp : atOrAfter now g.expiry = true ∨ g.longAgo = true) : c.gapExpired now = true := by
  simp only [Crest.gapExpired, hg, Bool.or_eq_true]
  exact hexp.symm

/-- Settles O33: the timer has expired in ABSORBING. -/
theorem absorptionEndsOnExpiry : Obligations.AbsorptionEndsOnExpiry := by
  intro s slot x g hstate hg hexp
  have hexpired := gapExpired_of_timer hg hexp
  have hend : s.yard.absorptionEnd s.env = s.yard.endAbsorption := by
    simp [Yard.absorptionEnd, hstate, State.env, hexpired]
  exact congrArg (fun y => Host.Outcome.next (s.withYard y)) hend

/-! ## Hump orders (R89) -/

/-- The search for a free order passes over held values, and ends at a free one unless its steps are used up. -/
theorem freeOrder_spec (y : Yard) (k : Nat) (n : Word32) :
    ∃ j ≤ k, y.freeOrder k n = n + BitVec.ofNat 32 j ∧ (∀ i < j, y.orderHeld (n + BitVec.ofNat 32 i) = true) ∧
      (j < k → y.orderHeld (y.freeOrder k n) = false) := by
  induction k generalizing n with
  | zero => exact ⟨0, le_rfl, by simp [Yard.freeOrder], fun i hi => absurd hi (Nat.not_lt_zero i), fun h => absurd h (lt_irrefl _)⟩
  | succ k ih =>
    unfold Yard.freeOrder
    split
    next held =>
      obtain ⟨j, hj, heq, hheld, hfree⟩ := ih (n + 1)
      have hshift : ∀ i, n + 1 + BitVec.ofNat 32 i = n + BitVec.ofNat 32 (i + 1) := by
        intro i
        rw [BitVec.add_assoc, BitVec.add_comm 1, BitVec.ofNat_add]
        rfl
      refine ⟨j + 1, Nat.succ_le_succ hj, by rw [heq, hshift], fun i hi => ?_, fun h => hfree (Nat.lt_of_succ_lt_succ h)⟩
      cases i with
      | zero => simpa using held
      | succ i => exact hshift i ▸ hheld i (Nat.lt_of_succ_lt_succ hi)
    next free => exact ⟨0, Nat.zero_le _, by simp, fun i hi => absurd hi (Nat.not_lt_zero i), fun _ => by simpa using free⟩

/-- A held order is held by some slot. -/
theorem orderHeld_iff {y : Yard} {n : Word32} :
    y.orderHeld n = true ↔ ∃ i, (y.startedAt i).map (fun x => x.order) = some n := by
  simp [Yard.orderHeld]

/-- 64 slots hold no 65 orders in a row. -/
theorem orders_not_all_held (y : Yard) (n : Word32) : ¬ ∀ i < 65, y.orderHeld (n + BitVec.ofNat 32 i) = true := by
  intro hall
  choose slot hslot using fun i : Fin 65 => orderHeld_iff.mp (hall i.val i.isLt)
  obtain ⟨a, b, hne, hsame⟩ := Fintype.exists_ne_map_eq_of_card_lt slot (by simp)
  have heq := hslot a
  rw [hsame, hslot b, Option.some.injEq, BitVec.add_right_inj] at heq
  have hval := congrArg BitVec.toNat heq
  simp only [BitVec.toNat_ofNat] at hval
  exact hne (Fin.ext (by omega))

/-- Settles O36: the search stops before its 65 steps are used up. -/
theorem humpOrderPassesOverHeldValues : Obligations.HumpOrderPassesOverHeldValues := by
  intro y n
  obtain ⟨j, hj, heq, hheld, hfree⟩ := freeOrder_spec y 65 n
  have hlt : j < 65 := lt_of_le_of_ne hj fun h => orders_not_all_held y n (h ▸ hheld)
  refine ⟨hfree hlt, fun k hk => hheld k ?_⟩
  rw [heq, BitVec.add_comm, BitVec.add_sub_cancel, BitVec.toNat_ofNat] at hk
  exact hk.trans_le (Nat.mod_le _ _)

end Sys2Proof.Proofs
end


section
/-! PROOFS. The mode changes only as tabled (R162), and which commands can change the clock, the straps, the raw levels, the
configuration, the lines, the heads and the link. -/

namespace Sys2Proof.Proofs

open Sys2Proof Sys2Proof.Machine Sys2Proof.Spec

/-! ## The mode (R162) -/

/-- The mode stays or a hump halts. -/
def HaltsAtMost (y z : Yard) : Prop :=
  z.control.mode = y.control.mode ∨ (y.control.mode = .humping ∧ z.control.mode = .halted)

variable {x y z : Yard}

theorem haltsAtMost_of_control (h : z.control = y.control) : HaltsAtMost y z := .inl (by rw [h])

theorem HaltsAtMost.trans (h : HaltsAtMost x y) (k : HaltsAtMost y z) : HaltsAtMost x z := by
  rcases h with h | ⟨hx, hy⟩ <;> rcases k with k | ⟨ky, kz⟩ <;> simp_all [HaltsAtMost]

theorem haltsAtMost_of_standing (h : z.standing = y.standing) : HaltsAtMost y z := (Yard.Runs.of_standing h).mode

theorem haltsAtMost_enterCause (c : HaltCause) (y : Yard) : HaltsAtMost y (y.enterCause c) :=
  (Yard.Runs.enterCause c (.refl y)).mode

theorem haltsAtMost_reportStop (active : Bool) (y : Yard) : HaltsAtMost y (y.reportStop active) := by
  unfold Yard.reportStop
  dsimp only
  repeat' split
  · exact .inl rfl
  · exact haltsAtMost_enterCause .stopInput (y.modifyControl (fun m => { m with stopFlag := active }))
  · exact .inl rfl

theorem standing_evaluateHeads (e : Env) (y : Yard) : (y.evaluateHeads e).standing = y.standing := by
  unfold Yard.evaluateHeads
  generalize List.finRange 40 = l
  induction l generalizing y with
  | nil => rfl
  | cons q l ih =>
    rw [List.foldl_cons, ih]
    split
    · rfl
    · exact Yard.standing_evaluate e q y

theorem haltsAtMost_reportFreeze (e : Env) (active : Bool) (y : Yard) : HaltsAtMost y (y.reportFreeze e active) := by
  unfold Yard.reportFreeze
  repeat' split
  · exact .inl rfl
  · exact haltsAtMost_enterCause .freeze
      ((y.modifyControl (fun m => { m with freezeFlag := true })).raiseDevice .freezeOn)
  · unfold Yard.freezeEnd
    dsimp only
    split
    · exact .inl rfl
    · exact haltsAtMost_of_standing (y := (y.modifyControl (fun m => { m with freezeFlag := false })).raiseDevice .freezeOff)
        (by rw [standing_evaluateHeads, Yard.standing_arbitrate])

variable {s u : State} {c : Instr}

/-- An event leads to a yard whose mode is the state's own or HALTED after HUMPING. -/
theorem allowed_of_halts {y : Yard} (h : HaltsAtMost s.yard y) : modeChangeAllowed c s.mode (s.withYard y).mode := by
  rcases h with h | ⟨hbefore, hafter⟩
  · exact .inl h.symm
  · exact .inr (.inl ⟨hbefore, hafter⟩)

theorem takeTransitions_mode (k : Consumer) : HaltsAtMost s.yard (s.takeTransitions k).yard := by
  cases k with
  | head h => exact (Yard.Follows.headEvent s.env h _ (.refl s.yard)).mode
  | point p => exact (Yard.Runs.detectionChange s.env p _ _ (.refl s.yard)).mode
  | stop => exact haltsAtMost_reportStop _ _
  | freeze => exact haltsAtMost_reportFreeze _ _ _
  | nobody => exact .inl rfl

theorem startupYard_mode (s : State) : (startupYard s).control.mode = .standby := by
  have hraise : ∀ (l : List PointIx) (y : Yard), (l.foldl (fun z p => z.raisePoint p .lost) y).control = y.control := by
    intro l
    induction l with
    | nil => exact fun _ => rfl
    | cons p l ih => exact fun y => ih (y.raisePoint p .lost)
  exact congrArg ModeControl.mode (hraise _ _)

theorem judgeMarker_control (y : Yard) : y.judgeMarker.control = y.control := by
  unfold Yard.judgeMarker
  repeat' split
  all_goals rfl

theorem append_control (i : SlotIx) (r : Record) (y : Yard) : (y.append i r).control = y.control := by
  unfold Yard.append
  dsimp only
  split
  · exact judgeMarker_control _
  · rfl

theorem withdrawSlot_control (i : SlotIx) (y : Yard) : (y.withdrawSlot i).control = y.control := by
  unfold Yard.withdrawSlot
  dsimp only
  split
  · exact judgeMarker_control _
  · rfl

theorem restorePoint_mode (e : Env) (p : PointIx) (b : Bool) (l : Leg) (y : Yard) :
    HaltsAtMost y (y.restorePoint e p b l) := by
  unfold Yard.restorePoint
  dsimp only
  split
  · exact (Yard.Runs.evaluate e p (.reportRestored (.setPointState p (.proved l) (.refl y)))).mode
  · exact (Yard.Runs.evaluate e p (.setPointState p (.proved l) (.refl y))).mode

theorem afterReset_runs (e : Env) (sid : SectionId) (x : Section) (y : Yard) : y.Runs (y.afterReset e sid x) := by
  have hloss : y.Runs ((x.occupants.map (fun o => o.slot)).foldl (fun z i => z.loseCut e i) (y.putSection sid (some x.cleared))) :=
    .foldl _ (fun _ i hz => .loseCut e i hz) _ (.putSection _ _ (.refl y))
  have htold : y.Runs (((x.occupants.map (fun o => o.slot)).foldl (fun z i => z.loseCut e i)
      (y.putSection sid (some x.cleared))).toldClear e sid) := by
    cases sid with
    | lead => exact hloss
    | point p => exact .evaluate _ _ hloss
  unfold Yard.afterReset Yard.resetSection
  dsimp only
  repeat' split
  · exact .refl y
  · exact .reportUnstalled (.reportUndisturbed htold)
  · exact .reportUnstalled htold
  · exact .reportUndisturbed htold
  · exact htold

/-- Every effect changes the mode as R162 gives. -/
theorem Effect.mode_allowed (h : Effect s c u) : modeChangeAllowed c s.mode u.mode := by
  cases h with
  | transition line _ => exact (takeTransitions_mode _).elim (fun h => .inl h.symm) (fun h => .inr (.inl h))
  | bothActive k _ => exact allowed_of_halts (Yard.Runs.headFault s.env k (.refl _)).mode
  | stall sid => exact allowed_of_halts (Yard.Runs.stallExpired s.env sid (.refl _)).mode
  | shortCut => exact allowed_of_halts (Yard.Follows.shortCut s.env (.refl _)).mode
  | absorptionEnd => exact allowed_of_halts (Yard.Follows.absorptionEnd s.env (.refl _)).mode
  | throwTimeout p => exact allowed_of_halts (haltsAtMost_of_standing (Yard.standing_throwTimeout _ _ _))
  | returnFailed p => exact allowed_of_halts (Yard.Runs.returnFailed s.env p (.refl _)).mode
  | deadlineExpiry p => exact allowed_of_halts (haltsAtMost_of_standing (Yard.standing_deadlineExpiry _ _ _))
  | setLine => exact allowed_of_halts ((haltsAtMost_reportStop _ _).trans (haltsAtMost_reportFreeze _ _ _))
  | commission hm _ => exact .inr (.inr (.inr (.inl ⟨rfl, hm, startupYard_mode s⟩)))
  | decommission hm _ =>
    exact .inr (.inr (.inr (.inr (.inl ⟨rfl, hm, congrArg ModeControl.mode (judgeMarker_control _)⟩))))
  | start hm => exact .inr (.inr (.inr (.inr (.inr (.inl ⟨rfl, hm, rfl⟩)))))
  | resume hm => exact .inr (.inr (.inr (.inr (.inr (.inr (.inl ⟨rfl, hm, rfl⟩))))))
  | stop _ => exact allowed_of_halts (haltsAtMost_enterCause _ _)
  | finish hm => exact .inr (.inr (.inr (.inr (.inr (.inr (.inr ⟨rfl, hm, rfl⟩))))))
  | enter | hold => exact allowed_of_halts (haltsAtMost_of_control (append_control _ _ _))
  | amendPending => exact allowed_of_halts (haltsAtMost_of_standing (Yard.standing_modifyCut _ _ _))
  | amendStarted => exact allowed_of_halts (haltsAtMost_of_standing (Yard.standing_amendStarted _ _ _ _ _ _ _))
  | withdraw => exact allowed_of_halts (haltsAtMost_of_control (withdrawSlot_control _ _))
  | throwInPosition => exact allowed_of_halts (haltsAtMost_of_standing (Yard.standing_throwInPosition _ _ _ _))
  | throwPlaced => exact allowed_of_halts (haltsAtMost_of_standing (Yard.standing_throwPlaced _ _ _ _))
  | bar => exact allowed_of_halts (haltsAtMost_of_standing (Yard.standing_bar _ _ _))
  | unbar => exact allowed_of_halts (haltsAtMost_of_standing (by simp))
  | restore => exact allowed_of_halts (restorePoint_mode _ _ _ _ _)
  | resetSection _ sid x => exact allowed_of_halts (afterReset_runs s.env sid x s.yard).mode
  | same | setPoint | setYard | retire | setMap | setWindow | setTrack | setFill | pull | ack | setAttention =>
    exact .inl rfl

/-- Settles O5: a reset gives SETUP, a tick leaves the mode, and of the other commands every effect is in the table. -/
theorem modeChangesOnlyAsTabled : Obligations.ModeChangesOnlyAsTabled := by
  intro c s t h
  by_cases hreset : IsReset c
  · obtain ⟨adr1, adr0, rfl⟩ := hreset
    cases h
    exact .inr (.inr (.inl ⟨adr1, adr0, rfl, rfl⟩))
  by_cases htick : IsTick c
  · obtain ⟨raw, rfl⟩ := htick
    cases h
    exact .inl rfl
  obtain ⟨u, hu, ht⟩ := exec_effect hreset htick h
  have hmode : t.mode = u.mode := by rw [ht]; rfl
  exact hmode ▸ hu.mode_allowed

/-! ## Clock, straps, raw levels, configuration, lines and heads -/

/-- What an effect of a command changes beside the yard and the link: no clock, strap or raw level; the configuration, the
lines and the heads only by the commands named. -/
structure KeepsUnits (s : State) (c : Instr) (u : State) : Prop where
  pending : u.pending = s.pending
  clock : u.clock = s.clock
  straps : u.straps = s.straps
  raw : u.raw = s.raw
  ladder : u.ladder = s.ladder ∨ (∃ f, c = .setPoint f) ∨ ∃ f, c = .setYard f
  lines : u.lines = s.lines ∨ IsTransition c ∨ ∃ l k i a f, c = .setLine l k i a f
  heads : u.heads = s.heads ∨ HeadCommand c

/-- A change of the yard alone. -/
theorem keepsUnits_withYard (y : Yard) : KeepsUnits s c (s.withYard y) := ⟨rfl, rfl, rfl, rfl, .inl rfl, .inl rfl, .inl rfl⟩

theorem takeTransitions_keepsUnits (line : LineIx) (k : Consumer) :
    KeepsUnits s (.filteredTransition line) (s.takeTransitions k) := by
  have hline : IsTransition (.filteredTransition line) := ⟨line, rfl⟩
  cases k <;> exact ⟨rfl, rfl, rfl, rfl, .inl rfl, .inr (.inl hline), .inr (.inr (.inl hline))⟩

theorem Effect.keepsUnits (h : Effect s c u) : KeepsUnits s c u := by
  cases h with
  | same => exact ⟨rfl, rfl, rfl, rfl, .inl rfl, .inl rfl, .inl rfl⟩
  | transition line _ => exact takeTransitions_keepsUnits line _
  | bothActive k _ => exact ⟨rfl, rfl, rfl, rfl, .inl rfl, .inl rfl, .inr (.inr (.inr (.inl ⟨k, rfl⟩)))⟩
  | setPoint f => exact ⟨rfl, rfl, rfl, rfl, .inr (.inl ⟨f, rfl⟩), .inl rfl, .inl rfl⟩
  | setYard f => exact ⟨rfl, rfl, rfl, rfl, .inr (.inr ⟨f, rfl⟩), .inl rfl, .inl rfl⟩
  | setLine => exact ⟨rfl, rfl, rfl, rfl, .inl rfl, .inr (.inr ⟨_, _, _, _, _, rfl⟩), .inl rfl⟩
  | commission => exact ⟨rfl, rfl, rfl, rfl, .inl rfl, .inl rfl, .inr (.inr (.inr (.inr (.inl rfl))))⟩
  | decommission => exact ⟨rfl, rfl, rfl, rfl, .inl rfl, .inl rfl, .inr (.inr (.inr (.inr (.inr (.inl rfl)))))⟩
  | resetSection selector =>
    exact ⟨rfl, rfl, rfl, rfl, .inl rfl, .inl rfl, .inr (.inr (.inr (.inr (.inr (.inr ⟨selector, rfl⟩)))))⟩
  | _ => exact keepsUnits_withYard _

/-- Only a request and a discarded transfer change the link. -/
theorem link_changes_by_transfer {t : State} (hreset : ¬ IsReset c) (htick : ¬ IsTick c) (h : exec c s = .next t)
    (hlink : t.link ≠ s.link) : (∃ bytes, c = .requestDiscarded bytes) ∨ (codeOf c).isSome = true := by
  cases hc : codeOf c with
  | some code => exact .inr rfl
  | none =>
    obtain ⟨-, -, -, hkept⟩ := event_effect hreset htick hc h
    exact .inl (not_forall_not.mp fun hne => hlink (hkept hne))

/-- Settles O3: a reset keeps the raw levels and the queue, a tick changes the heads only in the mark longAgo, and every
other command keeps its units. -/
theorem commandsChangeOnlyTheirUnits : Obligations.CommandsChangeOnlyTheirUnits := by
  intro c s t h
  by_cases hreset : IsReset c
  · have hhead : HeadCommand c := .inl hreset
    refine ⟨?_, fun _ => .inl hreset, fun _ => hreset, fun hraw => absurd ?_ hraw, fun _ => .inl hreset,
      fun _ => .inl hreset, fun _ => hhead, fun _ => .inr hhead, fun _ => .inl hreset⟩
    all_goals
      obtain ⟨adr1, adr0, rfl⟩ := hreset
      cases h
      rfl
  by_cases htick : IsTick c
  · have hticks := htick
    obtain ⟨raw, rfl⟩ := htick
    cases h
    refine ⟨rfl, fun _ => .inr hticks, fun hne => absurd rfl hne, fun _ => hticks, fun hne => absurd rfl hne,
      fun _ => .inr (.inl hticks), fun ⟨k, hk⟩ => absurd ?_ hk, fun _ => .inl hticks, fun hne => absurd rfl hne⟩
    simp [bare, Head.tick]
  obtain ⟨u, hu, ht⟩ := exec_effect hreset htick h
  have ⟨hpending, hclock, hstraps, hraw, hladder, hlines, hheads⟩ := hu.keepsUnits
  have hlink := link_changes_by_transfer hreset htick h
  rw [ht] at hlink ⊢
  dsimp only at hlink ⊢
  refine ⟨hpending, fun hne => absurd hclock hne, fun hne => absurd hstraps hne, fun hne => absurd hraw hne,
    fun hne => .inr (hladder.resolve_left hne), fun hne => ?_, fun ⟨k, hk⟩ => ?_,
    fun hne => .inr (hheads.resolve_left hne), fun hne => .inr (hlink hne)⟩
  · exact (hlines.resolve_left hne).elim (fun hl => .inr (.inr (.inl hl))) (fun hl => .inr (.inr (.inr hl)))
  · exact hheads.resolve_left fun heq => hk (by rw [heq])

end Sys2Proof.Proofs
end


section
/-! SUPPORT. What marking sections DISTURBED makes of a yard (R55), said once for a list of sections, and that striking a
cut from the lists of sections about to be marked leaves no trace (R57). -/

namespace Sys2Proof.Proofs

open Sys2Proof Sys2Proof.Machine Sys2Proof.Spec

/-- Two yards that agree in every section and every other field are one. -/
theorem yard_ext {y z : Yard} (hsection : ∀ sid, z.sectionOf sid = y.sectionOf sid) (hqueues : z.queues = y.queues)
    (hslots : z.slots = y.slots) (hlist : z.pendingList = y.pendingList) (hcrest : z.crest = y.crest)
    (htracks : z.tracks = y.tracks) (hwindows : z.windows = y.windows) (hmap : z.blockMap = y.blockMap)
    (hpoints : z.points = y.points) (hdrive : z.drive = y.drive) (hinUse : z.slotsInUse = y.slotsInUse)
    (hwaiting : z.waiting = y.waiting) (hplans : z.plans = y.plans) (hcontrol : z.control = y.control)
    (hnotices : z.notices = y.notices) : z = y := by
  have hlead : z.lead = y.lead := hsection .lead
  have hsections : z.sections = y.sections := Table.ext_look fun p => hsection (.point p)
  cases y
  cases z
  simp_all

/-- A section record as its disturbance leaves it (R55). -/
def disturbedRecord (cause : DisturbCause) (x : Section) : Section :=
  { x with state := .disturbed, cause := some cause, stallTimer := none, stallFlag := false, occupants := [] }

/-- The section exists with its stall flag set. -/
def stallSet (y : Yard) (sid : SectionId) : Bool := ((y.sectionOf sid).map (fun x => x.stallFlag)) == some true

theorem sectionOf_congr_modifyControl (f : ModeControl → ModeControl) (y : Yard) (sid : SectionId) :
    (y.modifyControl f).sectionOf sid = y.sectionOf sid := by cases sid <;> rfl

theorem sectionOf_clearStallFlag (sid sid' : SectionId) (y : Yard) :
    (y.clearStallFlag sid).sectionOf sid' =
      if sid = sid' then (y.sectionOf sid').map (fun x => { x with stallFlag := false }) else y.sectionOf sid' := by
  unfold Yard.clearStallFlag
  split
  next x hx =>
    split
    · rw [Yard.reportUnstalled, sectionOf_congr_modifyControl, Yard.sectionOf_putSection]
      split
      next e => subst e; simp [hx]
      · rfl
    next hflag =>
      split
      next e =>
        subst e
        have hclear : x.stallFlag = false := by simpa using hflag
        rw [hx, Option.map_some, ← hclear]
      · rfl
  next hx =>
    split
    next e => subst e; simp [hx]
    · rfl

theorem control_clearStallFlag (sid : SectionId) (y : Yard) :
    (y.clearStallFlag sid).control =
      { y.control with stall := y.control.stall - (if stallSet y sid then 1 else 0) } := by
  unfold Yard.clearStallFlag stallSet
  split
  next x hx =>
    split
    next hflag => simp [Yard.reportUnstalled, Yard.modifyControl, hx, hflag]
    next hflag => simp [hx, hflag]
  next hx => simp [hx]

theorem sectionOf_markDisturbed (cause : DisturbCause) (sid sid' : SectionId) (y : Yard) :
    (y.markDisturbed cause sid).sectionOf sid' =
      if sid = sid' then (y.sectionOf sid').map (disturbedRecord cause) else y.sectionOf sid' := by
  rw [Yard.markDisturbed, Yard.sectionOf_modifySection, sectionOf_clearStallFlag]
  split
  · simp only [Option.map_map, Function.comp_def]
    rfl
  · rfl

theorem control_markDisturbed (cause : DisturbCause) (sid : SectionId) (y : Yard) :
    (y.markDisturbed cause sid).control =
      { y.control with stall := y.control.stall - (if stallSet y sid then 1 else 0) } := by
  simp [Yard.markDisturbed, control_clearStallFlag]

theorem sectionOf_removeOccupant (sid sid' : SectionId) (i : SlotIx) (y : Yard) :
    (y.removeOccupant sid i).sectionOf sid' =
      if sid = sid' then
        (y.sectionOf sid').map (fun x => { x with occupants := x.occupants.filter (fun o => !(o.slot == i)) })
      else y.sectionOf sid' := by
  rw [Yard.removeOccupant, Yard.sectionOf_modifySection]

/-! ## Lists of sections -/

/-- The sections of a list are marked one after the other. -/
def markAll (cause : DisturbCause) (l : List SectionId) (y : Yard) : Yard :=
  l.foldl (fun z sid => z.markDisturbed cause sid) y

/-- A cut is struck from the lists of the sections of a list. -/
def strikeAll (i : SlotIx) (l : List SectionId) (y : Yard) : Yard :=
  l.foldl (fun z sid => z.removeOccupant sid i) y

theorem sectionOf_markAll (cause : DisturbCause) (l : List SectionId) (y : Yard) (sid : SectionId) :
    (markAll cause l y).sectionOf sid =
      if sid ∈ l then (y.sectionOf sid).map (disturbedRecord cause) else y.sectionOf sid := by
  induction l generalizing y with
  | nil => rfl
  | cons s l ih =>
    rw [markAll, List.foldl_cons, ← markAll, ih, sectionOf_markDisturbed]
    by_cases hs : s = sid
    · subst hs
      cases y.sectionOf s <;> simp [disturbedRecord]
    · simp [hs, Ne.symm hs]

theorem stallSet_markDisturbed_of_ne {cause : DisturbCause} {s sid : SectionId} (h : s ≠ sid) (y : Yard) :
    stallSet (y.markDisturbed cause s) sid = stallSet y sid := by
  simp [stallSet, sectionOf_markDisturbed, h]

theorem control_markAll (cause : DisturbCause) {l : List SectionId} (hl : l.Nodup) (y : Yard) :
    (markAll cause l y).control =
      { y.control with stall := y.control.stall - (l.filter (stallSet y)).length } := by
  induction l generalizing y with
  | nil => rfl
  | cons s l ih =>
    obtain ⟨hs, hl⟩ := List.nodup_cons.mp hl
    have hsame : l.filter (stallSet (y.markDisturbed cause s)) = l.filter (stallSet y) :=
      List.filter_congr fun sid hsid => stallSet_markDisturbed_of_ne (fun heq => hs (by rwa [heq])) y
    rw [markAll, List.foldl_cons, ← markAll, ih hl, hsame, control_markDisturbed]
    cases h : stallSet y s <;> simp [h, Nat.sub_sub, Nat.add_comm]

theorem sectionOf_strikeAll (i : SlotIx) (l : List SectionId) (y : Yard) (sid : SectionId) :
    (strikeAll i l y).sectionOf sid =
      if sid ∈ l then
        (y.sectionOf sid).map (fun x => { x with occupants := x.occupants.filter (fun o => !(o.slot == i)) })
      else y.sectionOf sid := by
  induction l generalizing y with
  | nil => rfl
  | cons s l ih =>
    rw [strikeAll, List.foldl_cons, ← strikeAll, ih, sectionOf_removeOccupant]
    by_cases hs : s = sid
    · subst hs
      cases y.sectionOf s <;> simp
    · simp [hs, Ne.symm hs]

/-- The fields of a yard that hold no section and no count: what marking and striking leave alone. -/
structure Aside where
  queues : Table 40 (List QueueEntry)
  slots : Table 64 (Option Record)
  pendingList : List SlotIx
  crest : Crest
  tracks : Table 41 Track
  windows : Table 4 Window
  blockMap : Table 32 (Option MapEntry)
  points : Table 40 (Option Point)
  drive : Table 80 Bool
  slotsInUse : Nat
  waiting : List Waiting
  plans : Table 40 (Option Plan)
  notices : Notices

/-- The part of a yard beside its sections and its mode controller. -/
def aside (y : Yard) : Aside :=
  { queues := y.queues, slots := y.slots, pendingList := y.pendingList, crest := y.crest, tracks := y.tracks,
    windows := y.windows, blockMap := y.blockMap, points := y.points, drive := y.drive, slotsInUse := y.slotsInUse,
    waiting := y.waiting, plans := y.plans, notices := y.notices }

theorem yard_ext_aside {y z : Yard} (hsection : ∀ sid, z.sectionOf sid = y.sectionOf sid)
    (hcontrol : z.control = y.control) (h : aside z = aside y) : z = y := by
  simp only [aside, Aside.mk.injEq] at h
  obtain ⟨h1, h2, h3, h4, h5, h6, h7, h8, h9, h10, h11, h12, h13⟩ := h
  exact yard_ext hsection h1 h2 h3 h4 h5 h6 h7 h8 h9 h10 h11 h12 hcontrol h13

theorem aside_markDisturbed (cause : DisturbCause) (sid : SectionId) (y : Yard) :
    aside (y.markDisturbed cause sid) = aside y := by
  simp [aside, Yard.markDisturbed]

theorem aside_removeOccupant (sid : SectionId) (i : SlotIx) (y : Yard) : aside (y.removeOccupant sid i) = aside y := by
  simp [aside]

theorem aside_markAll (cause : DisturbCause) (l : List SectionId) (y : Yard) : aside (markAll cause l y) = aside y := by
  induction l generalizing y with
  | nil => rfl
  | cons s l ih => rw [markAll, List.foldl_cons, ← markAll, ih, aside_markDisturbed]

theorem aside_strikeAll (i : SlotIx) (l : List SectionId) (y : Yard) : aside (strikeAll i l y) = aside y := by
  induction l generalizing y with
  | nil => rfl
  | cons s l ih => rw [strikeAll, List.foldl_cons, ← strikeAll, ih, aside_removeOccupant]

theorem control_strikeAll (i : SlotIx) (l : List SectionId) (y : Yard) : (strikeAll i l y).control = y.control := by
  induction l generalizing y with
  | nil => rfl
  | cons s l ih => rw [strikeAll, List.foldl_cons, ← strikeAll, ih, Yard.removeOccupant_control]

theorem stallSet_strikeAll (i : SlotIx) (l : List SectionId) (y : Yard) : stallSet (strikeAll i l y) = stallSet y := by
  funext sid
  unfold stallSet
  rw [sectionOf_strikeAll]
  split
  · cases y.sectionOf sid <;> rfl
  · rfl

theorem sectionState_strikeAll (i : SlotIx) (l : List SectionId) (y : Yard) (sid : SectionId) :
    (strikeAll i l y).sectionState sid = y.sectionState sid := by
  unfold Yard.sectionState
  rw [sectionOf_strikeAll]
  split
  · cases y.sectionOf sid <;> rfl
  · rfl

theorem trusted_strikeAll (i : SlotIx) (l : List SectionId) (y : Yard) (sid : SectionId) :
    (strikeAll i l y).trusted sid = y.trusted sid := by
  simp [Yard.trusted, sectionState_strikeAll]

/-- Marking a section empties its list, so a cut need be struck only from the sections that are not marked. -/
theorem markAll_strikeAll (cause : DisturbCause) (i : SlotIx) {l held : List SectionId} (hl : l.Nodup) (y : Yard) :
    markAll cause l (strikeAll i held y) = markAll cause l (strikeAll i (held.filter (fun sid => sid ∉ l)) y) := by
  refine yard_ext_aside (fun sid => ?_) ?_ ?_
  · simp only [sectionOf_markAll, sectionOf_strikeAll, List.mem_filter]
    by_cases hsid : sid ∈ l
    · cases y.sectionOf sid
      · simp [hsid]
      · simp only [hsid, if_true, Option.map_some]
        split <;> simp [disturbedRecord]
    · simp [hsid]
  · rw [control_markAll cause hl, control_markAll cause hl, control_strikeAll, control_strikeAll, stallSet_strikeAll,
      stallSet_strikeAll]
  · simp [aside_markAll, aside_strikeAll]

end Sys2Proof.Proofs
end


section
/-! SUPPORT. The loss of a cut and the disturbance of sections (R55, R57), as closure under their atomic changes. Between
the marking of a section and its reports, and between a cut's loss and the release of its axles, a law of the part stands
open: what it then owes is the `Debts` of the yard, which the later atoms pay. -/

namespace Sys2Proof.Proofs

open Sys2Proof Sys2Proof.Machine Sys2Proof.Spec

/-- What a property may owe in the course of an event, `settled` where it owes nothing: for a section marked DISTURBED whose reports are to come (R55), for a
lost cut whose axles are still reserved (R57), for an axle whose point has not been told of it (R137), and for a section
reset whose counts have not fallen (R63). -/
structure Debts (D : Type) where
  settled : D
  marked : SectionId → D → D
  orphaned : Cut → D → D
  entered : SectionId → D → D
  forgiven : Section → D
  marked_comm : ∀ sid sid' d, marked sid (marked sid' d) = marked sid' (marked sid d)
  entered_lead : ∀ d, entered .lead d = d

/-- Nothing is ever owed. -/
def noDebts : Debts Unit :=
  { settled := (), marked := fun _ d => d, orphaned := fun _ d => d, entered := fun _ d => d, forgiven := fun _ => (),
    marked_comm := fun _ _ _ => rfl, entered_lead := fun _ => rfl }

/-- A change of the notice unit that leaves the enables and the mask. -/
def KeepsSwitches (f : Notices → Notices) : Prop := ∀ n, (f n).enables = n.enables ∧ (f n).mask = n.mask

/-- The atomic changes that follow the marking of a cut as LOST or of a section as DISTURBED, each with what is known when it is
made. -/
structure CascadeClosed (e : Env) {D : Type} (k : Debts D) (P : D → Yard → Prop) : Prop where
  plan : ∀ d, PlanClosed e (P d)
  losePoint : ∀ d y p c, P d y → P d (y.losePoint e p c)
  raised : ∀ d y key n, P d y → P d (y.raise key n)
  queue : ∀ d y q l, l.Sublist (y.queueOf q) → P d y → P d (y.putQueue q l)
  mark : ∀ d y c sid, y.trusted sid = true → P d y → P (k.marked sid d) (y.markDisturbed c sid)
  told : ∀ d y sid, P (k.marked sid d) y → P d (y.sectionTold e sid).reportDisturbed
  strike : ∀ d y sid i, y.sectionDisturbed sid = true → P d y → P d (y.removeOccupant sid i)
  release : ∀ d y c, P (k.orphaned c d) y → P d (y.releaseLost c)

/-- The atomic changes that losses and disturbances are built of: those of the cascade, the marking of a cut as LOST, and the absorption
that the loss of the entering cut begins. -/
structure LossClosed (e : Env) {D : Type} (k : Debts D) (P : D → Yard → Prop) : Prop extends CascadeClosed e k P where
  lost : ∀ d y i c, y.cutAt i = some c → c.onLadder = true → P d y →
    P (k.orphaned c d) (y.modifyCut i (fun z => { z with state := .lost }))
  absorbed : ∀ d y j x, y.crest.state = .entering j x → P d y →
    P d (y.modifyCrest (fun c => { c with state := .absorbing (some j) x }))

variable {e : Env} {D : Type} {k : Debts D} {P : D → Yard → Prop} {d : D} {y : Yard}

theorem putReasons_keepsSwitches (key : NoticeKey) (b : Notices → Byte) :
    KeepsSwitches (fun n => n.putReasons key (b n)) := by
  intro n
  cases key <;> exact ⟨rfl, rfl⟩

namespace CascadeClosed

theorem raise (h : CascadeClosed e k P) (key : NoticeKey) (n : Nat) (hy : P d y) : P d (y.raise key n) :=
  h.raised _ _ _ _ hy

theorem raiseDisturbed (h : CascadeClosed e k P) (sid : SectionId) (hy : P d y) : P d (y.raiseDisturbed sid) := by
  cases sid <;> exact h.raise _ _ hy

/-! ## Queues -/

theorem departQueue (h : CascadeClosed e k P) (q : PointIx) (i : SlotIx) (hy : P d y) : P d (y.departQueue e q i) := by
  unfold Yard.departQueue
  dsimp only
  have hq := h.queue _ _ q ((y.queueOf q).filter (fun x => !(x.slot == i))) List.filter_sublist hy
  repeat' split
  · exact (h.plan d).plan _ _ _ ((h.plan d).withdrawFor _ _ hq)
  · exact hq
  · exact hq

theorem evaluateNewHead (h : CascadeClosed e k P) (q : PointIx) (wasHead : Bool) (hy : P d y) :
    P d (y.evaluateNewHead e q wasHead) := by
  unfold Yard.evaluateNewHead
  split
  · exact (h.plan d).evaluate _ hy
  · exact hy

theorem leaveQueue (h : CascadeClosed e k P) (q : PointIx) (i : SlotIx) (hy : P d y) : P d (y.leaveQueue e q i) := by
  unfold Yard.leaveQueue
  split
  · exact h.evaluateNewHead _ _ (h.departQueue _ _ hy)
  · exact hy

theorem leaveQueues (h : CascadeClosed e k P) (i : SlotIx) (hy : P d y) : P d (y.leaveQueues e i) := by
  unfold Yard.leaveQueues
  split
  · exact h.leaveQueue _ _ hy
  · exact hy

/-! ## Sections -/

/-- What is owed for a list of sections marked one after the other. -/
def owed (k : Debts D) (l : List SectionId) (d : D) : D := l.foldr k.marked d

theorem owed_marked (l : List SectionId) (sid : SectionId) (d : D) : owed k l (k.marked sid d) = k.marked sid (owed k l d) := by
  induction l with
  | nil => rfl
  | cons s l ih => exact (congrArg (k.marked s) ih).trans (k.marked_comm _ _ _)

theorem trusted_markDisturbed_of_ne {cause : DisturbCause} {s sid : SectionId} (h : s ≠ sid) (y : Yard) :
    (y.markDisturbed cause s).trusted sid = y.trusted sid := by
  simp [Yard.trusted, Yard.sectionState, sectionOf_markDisturbed, h]

theorem markAll (h : CascadeClosed e k P) (cause : DisturbCause) {l : List SectionId} (hl : l.Nodup)
    (htrusted : ∀ sid ∈ l, y.trusted sid = true) (hy : P d y) : P (owed k l d) (markAll cause l y) := by
  induction l generalizing y d with
  | nil => exact hy
  | cons s l ih =>
    obtain ⟨hs, hl⟩ := List.nodup_cons.mp hl
    have hmark := h.mark d y cause s (htrusted s (by simp)) hy
    have hrest : ∀ sid ∈ l, (y.markDisturbed cause s).trusted sid = true := fun sid hsid => by
      rw [trusted_markDisturbed_of_ne (fun heq => hs (by rwa [heq])), htrusted sid (by simp [hsid])]
    have howed : owed k (s :: l) d = owed k l (k.marked s d) := (owed_marked l s d).symm
    rw [howed]
    exact ih hl hrest hmark

variable {lose : SlotIx → Yard → Yard}

theorem foldLoss (h : ∀ d i z, P d z → P d (lose i z)) (cuts : List SlotIx) (hy : P d y) :
    P d (cuts.foldl (fun z i => lose i z) y) := by
  induction cuts generalizing y with
  | nil => exact hy
  | cons i l ih => exact ih (h _ _ _ hy)

theorem afterDisturbed (h : CascadeClosed e k P) (hlose : ∀ d i z, P d z → P d (lose i z)) (sid : SectionId)
    (cuts : List SlotIx) (hy : P (k.marked sid d) y) : P d (y.afterDisturbed lose e sid cuts) :=
  h.raiseDisturbed _ (h.told _ _ _ (foldLoss hlose cuts hy))

/-- The sections of a list that become DISTURBED, each once. -/
def fresh (y : Yard) (sids : List SectionId) : List SectionId := (sids.filter (fun sid => y.trusted sid)).dedup

theorem disturbWith_eq (cause : DisturbCause) (sids : List SectionId) (y : Yard) :
    y.disturbWith lose e cause sids =
      ((fresh y sids).map (fun sid => (sid, y.listed sid))).foldl (fun z r => z.afterDisturbed lose e r.1 r.2)
        (Proofs.markAll cause (fresh y sids) y) := rfl

theorem fresh_nodup (y : Yard) (sids : List SectionId) : (fresh y sids).Nodup := List.nodup_dedup _

theorem mem_fresh {sids : List SectionId} {sid : SectionId} : sid ∈ fresh y sids ↔ sid ∈ sids ∧ y.trusted sid = true := by
  simp [fresh]

/-- The effects of the sections marked pay what is owed for them. -/
theorem foldAfterDisturbed (h : CascadeClosed e k P) (hlose : ∀ d i z, P d z → P d (lose i z)) (l : List SectionId)
    (cutsOf : SectionId → List SlotIx) (hy : P (owed k l d) y) :
    P d ((l.map (fun sid => (sid, cutsOf sid))).foldl (fun z r => z.afterDisturbed lose e r.1 r.2) y) := by
  induction l generalizing y with
  | nil => exact hy
  | cons s l ih => exact ih (h.afterDisturbed hlose s (cutsOf s) hy)

theorem disturbWith (h : CascadeClosed e k P) (hlose : ∀ d i z, P d z → P d (lose i z)) (cause : DisturbCause)
    (sids : List SectionId) (hy : P d y) : P d (y.disturbWith lose e cause sids) := by
  rw [disturbWith_eq]
  exact h.foldAfterDisturbed hlose _ _ (h.markAll cause (fresh_nodup y sids) (fun sid hsid => (mem_fresh.mp hsid).2) hy)

/-! ## The loss of a cut -/

theorem strikeAll (h : CascadeClosed e k P) (i : SlotIx) {l : List SectionId}
    (hl : ∀ sid ∈ l, y.sectionDisturbed sid = true) (hy : P d y) : P d (strikeAll i l y) := by
  induction l generalizing y with
  | nil => exact hy
  | cons s l ih =>
    refine ih (fun sid hsid => ?_) (h.strike _ _ s i (hl s (by simp)) hy)
    have hstate : (y.removeOccupant s i).sectionState sid = y.sectionState sid := sectionState_strikeAll i [s] y sid
    rw [Yard.sectionDisturbed, hstate]
    exact hl sid (by simp [hsid])

theorem disturbed_of_lists {sid : SectionId} {i : SlotIx} (hlists : y.lists sid i = true) (h : y.trusted sid = false) :
    y.sectionDisturbed sid = true := by
  unfold Yard.lists at hlists
  unfold Yard.trusted at h
  unfold Yard.sectionDisturbed
  cases hx : y.sectionOf sid with
  | none => simp [hx] at hlists
  | some x => cases hst : x.state <;> simp_all [Yard.sectionState]

theorem fresh_strikeAll (i : SlotIx) (l sids : List SectionId) (y : Yard) : fresh (Proofs.strikeAll i l y) sids = fresh y sids := by
  simp [fresh, trusted_strikeAll]

/-- The sections that list a lost cut become DISTURBED with the cut struck from their lists (R57 steps 3 and 4). -/
theorem disturbStruck (h : CascadeClosed e k P) (hlose : ∀ d i z, P d z → P d (lose i z)) (cause : DisturbCause) (i : SlotIx)
    {held : List SectionId} (hheld : ∀ sid ∈ held, y.lists sid i = true) (hy : P d y) :
    P d ((Proofs.strikeAll i held y).disturbWith lose e cause held) := by
  rw [disturbWith_eq, fresh_strikeAll, markAll_strikeAll cause i (fresh_nodup y held)]
  refine h.foldAfterDisturbed hlose _ _ (h.markAll cause (fresh_nodup y held) (fun sid hsid => ?_) (h.strikeAll i (fun sid hsid => ?_) hy))
  · rw [trusted_strikeAll]
    exact (mem_fresh.mp hsid).2
  · obtain ⟨hmem, hstale⟩ := List.mem_filter.mp hsid
    have hnot : ¬ (sid ∈ held ∧ y.trusted sid = true) := fun hin => (of_decide_eq_true hstale) (mem_fresh.mpr hin)
    exact disturbed_of_lists (hheld sid hmem) (by simpa [hmem] using hnot)

/-- The cut marked LOST and gone from every queue (R57 steps 1 and 2). -/
def dequeued (e : Env) (i : SlotIx) (y : Yard) : Yard := (y.modifyCut i (fun z => { z with state := .lost })).leaveQueues e i

/-- The sections that list a cut. -/
def holders (y : Yard) (i : SlotIx) : List SectionId := allSections.filter (fun sid => y.lists sid i)

/-- The loss of a cut on the ladder, step by step (R57). -/
theorem loseAt_succ (n : Nat) {i : SlotIx} {c : Cut} (hc : y.cutAt i = some c) (hl : c.onLadder = true) : y.loseAt e (n + 1) i =
    (((((Proofs.strikeAll i (holders (dequeued e i y) i) (dequeued e i y)).disturbWith (fun j z => z.loseAt e n j) e .lostCut
      (holders (dequeued e i y) i)).releaseLost c).raiseCut i .lost).absorbIfEntering i) := by
  rw [Yard.loseAt, hc]
  dsimp only
  rw [if_pos hl]
  rfl

theorem loseAt_of_off (n : Nat) {i : SlotIx} (h : ∀ c, y.cutAt i = some c → c.onLadder = false) : y.loseAt e n i = y := by
  cases n with
  | zero => rfl
  | succ n =>
    rw [Yard.loseAt]
    split
    next c hc => rw [h c hc, if_neg Bool.false_ne_true]
    · rfl

/-- What the marking of a cut as LOST brings about, its loss keeps. -/
theorem loseAt_of_marked (h : CascadeClosed e k P) {n : Nat} {i : SlotIx} {c : Cut} (hlose : ∀ d j z, P d z → P d (z.loseAt e n j))
    (habsorbed : ∀ z, P d z → P d (z.absorbIfEntering i)) (hc : y.cutAt i = some c) (hl : c.onLadder = true) (hy : P (k.orphaned c d) (y.modifyCut i (fun z => { z with state := .lost }))) :
    P d (y.loseAt e (n + 1) i) := by
  rw [loseAt_succ n hc hl]
  refine habsorbed _ (h.raise _ _ (h.release _ _ _ ?_))
  exact h.disturbStruck hlose .lostCut i (fun sid hsid => (List.mem_filter.mp hsid).2) (h.leaveQueues i hy)

end CascadeClosed

namespace LossClosed

theorem absorbIfEntering (h : LossClosed e k P) (i : SlotIx) (hy : P d y) : P d (y.absorbIfEntering i) := by
  unfold Yard.absorbIfEntering
  split
  next j x hentering =>
    split
    · exact h.absorbed _ _ _ _ hentering hy
    · exact hy
  all_goals exact hy

theorem loseAt (h : LossClosed e k P) (n : Nat) (i : SlotIx) (hy : P d y) : P d (y.loseAt e n i) := by
  induction n generalizing i d y with
  | zero => exact hy
  | succ n ih =>
    by_cases hon : ∃ c, y.cutAt i = some c ∧ c.onLadder = true
    · obtain ⟨c, hc, hl⟩ := hon
      exact h.loseAt_of_marked (fun d j z hz => ih j hz) (fun z hz => h.absorbIfEntering i hz) hc hl (h.lost d y i c hc hl hy)
    · rw [CascadeClosed.loseAt_of_off (n + 1) fun c hc => Bool.eq_false_iff.mpr fun hl => hon ⟨c, hc, hl⟩]
      exact hy

theorem loseCut (h : LossClosed e k P) (i : SlotIx) (hy : P d y) : P d (y.loseCut e i) := h.loseAt _ i hy

theorem disturb (h : LossClosed e k P) (cause : DisturbCause) (sids : List SectionId) (hy : P d y) :
    P d (y.disturb e cause sids) :=
  h.disturbWith (fun _ i _ hz => h.loseCut i hz) cause sids hy

theorem overcount (h : LossClosed e k P) (sid : SectionId) (i : SlotIx) (hy : P d y) : P d (y.overcount e sid i) :=
  h.loseCut _ (h.disturb _ _ hy)

theorem axleAtPoint (h : LossClosed e k P) (p : PointIx) (hy : P d y) : P d (y.axleAtPoint e p) := by
  unfold Yard.axleAtPoint
  split
  · exact h.losePoint _ _ _ _ hy
  · exact hy

theorem legMismatch (h : LossClosed e k P) (p : PointIx) (named : Leg) (hy : P d y) : P d (y.legMismatch e p named) := by
  unfold Yard.legMismatch
  split
  · exact h.losePoint _ _ _ _ hy
  · exact hy

theorem headFault (h : LossClosed e k P) (head : HeadIx) (hy : P d y) : P d (y.headFault e head) := h.disturb _ _ hy

theorem leaveQueueBelow (h : LossClosed e k P) (p : PointIx) (leg : Leg) (i : SlotIx) (hy : P d y) :
    P d (y.leaveQueueBelow e p leg i) := by
  unfold Yard.leaveQueueBelow
  split
  · exact h.leaveQueue _ _ hy
  · exact hy
  · exact hy

end LossClosed

/-! ## What leaves every section record alone -/

theorem sectionOf_of_fields {z : Yard} (hlead : z.lead = y.lead) (hsections : z.sections = y.sections) (sid : SectionId) :
    z.sectionOf sid = y.sectionOf sid := by
  cases sid <;> simp [Yard.sectionOf, hlead, hsections]

theorem sectionOf_of_standing {z : Yard} (h : z.standing = y.standing) (sid : SectionId) :
    z.sectionOf sid = y.sectionOf sid := by
  obtain ⟨hlead, hsections, -⟩ := Yard.standing_ext h
  exact sectionOf_of_fields hlead hsections sid

theorem sectionOf_reportLost (y : Yard) (sid : SectionId) : y.reportLost.sectionOf sid = y.sectionOf sid :=
  sectionOf_of_fields (by simp) (by simp) sid

theorem sectionOf_reportDisturbed (y : Yard) (sid : SectionId) : y.reportDisturbed.sectionOf sid = y.sectionOf sid :=
  sectionOf_of_fields (by simp) (by simp) sid

theorem sectionOf_losePoint (p : PointIx) (c : FaultCause) (y : Yard) (sid : SectionId) :
    (y.losePoint e p c).sectionOf sid = y.sectionOf sid := by
  unfold Yard.losePoint
  dsimp only
  repeat' split
  · rfl
  all_goals first
    | rfl
    | rw [sectionOf_of_standing (Yard.standing_evaluate e p _), sectionOf_reportLost]
      exact sectionOf_of_standing (by simp) sid

theorem sectionOf_sectionTold (s : SectionId) (y : Yard) (sid : SectionId) :
    (y.sectionTold e s).sectionOf sid = y.sectionOf sid := by
  unfold Yard.sectionTold
  repeat' split
  · rfl
  · exact sectionOf_losePoint _ _ _ _
  · exact sectionOf_of_standing (by simp) sid

end Sys2Proof.Proofs
end


section
/-! SUPPORT. Every event of the section tracker and the crest unit (chapters 3 and 5), as closure under their atomic
changes: a property kept by each change of `EventClosed` is kept by every passage, head fault, stall and short cut. -/

namespace Sys2Proof.Proofs

open Sys2Proof Sys2Proof.Machine Sys2Proof.Spec

/-! ## A section once DISTURBED stays so -/

/-- The section is DISTURBED wherever it has a record. -/
def Untrusted (y : Yard) (sid : SectionId) : Prop := ∀ x, y.sectionOf sid = some x → x.state = .disturbed

theorem untrusted_iff {y : Yard} {sid : SectionId} : Untrusted y sid ↔ y.trusted sid = false := by
  unfold Untrusted Yard.trusted Yard.sectionState
  cases y.sectionOf sid with
  | none => simp
  | some x => cases hst : x.state <;> simp [hst]

theorem untrusted_of_disturbed {y : Yard} {sid : SectionId} (h : y.sectionDisturbed sid = true) : Untrusted y sid := by
  intro x hx
  simpa [Yard.sectionDisturbed, Yard.sectionState, hx] using h

/-- Losses and disturbances keep what holds of a section's record if its disturbance and the striking of a cut from its
list keep it. -/
theorem lossClosed_of_section (e : Env) (sid : SectionId) {Q : Option Section → Prop}
    (hmark : ∀ c x, x.state ≠ .disturbed → Q (some x) → Q (some (disturbedRecord c x)))
    (hstrike : ∀ x f, Q (some x) → Q (some { x with occupants := x.occupants.filter f })) :
    LossClosed e noDebts (fun (_ : Unit) y => Q (y.sectionOf sid)) := by
  have keep : ∀ {y z : Yard}, (∀ sid, z.sectionOf sid = y.sectionOf sid) → Q (y.sectionOf sid) → Q (z.sectionOf sid) :=
    fun hz hy => by rwa [hz]
  have stand : ∀ {y z : Yard}, z.standing = y.standing → Q (y.sectionOf sid) → Q (z.sectionOf sid) :=
    fun hz => keep (sectionOf_of_standing hz)
  exact {
    plan := fun _ =>
      { plan := fun _ _ _ => stand (by simp)
        speed := fun _ _ _ => stand (by simp)
        remove := fun _ _ => stand (by simp)
        pop := fun _ _ _ hy _ => stand rfl hy
        place := fun _ _ => stand (by simp)
        divert := fun _ _ _ _ _ => stand (by simp)
        cancelled := fun _ _ => stand (by simp)
        grant := fun _ _ hy _ _ _ => stand (by simp) hy }
    losePoint := fun _ y p c => keep (sectionOf_losePoint p c y)
    raised := fun _ _ _ _ => keep (sectionOf_of_fields rfl rfl)
    queue := fun _ _ _ _ _ => keep (sectionOf_of_fields rfl rfl)
    absorbed := fun _ _ _ _ _ => keep (sectionOf_of_fields rfl rfl)
    mark := fun _ y c s ht hy => by
      rw [sectionOf_markDisturbed]
      split
      next heq =>
        cases hx : y.sectionOf sid with
        | none => simpa [hx] using hy
        | some x =>
          have hstate : x.state ≠ .disturbed := fun hd => by
            rw [heq, untrusted_iff.mp fun z hz => (Option.some.inj (hx.symm.trans hz)) ▸ hd] at ht
            cases ht
          simpa [hx] using hmark c x hstate (hx ▸ hy)
      · exact hy
    told := fun _ y s =>
      keep fun sid => (sectionOf_reportDisturbed _ sid).trans (sectionOf_sectionTold s y sid)
    strike := fun _ y s i _ hy => by
      rw [sectionOf_removeOccupant]
      split
      · cases hx : y.sectionOf sid with
        | none => simpa [hx] using hy
        | some x => exact hstrike x (fun o => !(o.slot == i)) (hx ▸ hy)
      · exact hy
    lost := fun _ _ _ _ _ _ => stand (by simp)
    release := fun _ _ _ => stand (by simp) }

theorem staysUntrusted (e : Env) (sid : SectionId) : LossClosed e noDebts (fun (_ : Unit) y => Untrusted y sid) :=
  lossClosed_of_section e sid (Q := fun o => ∀ x, o = some x → x.state = .disturbed)
    (fun _ _ _ _ z hz => by cases hz; rfl) (fun x _ hx z hz => by cases hz; exact hx x rfl)

variable {e : Env} {D : Type} {k : Debts D} {P : D → Yard → Prop} {d : D} {y : Yard} {sid : SectionId}

/-- After a disturbance no section of its list is trusted. -/
theorem untrusted_disturb {sids : List SectionId} (cause : DisturbCause) (hsid : sid ∈ sids) :
    Untrusted (y.disturb e cause sids) sid := by
  rw [Yard.disturb, CascadeClosed.disturbWith_eq]
  refine (staysUntrusted e sid).foldAfterDisturbed (d := ()) (fun d i _ hz => (staysUntrusted e sid).loseCut (d := d) i hz) _ _ ?_
  intro x hx
  rw [sectionOf_markAll] at hx
  split at hx
  · obtain ⟨z, -, rfl⟩ := Option.map_eq_some_iff.mp hx
    rfl
  next hmem =>
    have hfalse : y.trusted sid = false := by simpa [CascadeClosed.mem_fresh, hsid] using hmem
    exact untrusted_iff.mpr hfalse x hx

/-! ## The atomic changes of the events -/

/-- A section record with a cut's leading axle recorded (R41, R48, R60). -/
def occupiedRecord (e : Env) (i : SlotIx) (x : Section) : Section :=
  { x.relist (x.occupants ++ [{ slot := i, entered := 1, exited := 0 }]) with
      state := .occupied, stallTimer := if x.state = .clear then some (stallExpiry e x) else x.stallTimer }

/-- The yard with the last entry gone from a section's list: the section is CLEAR (R41). -/
def emptied (sid : SectionId) (x : Section) (y : Yard) : Yard :=
  ((y.putSection sid (some (x.relist []))).clearStallFlag sid).modifySection sid
    (fun z => { z with state := .clear, stallTimer := none })

/-- A section record with its stall flag set (R61). -/
def stalledRecord (x : Section) : Section := { x with stallTimer := none, stallFlag := true }

/-- What STALL_TIMER_EXPIRY makes of a yard: nothing, or the stall flag set, raised and reported (R61). -/
theorem stallExpired_cases (e : Env) (sid : SectionId) (y : Yard) :
    y.stallExpired e sid = y ∨ ∃ x t, y.sectionOf sid = some x ∧ x.stallTimer = some t ∧ atOrAfter e.now t = true ∧
      y.stallExpired e sid = ((y.putSection sid (some (stalledRecord x))).raiseStall sid).reportStall := by
  unfold Yard.stallExpired
  split
  next x hx =>
    split
    next t ht =>
      split
      next hexp => exact .inr ⟨x, t, hx, ht, hexp, rfl⟩
      · exact .inl rfl
    · exact .inl rfl
  · exact .inl rfl

/-- The atomic changes that the events of the section tracker and the crest unit are built of, each with what is known
when it is made. -/
structure EventClosed (e : Env) {D : Type} (k : Debts D) (P : D → Yard → Prop) : Prop extends LossClosed e k P where
  joined : ∀ d y q l, P d y → P d (y.putQueue q l)
  crest : ∀ d y f, P d y → P d (y.modifyCrest f)
  started : ∀ d y i f, (∀ x : Started, (f x).resolved = x.resolved) → P d y → P d (y.modifyStarted i f)
  reroute : ∀ d y i t c, P d y → P d (y.reroute e i t c)
  arrive : ∀ d y i, P d y → P d (y.arrive e i)
  rawCount : ∀ d y sid (f : Nat → Nat), y.sectionDisturbed sid = true → P d y →
    P d (y.modifySection sid (fun x => { x with count := f x.count }))
  occupied : ∀ d y sid i, y.sectionDisturbed sid = false → P d y →
    P (k.entered sid d) (y.modifySection sid (occupiedRecord e i))
  axle : ∀ d y p, P (k.entered (.point p) d) y → P d (y.axleAtPoint e p)
  credit : ∀ d y sid i, y.sectionDisturbed sid = false → y.lists sid i = true → P d y → P d (y.credit sid i)
  emptied : ∀ d y sid x, y.sectionOf sid = some x → x.occupants ≠ [] → P d y → P d (emptied sid x y)
  relisted : ∀ d y sid x l, y.sectionOf sid = some x → x.occupants ≠ [] → l ≠ [] → P d y →
    P d (y.putSection sid (some (x.relist l)))
  restarted : ∀ d y sid x, y.sectionOf sid = some x → x.occupants ≠ [] → P d y → P d (y.restartStall e sid)
  stalled : ∀ d y sid, P d y → P d (y.stallExpired e sid)
  slot : ∀ d y i r, (∀ c, y.cutAt i = some c → c.onLadder = false) → (∀ c, r = some (.cut c) → c.onLadder = false) →
    P d y → P d (y.putSlot i r)
  rolling : ∀ d y i, P d y →
    P d (y.modifyCut i (fun c => if c.state = .entering then { c with state := .rolling } else c))
  begun : ∀ d y i c x l, y.cutAt i = some c → c.state = .pending → P d y →
    P d ((({ y with pendingList := l }).putSlot i
      (some (.cut { c with state := .entering, started := some x }))).reserve x.resolved c.axles)
  shortened : ∀ d y i c x, y.cutAt i = some c → c.started = some x → c.state = .entering → P d y →
    P d (((y.putSlot i (some (.cut (shortened c x)))).release x.resolved c.axles).reserve x.resolved x.crestAxles)

namespace EventClosed

/-! ## Sections -/

theorem modifyRaw (h : EventClosed e k P) (f : Nat → Nat) (hsid : Untrusted y sid) (hy : P d y) :
    P d (y.modifySection sid (fun x => { x with count := f x.count })) := by
  cases hx : y.sectionOf sid with
  | some x => exact h.rawCount _ _ _ _ (by simp [Yard.sectionDisturbed, Yard.sectionState, hx, hsid x hx]) hy
  | none => simpa [Yard.modifySection, hx] using hy

theorem raiseRaw (h : EventClosed e k P) (hsid : Untrusted y sid) (hy : P d y) :
    P d (y.raiseRaw sid) :=
  h.modifyRaw (fun n => min (n + 1) Config.maxCount) hsid hy

theorem lowerRaw (h : EventClosed e k P) (hsid : Untrusted y sid) (hy : P d y) :
    P d (y.lowerRaw sid) :=
  h.modifyRaw (fun n => n - 1) hsid hy

/-- A section is DISTURBED and an axle without a cut enters it. -/
theorem disturbAndRaise (h : EventClosed e k P) (cause : DisturbCause) (sid : SectionId) (hy : P d y) :
    P d ((y.disturb e cause [sid]).raiseRaw sid) :=
  h.raiseRaw (untrusted_disturb cause (by simp)) (h.disturb _ _ hy)

/-- A cut is lost and its axle enters a DISTURBED section. -/
theorem loseAndRaise (h : EventClosed e k P) (i : SlotIx) (hd : y.sectionDisturbed sid = true) (hy : P d y) :
    P d ((y.loseCut e i).raiseRaw sid) :=
  h.raiseRaw ((staysUntrusted e sid).loseCut (d := ()) i (untrusted_of_disturbed hd)) (h.loseCut _ hy)

theorem occupy (h : EventClosed e k P) (sid : SectionId) (i : SlotIx) (hsid : y.sectionDisturbed sid = false) (hy : P d y) :
    P (k.entered sid d) (y.occupy e sid i) := by
  have hz := h.occupied d y sid i hsid hy
  cases sid with
  | lead => exact hz
  | point q => exact (h.plan _).sectionNotClear q hz

theorem becomeClear (h : EventClosed e k P) {x : Section} (hx : y.sectionOf sid = some x) (hne : x.occupants ≠ []) (hy : P d y) :
    P d ((y.putSection sid (some (x.relist []))).becomeClear e sid) := by
  have hz := h.emptied d y sid x hx hne hy
  cases sid with
  | lead => exact hz
  | point q => exact (h.plan d).evaluate q hz

/-! ## The exit, the leg check, the entry -/

theorem takeOut (h : EventClosed e k P) (sid : SectionId) (hy : P d y) : P d (y.takeOut e sid).2 := by
  obtain ⟨hx, he⟩ | ⟨x, hx, hd, he⟩ | ⟨x, hx, hd, -, he⟩ | ⟨x, pre, post, o, left, hx, hd, hocc, -, -, -, he⟩ :=
    Yard.takeOut_cases e sid y <;> rw [he]
  · exact hy
  · exact h.lowerRaw (fun z hz => by rw [hx] at hz; cases hz; exact hd) hy
  · exact h.disturb _ _ hy
  · have hne : x.occupants ≠ [] := by simp [hocc]
    dsimp only
    split
    next hempty =>
      rw [List.isEmpty_iff.mp hempty]
      exact h.becomeClear hx hne hy
    next hleft =>
      have hl : left ≠ [] := fun hnil => hleft (by simp [hnil])
      exact h.restarted d _ sid (x.relist left) (by rw [Yard.sectionOf_putSection, if_pos rfl]) hl (h.relisted d y sid x left hx hne hl hy)

theorem markHazard (h : EventClosed e k P) (i : SlotIx) (hy : P d y) : P d (y.markHazard i) := by
  unfold Yard.markHazard
  repeat' split
  · exact hy
  · exact h.raise _ _ (h.started _ _ _ (fun z => { z with hazard := true }) (fun _ => rfl) hy)
  · exact hy

theorem settleLeg (h : EventClosed e k P) (p : PointIx) (leg : Leg) (i : SlotIx) (hy : P d y) :
    P d (y.settleLeg e p leg i) := by
  unfold Yard.settleLeg Yard.pruneDiversions
  split
  · exact h.started _ _ _ _ (fun _ => rfl) (h.reroute _ _ _ _ _ hy)
  · exact hy

theorem legCheck (h : EventClosed e k P) (p : PointIx) (leg : Leg) (i : SlotIx) (leading : Bool) (hy : P d y) :
    P d (y.legCheck e p leg i leading).2 := by
  unfold Yard.legCheck
  repeat' split
  · exact hy
  · exact hy
  · exact h.settleLeg _ _ _ (h.leaveQueueBelow _ _ _ (h.markHazard _ (h.legMismatch _ _ hy)))
  · exact h.loseCut _ (h.legMismatch _ _ hy)

theorem entryCheck (h : EventClosed e k P) (q : PointIx) (i : SlotIx) (caughtUp : Bool) (hy : P d y) :
    P d (y.entryCheck e q i caughtUp) := by
  unfold Yard.entryCheck
  repeat' split
  · exact hy
  · exact (h.plan d).divert _ _ _ _ _ ((h.plan d).withdrawFor _ _ hy)
  · exact h.markHazard _ hy
  · exact hy

theorem sectionDisturbed_departQueue (q : PointIx) (i : SlotIx) (y : Yard) :
    (y.departQueue e q i).sectionDisturbed sid = y.sectionDisturbed sid := by
  have hsame : (y.departQueue e q i).sectionOf sid = y.sectionOf sid := by
    unfold Yard.departQueue
    dsimp only
    repeat' split
    · rw [sectionOf_of_standing (Yard.standing_modifyPlan q _ _), sectionOf_of_standing (Yard.standing_withdrawFor e q i _)]
      exact sectionOf_of_fields rfl rfl sid
    all_goals exact sectionOf_of_fields rfl rfl sid
  rw [Yard.sectionDisturbed, Yard.sectionState, hsame]
  rfl

theorem joinQueue (h : EventClosed e k P) (q : PointIx) (i : SlotIx) (pass : Passage) (hy : P d y) :
    P d (y.joinQueue e q i pass) := by
  unfold Yard.joinQueue
  dsimp only
  have hjoined := h.joined _ _ q ((y.cancelManual e q).queueOf q ++ [pass.entryOf i]) ((h.plan d).cancelManual q hy)
  split
  · exact (h.plan d).evaluate _ hjoined
  · exact hjoined

theorem joinNext (h : EventClosed e k P) (q : PointIx) (i : SlotIx) (pass : Passage) (hy : P d y) :
    P d (y.joinNext e q i pass) := by
  unfold Yard.joinNext
  repeat' split
  · exact h.joinQueue _ _ _ hy
  all_goals exact hy

theorem leadingEntry (h : EventClosed e k P) (q : PointIx) (i : SlotIx) (pass : Passage) (hy : P d y) :
    P d (y.leadingEntry e q i pass) := by
  unfold Yard.leadingEntry
  dsimp only
  split
  next hd => exact h.loseAndRaise i hd hy
  next hd =>
    have hclear : y.sectionDisturbed (.point q) = false := by simpa using hd
    have key : ∀ a : Yard, a.sectionDisturbed (.point q) = false → P d a →
        P d (if a.sectionFull (.point q) then (a.overcount e (.point q) i).evaluateNewHead e q (y.queueHead q == some i)
          else (((((a.occupy e (.point q) i).evaluateNewHead e q (y.queueHead q == some i)).modifyStarted i
            (fun x => { x with progress := x.progress + 1 })).axleAtPoint e q).entryCheck e q i
              (y.listsOther (.point q) i)).joinNext e q i pass) := fun a hda ha => by
      split
      · exact h.evaluateNewHead _ _ (h.overcount _ _ ha)
      · exact h.joinNext _ _ _ (h.entryCheck _ _ _ (h.axle _ _ _ (h.started _ _ _ _ (fun _ => rfl)
          (h.evaluateNewHead _ _ (h.occupy _ i hda ha)))))
    split
    · exact key _ ((sectionDisturbed_departQueue q i y).trans hclear) (h.departQueue _ _ hy)
    · exact key _ hclear hy

theorem entryWithoutCut (h : EventClosed e k P) (sid : SectionId) (aboveDisturbed : Bool) (hy : P d y) :
    P d (y.entryWithoutCut e sid aboveDisturbed) := by
  have hz : P d (if y.sectionDisturbed sid then y.raiseRaw sid
      else (y.disturb e (if aboveDisturbed then .enteredDisturbed else .unexpectedAxle) [sid]).raiseRaw sid) := by
    split
    next hd => exact h.raiseRaw (untrusted_of_disturbed hd) hy
    · exact h.disturbAndRaise _ _ hy
  unfold Yard.entryWithoutCut
  cases sid with
  | lead => exact hz
  | point q => exact h.axleAtPoint q hz

theorem furtherEntry (h : EventClosed e k P) (q : PointIx) (i : SlotIx) (aboveDisturbed : Bool) (hy : P d y) :
    P d (y.furtherEntry e q i aboveDisturbed) := by
  unfold Yard.furtherEntry
  split
  · exact h.entryWithoutCut _ _ hy
  next hd =>
    obtain ⟨hclear, hlists⟩ : y.sectionDisturbed (.point q) = false ∧ y.lists (.point q) i = true := by simpa using hd
    split
    · exact h.overcount _ _ hy
    · exact h.axleAtPoint _ (h.credit _ _ _ _ hclear hlists hy)

theorem entryTrack (h : EventClosed e k P) (i : SlotIx) (hy : P d y) : P d (y.entryTrack e i) := by
  have hz := h.started d y i (fun x => { x with inTrack := x.inTrack + 1 }) (fun _ => rfl) hy
  unfold Yard.entryTrack
  dsimp only
  split
  · exact h.arrive _ _ _ hz
  · exact hz

theorem enterBelow (h : EventClosed e k P) (b : Below) (cut : Option SlotIx) (aboveDisturbed : Bool) (pass : Passage)
    (hy : P d y) : P d (y.enterBelow e b cut aboveDisturbed pass) := by
  unfold Yard.enterBelow
  split
  · split
    · exact h.leadingEntry _ _ _ hy
    · exact h.furtherEntry _ _ _ hy
  · exact hy
  · exact h.entryWithoutCut _ _ hy
  · exact h.entryTrack _ hy
  · exact hy
  · exact hy

theorem downhill (h : EventClosed e k P) (head : HeadIx) (pass : Passage) (hy : P d y) : P d (y.downhill e head pass) := by
  unfold Yard.downhill
  dsimp only
  split
  · exact hy
  · refine h.enterBelow _ _ _ _ ?_
    split
    · exact h.legCheck _ _ _ _ (h.takeOut _ hy)
    · exact h.takeOut _ hy
    · exact h.takeOut _ hy
    · exact h.takeOut _ hy

theorem untrusted_raiseRaw (s : SectionId) (h : Untrusted y sid) : Untrusted (y.raiseRaw s) sid := by
  intro x hx
  rw [Yard.raiseRaw, Yard.sectionOf_modifySection] at hx
  split at hx
  · obtain ⟨z, hz, rfl⟩ := Option.map_eq_some_iff.mp hx
    exact h z hz
  · exact h x hx

theorem rollback (h : EventClosed e k P) (head : HeadIx) (hy : P d y) : P d (y.rollback e head) := by
  have hz := h.disturb .rollback (e.ladder.adjoining head) hy
  have hdisturbed : ∀ sid ∈ e.ladder.adjoining head, Untrusted (y.disturb e .rollback (e.ladder.adjoining head)) sid :=
    fun _ hsid => untrusted_disturb _ hsid
  unfold Yard.rollback
  unfold Ladder.adjoining at hdisturbed hz ⊢
  dsimp only
  cases habove : e.ladder.sectionAbove head <;> cases hbelow : e.ladder.below head <;>
    simp only [habove, hbelow, Option.toList_none, Option.toList_some, List.append_nil, List.nil_append, List.cons_append]
      at hdisturbed hz ⊢
  case none.area sid => exact h.lowerRaw (hdisturbed _ (by simp)) hz
  case some.area s sid =>
    exact h.lowerRaw (untrusted_raiseRaw _ (hdisturbed _ (by simp))) (h.raiseRaw (hdisturbed _ (by simp)) hz)
  case some.track s t => exact h.raiseRaw (hdisturbed _ (by simp)) hz
  case some.nothing s => exact h.raiseRaw (hdisturbed _ (by simp)) hz
  all_goals exact hz

/-! ## The lead and the crest -/

theorem handUnlisted (h : EventClosed e k P) (hy : P d y) : P d (y.handUnlisted e) := by
  unfold Yard.handUnlisted
  split
  next hd => exact h.raiseRaw (untrusted_of_disturbed hd) hy
  · exact h.disturbAndRaise _ _ hy

theorem handFurther (h : EventClosed e k P) (i : SlotIx) (hy : P d y) : P d (y.handFurther e i) := by
  unfold Yard.handFurther
  split
  next hd => exact h.raiseRaw (untrusted_of_disturbed hd) hy
  next hd =>
    split
    next hlists =>
      split
      · exact h.overcount _ _ hy
      · exact h.credit _ _ _ _ (by simpa using hd) hlists hy
    · exact h.handUnlisted hy

theorem handLeading (h : EventClosed e k P) (i : SlotIx) (pass : Passage) (hy : P d y) : P d (y.handLeading e i pass) := by
  unfold Yard.handLeading
  dsimp only
  split
  next hd => exact h.loseAndRaise i hd hy
  next hd =>
    split
    · exact h.overcount _ _ hy
    · have hz := h.occupy .lead i (by simpa using hd) hy
      rw [k.entered_lead] at hz
      split
      · exact h.joinQueue _ _ _ hz
      · exact hz

theorem judgeMarker (h : EventClosed e k P) (hy : P d y) : P d y.judgeMarker := by
  unfold Yard.judgeMarker
  split
  · split
    next n hslot =>
      split
      · exact h.raise _ _ (h.slot _ _ _ _ (fun c hc => by simp [Yard.cutAt, hslot] at hc) (fun _ hc => by cases hc) hy)
      · exact hy
    · exact hy
  · exact hy

theorem startGap (h : EventClosed e k P) (pass : Passage) (hy : P d y) : P d (y.startGap e pass) := h.crest _ _ _ hy

theorem leaveEntering (h : EventClosed e k P) (i : SlotIx) (n : Word16) (t : Instant) (b : Bool) (hy : P d y) :
    P d (y.leaveEntering i n t b) :=
  h.judgeMarker (h.crest _ _ _ (h.rolling _ _ _ hy))

theorem endAbsorption (h : EventClosed e k P) (hy : P d y) : P d y.endAbsorption := h.judgeMarker (h.crest _ _ _ hy)

theorem startCut (h : EventClosed e k P) {i : SlotIx} {c : Cut} (pass : Passage) (hc : y.cutAt i = some c)
    (hp : c.state = .pending) (hy : P d y) : P d (y.startCut e i c pass) := by
  have hmade := h.begun d y i c
    (({ y with pendingList := y.pendingList.tail } : Yard).assign e pass.instant (y.freeOrder 65 y.crest.nextOrder) c).1
    y.pendingList.tail hc hp hy
  unfold Yard.startCut
  refine h.startGap _ (h.handLeading _ _ (h.crest _ _ _ ?_))
  split
  · exact h.raise _ _ hmade
  · exact hmade

theorem furtherCrestAxle (h : EventClosed e k P) (i : SlotIx) (x : Entry) (pass : Passage) (hy : P d y) :
    P d (y.furtherCrestAxle e i x pass) := by
  have hz := h.handFurther i (h.started d _ i (fun z => { z with crestAxles := x.tally + 1 }) (fun _ => rfl)
    (h.crest d y (fun c => { c with state := .entering i { x with tally := x.tally + 1 } }) hy))
  unfold Yard.furtherCrestAxle
  dsimp only
  repeat' split
  · exact h.leaveEntering _ _ _ _ hz
  · exact h.endAbsorption hz
  · exact hz
  · exact h.startGap _ hz

theorem absorbedAxle (h : EventClosed e k P) (slot : Option SlotIx) (x : Entry) (pass : Passage) (hy : P d y) :
    P d (y.absorbedAxle e slot x pass) := by
  have hcount := h.crest d y (fun c => { c with state := .absorbing slot { x with tally := x.tally + 1 } }) hy
  have key : ∀ z, P d z → P d (if x.tally + 1 = x.target then z.endAbsorption else z.startGap e pass) := fun z hz => by
    split
    · exact h.endAbsorption hz
    · exact h.startGap _ hz
  cases slot with
  | some i => exact key _ (h.handFurther i hcount)
  | none => exact key _ (h.handUnlisted hcount)

theorem unlistedAxle (h : EventClosed e k P) (hy : P d y) : P d (y.unlistedAxle e) := h.crest _ _ _ (h.handUnlisted hy)

theorem headCut_pending {i : SlotIx} {c : Cut} (h : y.headCut = some (i, c)) : y.cutAt i = some c ∧ c.state = .pending := by
  unfold Yard.headCut at h
  split at h
  · simp only [Option.map_eq_some_iff, Option.filter_eq_some_iff, Prod.mk.injEq] at h
    obtain ⟨c', ⟨hc, hp⟩, rfl, rfl⟩ := h
    exact ⟨hc, by simpa using hp⟩
  · cases h

theorem idleAxle (h : EventClosed e k P) (pass : Passage) (hy : P d y) : P d (y.idleAxle e pass) := by
  unfold Yard.idleAxle
  split
  next hhead => exact h.startCut pass (headCut_pending hhead).1 (headCut_pending hhead).2 hy
  next hhead => exact h.startCut pass (headCut_pending hhead).1 (headCut_pending hhead).2 hy
  all_goals exact h.unlistedAxle hy

theorem crestUphill (h : EventClosed e k P) (hy : P d y) : P d (y.crestUphill e) := by
  unfold Yard.crestUphill
  exact h.rollback _ (h.crest _ _ _ hy)

theorem crestDownhill (h : EventClosed e k P) (pass : Passage) (hy : P d y) : P d (y.crestDownhill e pass) := by
  unfold Yard.crestDownhill
  split
  · exact h.furtherCrestAxle _ _ _ hy
  · exact h.absorbedAxle _ _ _ hy
  · exact h.idleAxle _ hy

theorem deliver (h : EventClosed e k P) (head : HeadIx) (pass : Passage) (hy : P d y) : P d (y.deliver e head pass) := by
  unfold Yard.deliver
  split
  · exact h.crestDownhill _ hy
  · exact h.crestUphill hy
  · exact h.downhill _ _ hy
  · exact h.downhill _ _ hy
  · exact h.rollback _ hy
  · exact h.rollback _ hy

theorem headEvent (h : EventClosed e k P) (head : HeadIx) (ev : HeadEvent) (hy : P d y) : P d (y.headEvent e head ev) := by
  cases ev with
  | nothing => exact hy
  | passage p => exact h.deliver _ _ hy
  | fault => exact h.headFault _ hy

/-! ## Short cuts and absorptions -/

theorem reexamine (h : EventClosed e k P) (i : SlotIx) (sid : SectionId) (hy : P d y) : P d (y.reexamine e i sid) := by
  unfold Yard.reexamine
  split
  next x hx =>
    split
    next hany =>
      have hne : x.occupants ≠ [] := fun hnil => by simp [hnil] at hany
      dsimp only
      split
      next hempty =>
        rw [List.isEmpty_iff.mp hempty]
        exact h.becomeClear hx hne hy
      next hleft => exact h.relisted _ _ _ _ _ hx hne (fun hnil => hleft (List.isEmpty_iff.mpr hnil)) hy
    · exact hy
  · exact hy

theorem reexamineAll (h : EventClosed e k P) (i : SlotIx) (hy : P d y) : P d (y.reexamineAll e i) := by
  have hfold : ∀ (l : List SectionId) (z : Yard), P d z → P d (l.foldl (fun w sid => w.reexamine e i sid) z) := by
    intro l
    induction l with
    | nil => exact fun _ hz => hz
    | cons sid l ih => exact fun z hz => ih _ (h.reexamine i sid hz)
  unfold Yard.reexamineAll
  dsimp only
  split
  · exact h.arrive _ _ _ (hfold _ _ hy)
  · exact hfold _ _ hy

theorem shortCut (h : EventClosed e k P) (hy : P d y) : P d (y.shortCut e) := by
  unfold Yard.shortCut
  split
  · split
    next c hc =>
      split
      next z hz =>
        split
        next hexp =>
          have hst : c.state = .entering := by
            simp only [Bool.and_eq_true, beq_iff_eq] at hexp
            exact hexp.2
          exact h.leaveEntering _ _ _ _ (h.reexamineAll _ (h.raise _ _ (h.shortened _ _ _ _ _ hc hz hst hy)))
        · exact hy
      · exact hy
    · exact hy
  · exact hy
  · exact hy

theorem absorptionEnd (h : EventClosed e k P) (hy : P d y) : P d (y.absorptionEnd e) := by
  unfold Yard.absorptionEnd
  repeat' split
  · exact h.endAbsorption hy
  all_goals exact hy

end EventClosed

end Sys2Proof.Proofs
end


section
/-! SUPPORT. Every command but reset, tick, COMMISSION, DECOMMISSION and the settings' requests, as closure under the atomic
changes of the yard: a law kept by each of them is kept by the command. -/

namespace Sys2Proof.Proofs

open Sys2Proof Sys2Proof.Machine Sys2Proof.Spec

/-- A change of the mode controller that leaves the three counts. -/
def KeepsCounts (f : ModeControl → ModeControl) : Prop :=
  ∀ m, (f m).disturbed = m.disturbed ∧ (f m).lost = m.lost ∧ (f m).stall = m.stall

/-- A point at the end of a throw or a return: its state is set, its drive released and its slot freed (R135, R136). -/
def endMotion (p : PointIx) (st : PointState) (y : Yard) : Yard :=
  let z := y.setPointState p st
  { z.releaseDrive p with slotsInUse := z.slotsInUse - 1 }

/-- RESTORE makes a point PROVED, and a LOST one is no longer counted (R140, R163). -/
def reproved (p : PointIx) (wasLost : Bool) (l : Leg) (y : Yard) : Yard :=
  if wasLost then (y.setPointState p (.proved l)).reportRestored else y.setPointState p (.proved l)

/-- The mode controller is told what a section reset has ended (R63, R163). -/
def reportReset (x : Section) (y : Yard) : Yard :=
  let z := if x.state = .disturbed then y.reportUndisturbed else y
  if x.stallFlag then z.reportUnstalled else z

/-- The atomic changes that the commands are built of, each with what is known when it is made. -/
structure LawClosed (e : Env) {D : Type} (k : Debts D) (P : D → Yard → Prop) : Prop extends EventClosed e k P where
  notices : ∀ d y f, KeepsSwitches f → P d y → P d (y.modifyNotices f)
  control : ∀ d y f, KeepsCounts f → P d y → P d (y.modifyControl f)
  detection : ∀ d y p (f : Point → Point), (∀ x, (f x).state = x.state) → P d y → P d (y.modifyPoint p f)
  ended : ∀ d y p st l st', y.pointStateOf p = some st → st.inMotion = true →
    st' = .proved l ∨ st' = .faulty l .throwFailed → P d y → P d (endMotion p st' y)
  timeout : ∀ d y p, P d y → P d (y.throwTimeout e p)
  restored : ∀ d y p st l, y.pointStateOf p = some st → st.inMotion = false → P d y → P d (reproved p st.isLost l y)
  cleared : ∀ y sid x, y.sectionOf sid = some x → x.state ≠ .clear → P k.settled y →
    P (k.forgiven x) (y.putSection sid (some x.cleared))
  excused : ∀ y x, P (k.forgiven x) y → P k.settled (reportReset x y)
  listed : ∀ d y l, P d y → P d { y with pendingList := l }
  dest : ∀ d y i dst, P d y → P d (y.modifyCut i (fun c => { c with dest := dst }))
  track : ∀ d y t f, (∀ x : Track, (f x).reserved = x.reserved ∧ (f x).capacity = x.capacity) → P d y →
    P d (y.modifyTrack t f)

variable {e : Env} {D : Type} {k : Debts D} {P : D → Yard → Prop} {d : D} {y : Yard}

namespace LawClosed

/-! ## Halt causes, line conditions -/

theorem enterCause (h : LawClosed e k P) (c : HaltCause) (hy : P d y) : P d (y.enterCause c) := by
  have hcounts : ∀ g : ModeControl → ModeControl, (∀ m, (g m).disturbed = m.disturbed ∧ (g m).lost = m.lost ∧ (g m).stall = m.stall) →
      P d (y.modifyControl g) := fun g hg => h.control _ _ g hg hy
  unfold Yard.enterCause
  split
  · exact h.raise _ _ (hcounts _ fun _ => ⟨rfl, rfl, rfl⟩)
  · exact hcounts _ fun _ => ⟨rfl, rfl, rfl⟩
  · exact hy
  · exact hy

theorem reportStop (h : LawClosed e k P) (active : Bool) (hy : P d y) : P d (y.reportStop active) := by
  have hz := h.control d y (fun m => { m with stopFlag := active }) (fun _ => ⟨rfl, rfl, rfl⟩) hy
  unfold Yard.reportStop
  dsimp only
  repeat' split
  · exact hy
  · exact h.enterCause _ hz
  · exact hz

theorem reportFreeze (h : LawClosed e k P) (active : Bool) (hy : P d y) : P d (y.reportFreeze e active) := by
  have hz := fun b => h.control d y (fun m => { m with freezeFlag := b }) (fun _ => ⟨rfl, rfl, rfl⟩) hy
  unfold Yard.reportFreeze
  repeat' split
  · exact hy
  · exact h.enterCause _ (h.raise _ _ (hz true))
  · unfold Yard.freezeEnd
    dsimp only
    split
    · exact h.raise _ _ (hz false)
    · exact (h.plan d).evaluateHeads ((h.plan d).arbitrate (h.raise _ _ (hz false)))

theorem settle (h : LawClosed e k P) (hy : P d y) : P d y.settle :=
  h.notices d (y.modifyControl (fun m => { m with permit := permitLaw y })) (fun n => { n with attn := attnLaw y.notices })
    (fun _ => ⟨rfl, rfl⟩) (h.control _ _ _ (fun _ => ⟨rfl, rfl, rfl⟩) hy)

/-! ## Points -/

theorem endThrow (h : LawClosed e k P) {p : PointIx} {st : PointState} (l : Leg) (hst : y.pointStateOf p = some st)
    (hmotion : st.inMotion = true) (hy : P d y) : P d (y.completeThrow e p l) :=
  (h.plan d).evaluate _ ((h.plan d).arbitrate (h.ended d y p st l _ hst hmotion (.inl rfl) hy))

theorem endReturn (h : LawClosed e k P) {p : PointIx} {st : PointState} (l : Leg) (hst : y.pointStateOf p = some st)
    (hmotion : st.inMotion = true) (hy : P d y) : P d (y.completeReturn e p l) :=
  (h.plan d).evaluate _ (h.raise _ _ ((h.plan d).arbitrate (h.ended d y p st l _ hst hmotion (.inr rfl) hy)))

theorem actOnDetection (h : LawClosed e k P) {p : PointIx} {st : PointState} (shown : Option Leg)
    (hst : y.pointStateOf p = some st) (hy : P d y) : P d (y.actOnDetection e p st shown) := by
  have loss : ∀ (c : FaultCause) (m l : Leg), P d (if m = l then y else y.losePoint e p c) := fun c m l => by
    split
    · exact hy
    · exact h.losePoint _ _ _ _ hy
  have throwEnd : ∀ m l : Leg, st.inMotion = true → P d (if m = l then y.completeThrow e p l else y) := fun m l hm => by
    split
    · exact h.endThrow l hst hm hy
    · exact hy
  have returnEnd : ∀ m l : Leg, st.inMotion = true → P d (if m = l then y.completeReturn e p l else y) := fun m l hm => by
    split
    · exact h.endReturn l hst hm hy
    · exact hy
  cases st with
  | proved l =>
    cases shown with
    | none => exact h.losePoint _ _ _ _ hy
    | some m => exact loss _ m l
  | moving l o t kind =>
    cases shown with
    | none => exact hy
    | some m => exact throwEnd m l rfl
  | returning l t kind =>
    cases shown with
    | none => exact hy
    | some m => exact returnEnd m l rfl
  | faulty l c =>
    cases shown with
    | none => exact h.losePoint _ _ _ _ hy
    | some m => exact loss _ m l
  | lost c => exact hy

theorem detectionChange (h : LawClosed e k P) (p : PointIx) (a b : Bool) (hy : P d y) : P d (y.detectionChange e p a b) := by
  unfold Yard.detectionChange
  split
  next x hx =>
    refine h.actOnDetection _ ?_ (h.detection _ _ _ (fun z => { z with detectN := a, detectR := b }) (fun _ => rfl) hy)
    rw [Yard.pointStateOf, Yard.pointOf_modifyPoint, if_pos rfl, hx]
    rfl
  · exact hy

theorem returnFailed (h : LawClosed e k P) (p : PointIx) (hy : P d y) : P d (y.returnFailed e p) := by
  unfold Yard.returnFailed
  repeat' split
  · exact h.losePoint _ _ _ _ hy
  · exact hy
  · exact hy

theorem restorePoint (h : LawClosed e k P) {p : PointIx} {x : Point} (l : Leg) (hx : y.pointOf p = some x)
    (hm : x.state.inMotion = false) (hy : P d y) : P d (y.restorePoint e p x.state.isLost l) :=
  (h.plan d).evaluate _ (h.restored d y p x.state l (by simp [Yard.pointStateOf, hx]) hm hy)

theorem throwInPosition (h : LawClosed e k P) {p : PointIx} {x : Point} {l : Leg} (hx : y.pointOf p = some x)
    (hlie : x.state.lie = some l) (hy : P d y) : P d (y.throwInPosition e p l) := by
  have hrest : x.state.inMotion = false ∧ x.state.isLost = false := by
    cases hst : x.state <;> simp [hst, PointState.lie, PointState.inMotion, PointState.isLost] at hlie ⊢
  have hz := h.restored d y p x.state l (by simp [Yard.pointStateOf, hx]) hrest.1 hy
  rw [hrest.2] at hz
  exact (h.plan d).evaluate _ hz

theorem throwPlaced (h : LawClosed e k P) (p : PointIx) (l : Leg) (hy : P d y) : P d (y.throwPlaced e p l) :=
  (h.plan d).arbitrate ((h.plan d).place _ _ hy)

theorem setBar (h : LawClosed e k P) (p : PointIx) (b : Bool) (hy : P d y) : P d (y.setBar p b) :=
  h.detection _ _ _ _ (fun _ => rfl) hy

theorem bar (h : LawClosed e k P) (p : PointIx) (hy : P d y) : P d (y.bar e p) :=
  (h.plan d).evaluate _ ((h.plan d).dropWaiting _ (h.setBar _ _ hy))

/-! ## Sections -/

theorem afterReset (h : LawClosed e k P) {sid : SectionId} {x : Section} (hx : y.sectionOf sid = some x) (hy : P k.settled y) :
    P k.settled (y.afterReset e sid x) := by
  unfold Yard.afterReset
  split
  · exact hy
  next hst =>
    have hloss := CascadeClosed.foldLoss (lose := fun i z => z.loseCut e i) (fun d i _ hz => h.loseCut (d := d) i hz)
      (x.occupants.map (fun o => o.slot)) (h.cleared y sid x hx hst hy)
    have htold : P (k.forgiven x) (((x.occupants.map (fun o => o.slot)).foldl (fun z i => z.loseCut e i)
        (y.putSection sid (some x.cleared))).toldClear e sid) := by
      cases sid with
      | lead => exact hloss
      | point q => exact (h.plan _).evaluate q hloss
    exact h.excused _ x htold

/-! ## Cuts and the pending list -/

theorem clearNotice (h : LawClosed e k P) (key : NoticeKey) (hy : P d y) : P d (y.clearNotice key) :=
  h.notices _ _ _ (putReasons_keepsSwitches key fun _ => 0) hy

theorem append (h : LawClosed e k P) {i : SlotIx} {r : Record} (hfree : y.freeSlot = some i)
    (hr : ∀ c, r = .cut c → c.onLadder = false) (hy : P d y) : P d (y.append i r) := by
  have hnone : Table.look y.slots i = none := by
    simpa using List.find?_some hfree
  have hz := h.clearNotice (.cut i) (h.slot d _ i (some r) (fun c hc => by simp [Yard.cutAt, hnone] at hc)
    (fun c hc => hr c (Option.some.inj hc)) (h.listed _ _ (y.pendingList ++ [i]) hy))
  unfold Yard.append
  dsimp only
  split
  · exact h.judgeMarker hz
  · exact hz

theorem withdrawSlot (h : LawClosed e k P) {i : SlotIx} (hi : ∀ c, y.cutAt i = some c → c.state = .pending) (hy : P d y) :
    P d (y.withdrawSlot i) := by
  have hz := h.clearNotice (.cut i) (h.slot d _ i none (fun c hc => by simp [Cut.onLadder, hi c hc])
    (fun c hc => by cases hc) (h.listed _ _ (y.pendingList.filter (fun j => !(j == i))) hy))
  unfold Yard.withdrawSlot
  dsimp only
  split
  · exact h.judgeMarker hz
  · exact hz

theorem retireSlot (h : LawClosed e k P) {i : SlotIx} {c : Cut} (hc : y.cutAt i = some c)
    (hst : c.state = .arrived ∨ c.state = .lost) (hy : P d y) : P d (y.retireSlot i) := by
  unfold Yard.retireSlot Yard.forgetSlot
  refine h.crest _ _ _ (h.clearNotice _ (h.slot _ _ i none (fun c' hc' => ?_) (fun c hc => by cases hc) hy))
  obtain rfl : c = c' := Option.some.inj (hc.symm.trans hc')
  rcases hst with hst | hst <;> simp [Cut.onLadder, hst]

theorem amendPending (h : LawClosed e k P) {i : SlotIx} {c : Cut} (dst : Option Destination) (n : Option Nat)
    (hc : y.cutAt i = some c) (hst : c.state = .pending) (hy : P d y) : P d (y.modifyCut i (amendedCut dst n)) := by
  unfold Yard.modifyCut
  rw [hc]
  refine h.slot _ _ _ _ (fun c' hc' => ?_) (fun c' hc' => ?_) hy
  · obtain rfl : c = c' := Option.some.inj (hc.symm.trans hc')
    simp [Cut.onLadder, hst]
  · cases hc'
    simp [amendedCut, Cut.onLadder, hst]

theorem routeChanged (h : LawClosed e k P) (i : SlotIx) (hy : P d y) : P d (y.routeChanged e i) := by
  unfold Yard.routeChanged
  repeat' split
  · exact (h.plan d).evaluate _ hy
  · exact hy
  · exact hy

theorem amendStarted (h : LawClosed e k P) (i : SlotIx) (dst : Destination) (t : TrackIx) (c : Option ResolutionCause)
    (b : TrackIx) (hy : P d y) : P d (y.amendStarted e i dst t c b) := by
  have hz := h.dest d y i dst hy
  unfold Yard.amendStarted
  dsimp only
  split
  · exact hz
  · exact h.routeChanged _ (h.raise _ _ (h.reroute _ _ _ _ _ hz))

end LawClosed

/-! ## Every command -/

/-- The requests that replace a setting of the yard: map, windows, a capacity, the attention switches. -/
def Setting (c : Instr) : Prop :=
  (∃ e v k n r, c = .setMap e v k n r) ∨ (∃ w f l, c = .setWindow w f l) ∨ (∃ k n, c = .setTrack k n) ∨
    ∃ a b d e f m, c = .setAttention a b d e f m

variable {s u : State} {c : Instr}

theorem takeTransitions_kept (h : LawClosed s.env k P) (q : Consumer) (hy : P d s.yard) : P d (s.takeTransitions q).yard := by
  cases q with
  | head head => exact h.settle (h.headEvent head _ hy)
  | point p => exact h.settle (h.detectionChange p _ _ hy)
  | stop => exact h.settle (h.reportStop _ hy)
  | freeze => exact h.settle (h.reportFreeze _ hy)
  | nobody => exact hy

/-- A closed property is kept by every effect of a command that neither makes nor removes the ladder nor replaces a
setting. -/
theorem Effect.kept (hu : Effect s c u) (h : LawClosed s.env k P) (hc : c ≠ .commission) (hc' : c ≠ .decommission)
    (hset : Setting c → P k.settled s.yard → P k.settled u.yard) (hy : P k.settled s.yard) : P k.settled u.yard := by
  have humping : ∀ m, P k.settled (s.withYard (s.yard.enterMode m)).yard := fun m =>
    h.settle (h.control _ _ _ (fun _ => ⟨rfl, rfl, rfl⟩) hy)
  cases hu with
  | same => exact hy
  | transition line _ => exact takeTransitions_kept h _ hy
  | bothActive head _ => exact h.settle (h.headFault head hy)
  | stall sid => exact h.settle (h.stalled _ _ sid hy)
  | shortCut => exact h.settle (h.shortCut hy)
  | absorptionEnd => exact h.settle (h.absorptionEnd hy)
  | throwTimeout p => exact h.settle (h.timeout _ _ p hy)
  | returnFailed p => exact h.settle (h.returnFailed p hy)
  | deadlineExpiry p => exact h.settle ((h.plan _).deadlineExpiry p hy)
  | setPoint | setYard => exact hy
  | setLine => exact h.settle (h.reportFreeze _ (h.reportStop _ hy))
  | commission => exact absurd rfl hc
  | decommission => exact absurd rfl hc'
  | start => exact humping _
  | resume => exact humping _
  | stop => exact h.settle (h.enterCause _ hy)
  | finish => exact humping _
  | enter n kind value axles i c hfree hst =>
    exact h.settle (h.append hfree (fun c' hc' => by cases hc'; simp [Cut.onLadder, hst]) hy)
  | hold n i hfree => exact h.settle (h.append hfree (fun c' hc' => by cases hc') hy)
  | amendPending n sel kind value axles i c dst ax hx hst => exact h.settle (h.amendPending _ _ hx hst hy)
  | amendStarted => exact h.settle (h.amendStarted _ _ _ _ _ hy)
  | withdraw n i hi => exact h.settle (h.withdrawSlot hi hy)
  | retire n i c hx hst => exact h.settle (h.retireSlot hx hst hy)
  | setMap => exact hset (.inl ⟨_, _, _, _, _, rfl⟩) hy
  | setWindow => exact hset (.inr (.inl ⟨_, _, _, rfl⟩)) hy
  | setTrack => exact hset (.inr (.inr (.inl ⟨_, _, rfl⟩))) hy
  | setAttention => exact hset (.inr (.inr (.inr ⟨_, _, _, _, _, _, rfl⟩))) hy
  | setFill | pull => exact h.settle (h.track _ _ _ _ (fun _ => ⟨rfl, rfl⟩) hy)
  | throwInPosition point leg p x l _ hx hlie => exact h.settle (h.throwInPosition hx hlie hy)
  | throwPlaced => exact h.settle (h.throwPlaced _ _ hy)
  | bar => exact h.settle (h.bar _ hy)
  | unbar => exact h.settle ((h.plan _).evaluate _ (h.setBar _ _ hy))
  | restore point p x l _ hx hm => exact h.settle (h.restorePoint l hx hm hy)
  | resetSection selector sid x _ hx _ => exact h.settle (h.afterReset hx hy)
  | ack cls index reasons key left => exact h.settle (h.notices _ _ _ (putReasons_keepsSwitches key fun _ => left) hy)

end Sys2Proof.Proofs
end


section
/-! SUPPORT. What the arbiter, the planner and the loss of a point do to points, drive lines and drive slots, and the closure
of properties that read these alone. -/

namespace Sys2Proof.Proofs

open Sys2Proof Sys2Proof.Machine Sys2Proof.Spec

variable {e : Env} {y z : Yard}

/-! ## What a diversion leaves alone -/

/-- Points, drive lines, drive slots and the waiting list are the same. -/
structure SameDrives (y z : Yard) : Prop where
  points : z.points = y.points
  drive : z.drive = y.drive
  slotsInUse : z.slotsInUse = y.slotsInUse
  waiting : z.waiting = y.waiting

theorem sameDrives_refl (y : Yard) : SameDrives y y := ⟨rfl, rfl, rfl, rfl⟩

theorem SameDrives.trans {x : Yard} (h : SameDrives x y) (k : SameDrives y z) : SameDrives x z :=
  ⟨k.points.trans h.points, k.drive.trans h.drive, k.slotsInUse.trans h.slotsInUse, k.waiting.trans h.waiting⟩

theorem sameDrives_modifyCut (i : SlotIx) (f : Cut → Cut) (y : Yard) : SameDrives y (y.modifyCut i f) :=
  ⟨by simp, by simp, by simp, by simp⟩

theorem sameDrives_modifyStarted (i : SlotIx) (f : Started → Started) (y : Yard) : SameDrives y (y.modifyStarted i f) :=
  sameDrives_modifyCut i _ y

theorem sameDrives_modifyPlan (q : PointIx) (f : Plan → Plan) (y : Yard) : SameDrives y (y.modifyPlan q f) :=
  ⟨by simp, by simp, by simp, by simp⟩

theorem sameDrives_reroute (i : SlotIx) (t : TrackIx) (cause : Option ResolutionCause) (y : Yard) :
    SameDrives y (y.reroute e i t cause) := by
  unfold Yard.reroute
  repeat' split
  · exact sameDrives_refl y
  · exact sameDrives_modifyStarted _ _ _
  next c _ _ x _ _ _ =>
    have h := sameDrives_modifyStarted i (fun z => { z with resolved := t, route := e.ladder.routeOf t, cause := cause })
      ((y.release x.resolved c.axles).reserve t c.axles)
    exact ⟨h.points, h.drive, h.slotsInUse, h.waiting⟩
  · exact sameDrives_refl y
  · exact sameDrives_refl y

theorem sameDrives_divertInto (i : SlotIx) (q : PointIx) (l : Leg) (c : DiversionCause) (y : Yard) :
    SameDrives y (y.divertInto e i q l c) := by
  unfold Yard.divertInto
  split
  next x t _ _ =>
    have h := (sameDrives_reroute (e := e) i t none y).trans (sameDrives_modifyStarted i
      (fun z => { z with diversions := addDiversion q c x.resolved z.diversions }) _)
    exact ⟨h.points, h.drive, h.slotsInUse, h.waiting⟩
  · exact sameDrives_refl y

theorem sameDrives_divertEarly (q : PointIx) (i : SlotIx) (c : DiversionCause) (y : Yard) :
    SameDrives y (y.divertEarly e q i c) := by
  unfold Yard.divertEarly
  split
  · exact (sameDrives_divertInto _ _ _ _ y).trans (sameDrives_modifyPlan _ _ _)
  · exact sameDrives_refl y

theorem sameDrives_expireEntry (w : Waiting) (c : DiversionCause) (y : Yard) : SameDrives y (y.expireEntry e w c) := by
  unfold Yard.expireEntry
  split
  · exact sameDrives_divertEarly _ _ _ y
  · exact sameDrives_refl y

theorem sameDrives_arrive (i : SlotIx) (y : Yard) : SameDrives y (y.arrive e i) := by
  unfold Yard.arrive
  repeat' split
  · refine ⟨?_, ?_, ?_, ?_⟩
    all_goals unfold Yard.account; dsimp only; split <;> simp
  all_goals exact sameDrives_refl y

/-! ## A grant -/

theorem grantPlanned_sameDrives (w : Waiting) (y : Yard) : SameDrives y (y.grantPlanned w) := by
  unfold Yard.grantPlanned
  split
  · exact sameDrives_modifyPlan _ _ _
  · exact sameDrives_refl y

/-- The yard with a slot taken and the point of an entry MOVING from its lie, its drive energised (R132). -/
theorem grant_of_lie {w : Waiting} {origin : Leg} (h : y.pointLie w.point = some origin) :
    y.grant e w =
      ((({ y with slotsInUse := y.slotsInUse + 1 }).setPointState w.point
        (.moving w.target origin (after e.now (e.throwTicks w.point)) w.claim.kind)).energise w.point w.target).grantPlanned
          w := by
  rw [Yard.grant, h]

theorem lie_of_eligible {w : Waiting} (h : y.eligible w = true) : ∃ origin, y.pointLie w.point = some origin := by
  simp only [Yard.eligible, Bool.and_eq_true] at h
  exact Option.isSome_iff_exists.mp h.1.1

theorem clear_of_eligible {w : Waiting} (h : y.eligible w = true) : y.sectionState (.point w.point) = some .clear := by
  simp only [Yard.eligible, Bool.and_eq_true] at h
  simpa [Yard.sectionClear] using h.2

theorem pointStateOf_congr (h : z.points = y.points) (p : PointIx) : z.pointStateOf p = y.pointStateOf p := by
  rw [Yard.pointStateOf, Yard.pointStateOf, Yard.pointOf_congr h]

theorem pointStateOf_grant {w : Waiting} {origin : Leg} (h : y.pointLie w.point = some origin) (p : PointIx) :
    (y.grant e w).pointStateOf p =
      if w.point = p then some (.moving w.target origin (after e.now (e.throwTicks w.point)) w.claim.kind)
      else y.pointStateOf p := by
  rw [grant_of_lie h, pointStateOf_congr (grantPlanned_sameDrives w _).points, pointStateOf_congr (z := Yard.energise _ _ _) (Yard.energise_points _ _ _),
    Yard.pointStateOf_setPointState]
  split
  next heq =>
    subst heq
    cases hp : y.pointOf w.point with
    | none => simp [Yard.pointLie, hp] at h
    | some x =>
      have hx : ({ y with slotsInUse := y.slotsInUse + 1 } : Yard).pointOf w.point = some x := hp
      simp [Yard.pointStateOf, hx]
  · rfl

theorem drive_grant {w : Waiting} {origin : Leg} (h : y.pointLie w.point = some origin) (p : PointIx) (l : Leg) :
    Table.look (y.grant e w).drive (driveLine p l) =
      if w.point = p then w.target == l else Table.look y.drive (driveLine p l) := by
  rw [grant_of_lie h, (grantPlanned_sameDrives w _).drive, Yard.look_energise]
  simp

theorem slotsInUse_grant {w : Waiting} {origin : Leg} (h : y.pointLie w.point = some origin) :
    (y.grant e w).slotsInUse = y.slotsInUse + 1 := by
  rw [grant_of_lie h, (grantPlanned_sameDrives w _).slotsInUse]
  simp

theorem waiting_grant (w : Waiting) (y : Yard) : (y.grant e w).waiting = y.waiting := by
  cases h : y.pointLie w.point with
  | none => rw [Yard.grant, h]
  | some origin =>
    rw [grant_of_lie h, (grantPlanned_sameDrives w _).waiting]
    simp

theorem pointOf_grant_of_ne {w : Waiting} {p : PointIx} (h : w.point ≠ p) : (y.grant e w).pointOf p = y.pointOf p := by
  cases hl : y.pointLie w.point with
  | none => rw [Yard.grant, hl]
  | some origin =>
    rw [grant_of_lie hl, Yard.pointOf_congr (grantPlanned_sameDrives w _).points, Yard.pointOf_congr (Yard.energise_points _ _ _),
      Yard.setPointState, Yard.pointOf_modifyPoint, if_neg h]
    rfl

/-! ## A point without an entry is left alone by the arbiter -/

/-- No entry of the waiting list is the point's. -/
def Absent (p : PointIx) (y : Yard) : Prop := ∀ w ∈ y.waiting, w.point ≠ p

theorem absent_removeWaiting (p : PointIx) (y : Yard) : Absent p (y.removeWaiting p) :=
  fun w hw => ((Yard.mem_removeWaiting p w y).mp hw).2

theorem Absent.of_waiting {p : PointIx} (h : Absent p y) (hz : z.waiting = y.waiting) : Absent p z := by
  rwa [Absent, hz]

theorem pointOf_arbiter_of_absent {p : PointIx} (n : Nat) (h : Absent p y) : (y.arbiter e n).pointOf p = y.pointOf p := by
  induction n generalizing y with
  | zero => rfl
  | succ n ih =>
    unfold Yard.arbiter
    split
    · split
      · rfl
      next w rest hw =>
        have hrest : Absent p { y with waiting := rest } := fun v hv => h v (by rw [hw]; exact List.mem_cons_of_mem _ hv)
        have hne : w.point ≠ p := h w (by rw [hw]; exact List.mem_cons_self)
        split
        · have hsame := sameDrives_expireEntry (e := e) w .late { y with waiting := rest }
          rw [ih (hrest.of_waiting hsame.waiting), Yard.pointOf_congr hsame.points]
          rfl
        · split
          · rw [ih (hrest.of_waiting (waiting_grant w _)), pointOf_grant_of_ne hne]
            rfl
          · rfl
    · rfl

theorem pointOf_arbitrate_of_absent {p : PointIx} (h : Absent p y) : (y.arbitrate e).pointOf p = y.pointOf p :=
  pointOf_arbiter_of_absent _ h

theorem pointOf_dropWaiting (p : PointIx) (y : Yard) : (y.dropWaiting e p).pointOf p = y.pointOf p := by
  unfold Yard.dropWaiting
  split
  · exact pointOf_arbitrate_of_absent (absent_removeWaiting p y)
  · rfl

theorem pointOf_cancelManual (p : PointIx) (y : Yard) : (y.cancelManual e p).pointOf p = y.pointOf p := by
  unfold Yard.cancelManual
  split
  · exact pointOf_arbitrate_of_absent (y := (y.removeWaiting p).raisePoint p .manualCancelled)
      ((absent_removeWaiting p y).of_waiting (Yard.raisePoint_waiting p .manualCancelled (y.removeWaiting p)))
  · rfl

theorem pointOf_dropLost (p : PointIx) (y : Yard) : (y.dropLost e p).pointOf p = y.pointOf p := by
  unfold Yard.dropLost
  split
  · exact pointOf_dropWaiting p y
  · exact pointOf_cancelManual p y
  · rfl

theorem pointOf_sectionNotClear (p : PointIx) (y : Yard) : (y.sectionNotClear e p).pointOf p = y.pointOf p := by
  unfold Yard.sectionNotClear
  split
  · have hsame := sameDrives_modifyPlan p (fun r => { r with state := .waitingClear }) (y.removeWaiting p)
    rw [pointOf_arbitrate_of_absent ((absent_removeWaiting p y).of_waiting hsame.waiting), Yard.pointOf_congr hsame.points]
    rfl
  · exact pointOf_cancelManual p y
  · rfl

/-! ## Properties of point states, drive lines and slots -/

/-- The yards agree in point states, drive lines and slots in use. -/
structure SameMotion (y z : Yard) : Prop where
  state : ∀ p, z.pointStateOf p = y.pointStateOf p
  drive : z.drive = y.drive
  slotsInUse : z.slotsInUse = y.slotsInUse

theorem sameMotion_of_fields (hpoints : z.points = y.points) (hdrive : z.drive = y.drive) (hslots : z.slotsInUse = y.slotsInUse) :
    SameMotion y z := ⟨pointStateOf_congr hpoints, hdrive, hslots⟩

theorem SameDrives.sameMotion (h : SameDrives y z) : SameMotion y z := sameMotion_of_fields h.points h.drive h.slotsInUse

/-- The drive of a point is released and its slot freed (R128 step 1). -/
def releaseSlot (p : PointIx) (y : Yard) : Yard := { y.releaseDrive p with slotsInUse := y.slotsInUse - 1 }

/-- A property of point states, drive lines and slots in use that grants and the ends of motions keep; `L p` is what holds
while the drive of the point p is released and its slot freed, and p has not yet left its motion (R128). -/
structure MotionClosed (e : Env) (P : Yard → Prop) (L : PointIx → Yard → Prop) : Prop where
  congr : ∀ {y z}, SameMotion y z → P y → P z
  congr_limbo : ∀ {y z p}, SameMotion y z → L p y → L p z
  moves : ∀ {y p}, L p y → y.pointInMotion p = true
  grant : ∀ {y w origin}, y.pointLie w.point = some origin → y.slotsInUse < e.ladder.consts.slots → P y → P (y.grant e w)
  grant_limbo : ∀ {y w origin p}, y.pointLie w.point = some origin → w.point ≠ p →
    y.slotsInUse < e.ladder.consts.slots → L p y → L p (y.grant e w)
  release : ∀ {y p}, y.pointInMotion p = true → P y → L p (releaseSlot p y)
  land : ∀ {y p st}, st.inMotion = false → L p y → P (y.setPointState p st)
  rest : ∀ {y p st}, y.pointInMotion p = false → st.inMotion = false → P y → P (y.setPointState p st)
  timeout : ∀ {y p}, P y → P (y.throwTimeout e p)

variable {P : Yard → Prop} {L : PointIx → Yard → Prop}

theorem planClosed_of_motion (hcongr : ∀ {y z}, SameMotion y z → P y → P z)
    (hgrant : ∀ y w origin, y.pointLie w.point = some origin → y.slotsInUse < e.ladder.consts.slots → P y → P (y.grant e w)) :
    PlanClosed e P where
  plan _ q f := hcongr (sameDrives_modifyPlan q f _).sameMotion
  speed _ i n := hcongr (sameDrives_modifyStarted i _ _).sameMotion
  remove _ _ := hcongr (sameMotion_of_fields rfl rfl rfl)
  pop y _ _ hy _ := hcongr (y := y) (sameMotion_of_fields rfl rfl rfl) hy
  place y w := hcongr (by unfold Yard.placeWaiting; split <;> exact sameMotion_of_fields rfl rfl rfl)
  divert _ i q l c := hcongr (sameDrives_divertInto i q l c _).sameMotion
  cancelled _ _ := hcongr (sameMotion_of_fields rfl rfl rfl)
  grant y w hy hslot _ hel := (lie_of_eligible hel).elim fun origin hl => hgrant y w origin hl hslot hy

theorem notMoving_of_lie {p : PointIx} {l : Leg} (h : y.pointLie p = some l) : y.pointInMotion p = false := by
  cases hp : y.pointOf p with
  | none => simp [Yard.pointLie, hp] at h
  | some x => cases hst : x.state <;> simp_all [Yard.pointLie, Yard.pointInMotion, PointState.lie, PointState.inMotion]

theorem pointInMotion_iff (y : Yard) (p : PointIx) : y.pointInMotion p = true ↔ ∃ st, y.pointStateOf p = some st ∧ st.inMotion = true := by
  cases hp : y.pointOf p <;> simp [Yard.pointInMotion, Yard.pointStateOf, hp]

theorem pointInMotion_congr {p : PointIx} (h : z.pointStateOf p = y.pointStateOf p) : z.pointInMotion p = y.pointInMotion p := by
  rw [Bool.eq_iff_iff, pointInMotion_iff, pointInMotion_iff, h]

namespace MotionClosed

theorem plan (h : MotionClosed e P L) : PlanClosed e P := planClosed_of_motion h.congr fun _ _ _ => h.grant

theorem plan_limbo (h : MotionClosed e P L) (p : PointIx) : PlanClosed e (L p) :=
  planClosed_of_motion h.congr_limbo fun y w origin hl hslot hy => h.grant_limbo hl
    (fun heq => by
      have hm := h.moves hy
      rw [← heq, notMoving_of_lie hl] at hm
      cases hm) hslot hy

theorem losePoint (h : MotionClosed e P L) (p : PointIx) (c : FaultCause) (hy : P y) : P (y.losePoint e p c) := by
  have finish : ∀ a : Yard, P (a.setPointState p (.lost c)) →
      P ((((a.setPointState p (.lost c)).raisePoint p .lost).reportLost).evaluate e p) := fun a ha => by
    refine h.plan.evaluate p (h.congr (sameMotion_of_fields ?_ ?_ ?_) ha) <;> simp
  unfold Yard.losePoint
  dsimp only
  split
  next x hx =>
    split
    · exact hy
    · refine finish _ ?_
      split
      next hm =>
        have hmoves : y.pointInMotion p = true := by simp [Yard.pointInMotion, hx, hm]
        exact h.land rfl ((h.plan_limbo p).dropLost p ((h.plan_limbo p).arbitrate (h.release hmoves hy)))
      next hm =>
        have hrests : (y.dropLost e p).pointInMotion p = false := by
          rw [Yard.pointInMotion, pointOf_dropLost, hx]
          simpa using hm
        exact h.rest hrests rfl (h.plan.dropLost p hy)
  · exact hy

theorem endMotion_eq (p : PointIx) (st : PointState) (y : Yard) : endMotion p st y = (releaseSlot p y).setPointState p st := by
  unfold endMotion releaseSlot Yard.setPointState Yard.modifyPoint
  have hp : ({ y.releaseDrive p with slotsInUse := y.slotsInUse - 1 } : Yard).pointOf p = y.pointOf p := rfl
  rw [hp]
  cases y.pointOf p <;> rfl

theorem sameMotion_setPoint {p : PointIx} (f : Point → Point) (hf : ∀ x, (f x).state = x.state) (y : Yard) :
    SameMotion y (y.modifyPoint p f) := by
  refine ⟨fun q => ?_, by simp, by simp⟩
  rw [Yard.pointStateOf, Yard.pointStateOf, Yard.pointOf_modifyPoint]
  split
  · cases y.pointOf q <;> simp [hf]
  · rfl

/-- Such a property is kept by everything the commands do. -/
theorem lawClosed (h : MotionClosed e P L) : LawClosed e noDebts (fun (_ : Unit) => P) := by
  have keep : ∀ {y z : Yard}, z.points = y.points → z.drive = y.drive → z.slotsInUse = y.slotsInUse → P y → P z :=
    fun hp hd hs => h.congr (sameMotion_of_fields hp hd hs)
  have told : ∀ (y : Yard) sid, P y → P (y.sectionTold e sid) := fun y sid hy => by
    unfold Yard.sectionTold
    repeat' split
    · exact hy
    · exact h.losePoint _ _ hy
    · exact h.plan.sectionNotClear _ hy
  have report : ∀ x (y : Yard), SameMotion y (reportReset x y) := fun x y => by
    unfold reportReset
    dsimp only
    repeat' split
    all_goals exact sameMotion_of_fields rfl rfl rfl
  have reproved : ∀ (y : Yard) p b l, SameMotion (y.setPointState p (.proved l)) (reproved p b l y) := fun y p b l => by
    unfold Proofs.reproved
    split
    all_goals exact sameMotion_of_fields rfl rfl rfl
  exact {
    plan := fun _ => h.plan
    losePoint := fun _ y p c => h.losePoint p c
    notices := fun _ y f _ => keep rfl rfl rfl
    raised := fun _ y _ _ => keep rfl rfl rfl
    queue := fun _ y q l _ => keep rfl rfl rfl
    joined := fun _ y q l => keep rfl rfl rfl
    absorbed := fun _ y j x _ => keep rfl rfl rfl
    crest := fun _ y f => keep rfl rfl rfl
    mark := fun _ y c sid _ => keep (by simp [Yard.markDisturbed]) (by simp [Yard.markDisturbed]) (by simp [Yard.markDisturbed])
    told := fun _ y sid hy => keep (by simp) (by simp) (by simp) (told y sid hy)
    strike := fun _ y sid i _ => keep (by simp) (by simp) (by simp)
    lost := fun _ y i c _ _ => h.congr (sameDrives_modifyCut i _ y).sameMotion
    release := fun _ y c hy => by
      unfold Yard.releaseLost
      split
      next x _ => exact keep (y := y) (z := y.release x.resolved c.axles) rfl rfl rfl hy
      · exact hy
    started := fun _ y i f _ => h.congr (sameDrives_modifyStarted i f y).sameMotion
    reroute := fun _ y i t c => h.congr (sameDrives_reroute i t c y).sameMotion
    arrive := fun _ y i => h.congr (sameDrives_arrive i y).sameMotion
    rawCount := fun _ y sid f _ => keep (by simp) (by simp) (by simp)
    occupied := fun _ y sid i _ => keep (by simp) (by simp) (by simp)
    axle := fun _ y p hy => by
      unfold Yard.axleAtPoint
      split
      · exact h.losePoint _ _ hy
      · exact hy
    credit := fun _ y sid i _ _ => keep (by simp [Yard.credit]) (by simp [Yard.credit]) (by simp [Yard.credit])
    emptied := fun _ y sid x _ _ => keep (by simp [emptied]) (by simp [emptied]) (by simp [emptied])
    relisted := fun _ y sid x l _ _ _ => keep (by simp) (by simp) (by simp)
    restarted := fun _ y sid x _ _ => keep (by simp [Yard.restartStall]) (by simp [Yard.restartStall]) (by simp [Yard.restartStall])
    stalled := fun _ y sid hy => by
      unfold Yard.stallExpired
      repeat' split
      · exact keep (by simp) (by simp) (by simp) hy
      all_goals exact hy
    slot := fun _ y i r _ _ => keep rfl rfl rfl
    rolling := fun _ y i => h.congr (sameDrives_modifyCut i _ y).sameMotion
    begun := fun _ y i c x l _ _ => keep rfl rfl rfl
    shortened := fun _ y i c x _ _ _ => keep rfl rfl rfl
    control := fun _ y f _ => keep rfl rfl rfl
    detection := fun _ y p f hf => h.congr (sameMotion_setPoint f hf y)
    ended := fun _ y p st l st' hst hm hst' hy => by
      rw [endMotion_eq]
      refine h.land ?_ (h.release ((pointInMotion_iff y p).mpr ⟨st, hst, hm⟩) hy)
      rcases hst' with rfl | rfl <;> rfl
    timeout := fun _ y p => h.timeout
    restored := fun _ y p st l hst hm hy => by
      refine h.congr (reproved y p st.isLost l) (h.rest ?_ rfl hy)
      rw [← Bool.not_eq_true, pointInMotion_iff]
      rintro ⟨st', hst', hm'⟩
      rw [hst, Option.some.injEq] at hst'
      rw [hst', hm'] at hm
      cases hm
    cleared := fun y sid x _ _ => keep (by simp) (by simp) (by simp)
    excused := fun y x => h.congr (report x y)
    listed := fun _ y l => keep rfl rfl rfl
    dest := fun _ y i dst => h.congr (sameDrives_modifyCut i _ y).sameMotion
    track := fun _ y t f _ => keep rfl rfl rfl }

end MotionClosed

end Sys2Proof.Proofs
end


section
/-! PROOFS. The laws of point control (R125, R129, R130): every step keeps the drive lines in agreement with the point
states, the drive slots counted, and no point in motion whose section is not CLEAR. -/

namespace Sys2Proof.Proofs

open Sys2Proof Sys2Proof.Machine Sys2Proof.Spec

/-! ## Sums and counts that change in one place -/

/-- A sum over a list without repetition changes by what it changes at one place. -/
theorem sum_change_one {α : Type} {l : List α} (hl : l.Nodup) {p : α} (hp : p ∈ l) {f g : α → Nat}
    (h : ∀ q, q ≠ p → g q = f q) : (l.map g).sum + f p = (l.map f).sum + g p := by
  induction l with
  | nil => cases hp
  | cons a l ih =>
    obtain ⟨ha, hl⟩ := List.nodup_cons.mp hl
    rcases List.mem_cons.mp hp with rfl | hp
    · have hrest : l.map g = l.map f := List.map_congr_left fun q hq => h q (fun heq => ha (heq ▸ hq))
      simp only [List.map_cons, List.sum_cons, hrest]
      omega
    · have hne : a ≠ p := fun heq => ha (heq ▸ hp)
      have hsum := ih hl hp
      simp only [List.map_cons, List.sum_cons, h a hne]
      omega

theorem length_filter_eq_sum {α : Type} (l : List α) (f : α → Bool) :
    (l.filter f).length = (l.map (fun a => (f a).toNat)).sum := by
  induction l with
  | nil => rfl
  | cons a l ih => cases h : f a <;> simp [h, ih, Nat.add_comm]

/-- A count over a list without repetition changes by what it changes at one place. -/
theorem count_change_one {α : Type} {l : List α} (hl : l.Nodup) {p : α} (hp : p ∈ l) {f g : α → Bool}
    (h : ∀ q, q ≠ p → g q = f q) :
    (l.filter g).length + (f p).toNat = (l.filter f).length + (g p).toNat := by
  rw [length_filter_eq_sum, length_filter_eq_sum]
  exact sum_change_one (f := fun a => (f a).toNat) (g := fun a => (g a).toNat) hl hp (fun q hq => by rw [h q hq])

variable {e : Env} {y z : Yard} {p : PointIx}

theorem pointStateOf_setPointState_of_ne {q : PointIx} {st : PointState} (h : p ≠ q) (y : Yard) :
    (y.setPointState p st).pointStateOf q = y.pointStateOf q := by
  rw [Yard.pointStateOf_setPointState, if_neg h]

/-- What THROW_TIMEOUT makes of a yard: nothing, or a MOVING point RETURNING with its drive turned (R136). -/
theorem throwTimeout_cases (e : Env) (p : PointIx) (y : Yard) :
    y.throwTimeout e p = y ∨ ∃ target origin t kind t', y.pointStateOf p = some (.moving target origin t kind) ∧
      y.throwTimeout e p = (y.energise p origin).setPointState p (.returning origin t' kind) := by
  unfold Yard.throwTimeout
  split
  next target origin t kind hst =>
    split
    · exact .inr ⟨target, origin, t, kind, _, hst, rfl⟩
    · exact .inl rfl
  · exact .inl rfl

/-! ## Drive lines (R129) -/

/-- The level that a point's state gives the drive line toward a leg; de-energised where there is no point. -/
def drivesOf (y : Yard) (p : PointIx) (l : Leg) : Bool := ((y.pointStateOf p).map (fun st => st.drives l)).getD false

/-- Every drive line has the level that its point's state gives it. -/
def DrivesAgree (y : Yard) : Prop := ∀ p l, Table.look y.drive (driveLine p l) = drivesOf y p l

theorem driveLaw_iff (s : State) : s.DriveLaw ↔ DrivesAgree s.yard := by
  refine forall_congr' fun p => forall_congr' fun l => ?_
  cases hst : s.yard.pointStateOf p <;> simp [drivesOf, hst]

/-- The drive of one point in motion is released; every other drive line agrees. -/
def DrivesAgreeBut (p : PointIx) (y : Yard) : Prop :=
  y.pointInMotion p = true ∧ ∀ q l, Table.look y.drive (driveLine q l) = if q = p then false else drivesOf y q l

theorem drives_of_rest {st : PointState} (h : st.inMotion = false) (l : Leg) : st.drives l = false := by
  cases st <;> simp_all [PointState.inMotion, PointState.drives]

theorem drivesOf_congr (h : z.pointStateOf p = y.pointStateOf p) (l : Leg) : drivesOf z p l = drivesOf y p l := by
  rw [drivesOf, drivesOf, h]

theorem drivesOf_setPointState {q : PointIx} {st : PointState} (l : Leg) :
    drivesOf (y.setPointState p st) q l =
      if p = q then ((y.pointStateOf q).isSome && st.drives l) else drivesOf y q l := by
  unfold drivesOf
  rw [Yard.pointStateOf_setPointState]
  split
  · cases y.pointStateOf q <;> simp
  · rfl

theorem drivesOf_of_rest (h : y.pointInMotion p = false) (l : Leg) : drivesOf y p l = false := by
  unfold drivesOf
  cases hst : y.pointStateOf p with
  | none => rfl
  | some st =>
    refine drives_of_rest ?_ l
    rw [← Bool.not_eq_true]
    intro hm
    rw [(pointInMotion_iff y p).mpr ⟨st, hst, hm⟩] at h
    cases h

theorem drive_setPointState (st : PointState) (y : Yard) : (y.setPointState p st).drive = y.drive := by simp

theorem motionClosed_drives (e : Env) : MotionClosed e DrivesAgree DrivesAgreeBut where
  congr h hy p l := by rw [h.drive, hy p l, drivesOf_congr (h.state p)]
  congr_limbo h hy := by
    refine ⟨(pointInMotion_congr (h.state _)).trans hy.1, fun q l => ?_⟩
    rw [h.drive, hy.2 q l, drivesOf_congr (h.state q)]
  moves h := h.1
  grant hl _ hy q l := by
    rw [drive_grant hl, hy q l, drivesOf, drivesOf, pointStateOf_grant hl]
    split <;> rfl
  grant_limbo {y w origin p} hl hne _ hy := by
    refine ⟨?_, fun q l => ?_⟩
    · rw [pointInMotion_congr (y := y) (by rw [pointStateOf_grant hl, if_neg hne])]
      exact hy.1
    · rw [drive_grant hl, hy.2 q l, drivesOf, drivesOf, pointStateOf_grant hl]
      by_cases hq : q = p
      · subst hq
        simp [hne]
      · simp only [hq, if_false]
        split <;> rfl
  release {y p} hm hy := by
    refine ⟨hm, fun q l => ?_⟩
    rw [releaseSlot, Yard.look_releaseDrive, hy q l]
    by_cases hq : q = p
    · simp [hq]
    · simp only [hq, Ne.symm hq, if_false]
      rfl
  land {y p st} hst hy q l := by
    rw [drive_setPointState, hy.2 q l, drivesOf_setPointState, drives_of_rest hst, Bool.and_false]
    by_cases hq : q = p
    · simp [hq]
    · simp [hq, Ne.symm hq]
  rest {y p st} hp hst hy q l := by
    rw [drive_setPointState, hy q l, drivesOf_setPointState, drives_of_rest hst, Bool.and_false]
    split
    next heq => exact heq ▸ drivesOf_of_rest hp l
    · rfl
  timeout {y p} hy := by
    obtain he | ⟨target, origin, t, kind, t', hst, he⟩ := throwTimeout_cases e p y
    · rw [he]
      exact hy
    · intro q l
      rw [he, drive_setPointState, Yard.look_energise, drivesOf_setPointState, hy q l]
      by_cases hq : p = q
      · subst hq
        have hsome : ((y.energise p origin).pointStateOf p).isSome = true := by
          rw [pointStateOf_congr (Yard.energise_points _ _ _), hst]
          rfl
        simp [hsome, PointState.drives]
      · simp only [hq, if_false]
        exact (drivesOf_congr (pointStateOf_congr (Yard.energise_points _ _ _) q) l).symm

/-! ## Drive slots (R130) -/

/-- The slots in use are the points in motion and do not pass the number configured. -/
def SlotsCounted (e : Env) (y : Yard) : Prop :=
  y.slotsInUse = y.inMotionPoints.length ∧ y.slotsInUse ≤ e.ladder.consts.slots

/-- The slot of one point in motion is free already; every other point in motion holds its own. -/
def SlotsCountedBut (e : Env) (p : PointIx) (y : Yard) : Prop :=
  y.pointInMotion p = true ∧ y.slotsInUse + 1 = y.inMotionPoints.length ∧ y.slotsInUse ≤ e.ladder.consts.slots

theorem inMotionPoints_congr (h : ∀ p, z.pointStateOf p = y.pointStateOf p) : z.inMotionPoints = y.inMotionPoints :=
  List.filter_congr fun p _ => pointInMotion_congr (h p)

theorem inMotionPoints_change (p : PointIx) (h : ∀ q, q ≠ p → z.pointStateOf q = y.pointStateOf q) :
    z.inMotionPoints.length + (y.pointInMotion p).toNat = y.inMotionPoints.length + (z.pointInMotion p).toNat :=
  count_change_one (List.nodup_finRange 40) (List.mem_finRange p) fun q hq => pointInMotion_congr (h q hq)

theorem pointInMotion_grant {w : Waiting} {origin : Leg} (h : y.pointLie w.point = some origin) :
    (y.grant e w).pointInMotion w.point = true :=
  (pointInMotion_iff _ _).mpr ⟨_, by rw [pointStateOf_grant h, if_pos rfl], rfl⟩

/-- A grant puts one more point in motion. -/
theorem inMotionPoints_grant {w : Waiting} {origin : Leg} (h : y.pointLie w.point = some origin) :
    (y.grant e w).inMotionPoints.length = y.inMotionPoints.length + 1 := by
  have hchange := inMotionPoints_change (y := y) (z := y.grant e w) w.point
    fun q hq => by rw [pointStateOf_grant h, if_neg (Ne.symm hq)]
  rw [notMoving_of_lie h, pointInMotion_grant h] at hchange
  simpa using hchange

theorem pointInMotion_setPointState_self {st : PointState} (hst : st.inMotion = false) (y : Yard) :
    (y.setPointState p st).pointInMotion p = false := by
  rw [← Bool.not_eq_true, pointInMotion_iff]
  rintro ⟨st', hst', hm⟩
  rw [Yard.pointStateOf_setPointState, if_pos rfl] at hst'
  obtain ⟨_, _, rfl⟩ := Option.map_eq_some_iff.mp hst'
  rw [hst] at hm
  cases hm

theorem inMotionPoints_rest {st : PointState} (hst : st.inMotion = false) (y : Yard) :
    (y.setPointState p st).inMotionPoints.length + (y.pointInMotion p).toNat = y.inMotionPoints.length := by
  have hchange := inMotionPoints_change (y := y) (z := y.setPointState p st) p
    fun q hq => pointStateOf_setPointState_of_ne (Ne.symm hq) y
  rw [pointInMotion_setPointState_self hst] at hchange
  simpa using hchange

theorem slotsInUse_setPointState (st : PointState) (y : Yard) : (y.setPointState p st).slotsInUse = y.slotsInUse := by simp

theorem motionClosed_slots (e : Env) : MotionClosed e (SlotsCounted e) (SlotsCountedBut e) where
  congr h hy := by
    rw [SlotsCounted, h.slotsInUse, inMotionPoints_congr h.state]
    exact hy
  congr_limbo h hy := by
    rw [SlotsCountedBut, h.slotsInUse, inMotionPoints_congr h.state, pointInMotion_congr (h.state _)]
    exact hy
  moves h := h.1
  grant hl hslot hy := by
    obtain ⟨hcount, _⟩ := hy
    rw [SlotsCounted, slotsInUse_grant hl, inMotionPoints_grant hl]
    omega
  grant_limbo {y w origin p} hl hne hslot hy := by
    obtain ⟨hm, hcount, _⟩ := hy
    refine ⟨?_, ?_⟩
    · rw [pointInMotion_congr (y := y) (by rw [pointStateOf_grant hl, if_neg hne])]
      exact hm
    · rw [slotsInUse_grant hl, inMotionPoints_grant hl]
      omega
  release {y p} hm hy := by
    obtain ⟨hcount, hle⟩ := hy
    have hsame : (releaseSlot p y).inMotionPoints = y.inMotionPoints := inMotionPoints_congr fun _ => rfl
    have hmem : p ∈ y.inMotionPoints := List.mem_filter.mpr ⟨List.mem_finRange p, hm⟩
    have hpos : 0 < y.inMotionPoints.length := List.length_pos_of_mem hmem
    have hfreed : (releaseSlot p y).slotsInUse = y.slotsInUse - 1 := rfl
    refine ⟨hm, ?_⟩
    rw [hsame, hfreed]
    omega
  land {y p st} hst hy := by
    obtain ⟨hm, hcount, hle⟩ := hy
    have hrest := inMotionPoints_rest (p := p) hst y
    rw [hm, Bool.toNat_true] at hrest
    rw [SlotsCounted, slotsInUse_setPointState]
    omega
  rest {y p st} hp hst hy := by
    obtain ⟨hcount, hle⟩ := hy
    have hrest := inMotionPoints_rest (p := p) hst y
    rw [hp, Bool.toNat_false] at hrest
    rw [SlotsCounted, slotsInUse_setPointState]
    omega
  timeout {y p} hy := by
    obtain he | ⟨target, origin, t, kind, t', hst, he⟩ := throwTimeout_cases e p y
    · rw [he]
      exact hy
    · have hbefore : y.pointInMotion p = true := (pointInMotion_iff y p).mpr ⟨_, hst, rfl⟩
      have hafter : ((y.energise p origin).setPointState p (.returning origin t' kind)).pointInMotion p = true := by
        refine (pointInMotion_iff _ p).mpr ⟨.returning origin t' kind, ?_, rfl⟩
        rw [Yard.pointStateOf_setPointState, if_pos rfl, pointStateOf_congr (Yard.energise_points _ _ _), hst]
        rfl
      have hchange := inMotionPoints_change (y := y) (z := (y.energise p origin).setPointState p (.returning origin t' kind)) p
        fun q hq => by
          rw [pointStateOf_setPointState_of_ne (Ne.symm hq)]
          exact pointStateOf_congr (Yard.energise_points _ _ _) q
      rw [hbefore, hafter] at hchange
      rw [he, SlotsCounted, slotsInUse_setPointState]
      have hsame : (y.energise p origin).slotsInUse = y.slotsInUse := rfl
      rw [hsame]
      obtain ⟨hcount, hle⟩ := hy
      omega

/-! ## A point once LOST stays so until a request (R128) -/

/-- The point is LOST wherever it has a record. -/
def LostOrAbsent (p : PointIx) (y : Yard) : Prop := ∀ st, y.pointStateOf p = some st → st.isLost = true

theorem planClosed_lost (e : Env) (p : PointIx) : PlanClosed e (LostOrAbsent p) :=
  planClosed_of_motion (fun h hy st hst => hy st ((h.state p).symm.trans hst)) fun y w origin hl _ hy st hst => by
    rw [pointStateOf_grant hl] at hst
    split at hst
    next heq =>
      cases hx : y.pointOf w.point with
      | none => simp [Yard.pointLie, hx] at hl
      | some x =>
        have hlost := hy x.state (by rw [← heq, Yard.pointStateOf, hx]; rfl)
        cases hstate : x.state <;> simp_all [Yard.pointLie, PointState.lie, PointState.isLost]
    · exact hy st hst

theorem lost_losePoint (e : Env) (p : PointIx) (c : FaultCause) (y : Yard) : LostOrAbsent p (y.losePoint e p c) := by
  unfold Yard.losePoint
  dsimp only
  split
  next x hx =>
    split
    next hlost =>
      intro st hst
      rw [Yard.pointStateOf, hx] at hst
      cases hst
      exact hlost
    · refine (planClosed_lost e p).evaluate p fun st hst => ?_
      rw [pointStateOf_congr (Yard.reportLost_points _), pointStateOf_congr (Yard.raisePoint_points _ _ _),
        Yard.pointStateOf_setPointState, if_pos rfl] at hst
      obtain ⟨_, _, rfl⟩ := Option.map_eq_some_iff.mp hst
      rfl
  next hx =>
    intro st hst
    rw [Yard.pointStateOf, hx] at hst
    cases hst

theorem notMoving_of_lost (h : LostOrAbsent p y) : y.pointInMotion p = false := by
  rw [← Bool.not_eq_true, pointInMotion_iff]
  rintro ⟨st, hst, hm⟩
  have hlost := h st hst
  cases st <;> simp_all [PointState.inMotion, PointState.isLost]

theorem notMoving_losePoint (e : Env) (p : PointIx) (c : FaultCause) (y : Yard) :
    (y.losePoint e p c).pointInMotion p = false := notMoving_of_lost (lost_losePoint e p c y)

/-! ## The first law of point control (R129) -/

/-- Every point in motion, but for those of a set, has a CLEAR section. -/
def FirstLawBut (exempt : PointIx → Prop) (y : Yard) : Prop :=
  ∀ p, y.pointInMotion p = true → ¬ exempt p → y.sectionState (.point p) = some .clear

/-- The point of a section joins the points exempted. -/
def exemptToo (sid : SectionId) (exempt : PointIx → Prop) : PointIx → Prop := fun p => exempt p ∨ sid = .point p

/-- While a section is marked or entered and its point not yet told, the point is exempted (R55, R137). -/
def exemptions : Debts (PointIx → Prop) :=
  { settled := fun _ => False, marked := exemptToo, orphaned := fun _ d => d, entered := exemptToo,
    forgiven := fun _ _ => False,
    marked_comm := fun sid sid' d => by
      funext p
      simp only [exemptToo, eq_iff_iff]
      tauto
    entered_lead := fun d => by
      funext p
      simp [exemptToo] }

/-- From y to z no point begins to move and no section of a moving point ceases to be CLEAR. -/
def Calms (y z : Yard) : Prop :=
  ∀ p, z.pointInMotion p = true →
    y.pointInMotion p = true ∧ (y.sectionState (.point p) = some .clear → z.sectionState (.point p) = some .clear)

variable {d : PointIx → Prop}

theorem FirstLawBut.calm (hy : FirstLawBut d y) (h : Calms y z) : FirstLawBut d z :=
  fun p hp hd => (h p hp).2 (hy p (h p hp).1 hd)

theorem calms_of (hstate : ∀ p, z.pointStateOf p = y.pointStateOf p) (hsection : ∀ sid, z.sectionState sid = y.sectionState sid) :
    Calms y z := fun p hp =>
  ⟨(pointInMotion_congr (hstate p)).symm.trans hp, fun hc => (hsection _).trans hc⟩

theorem sectionState_of_standing (h : z.standing = y.standing) (sid : SectionId) : z.sectionState sid = y.sectionState sid := by
  rw [Yard.sectionState, Yard.sectionState, sectionOf_of_standing h]

theorem sectionState_of_fields (hlead : z.lead = y.lead) (hsections : z.sections = y.sections) (sid : SectionId) :
    z.sectionState sid = y.sectionState sid := by
  rw [Yard.sectionState, Yard.sectionState, sectionOf_of_fields hlead hsections]

theorem calms_of_standing (hmotion : SameMotion y z) (h : z.standing = y.standing) : Calms y z :=
  calms_of hmotion.state (sectionState_of_standing h)

theorem calms_of_fields (hpoints : z.points = y.points) (hlead : z.lead = y.lead) (hsections : z.sections = y.sections) :
    Calms y z := calms_of (pointStateOf_congr hpoints) (sectionState_of_fields hlead hsections)

/-- A section's record is replaced; it stays CLEAR if it was. -/
theorem calms_of_section {sid : SectionId} (hpoints : z.points = y.points)
    (hother : ∀ sid', sid' ≠ sid → z.sectionOf sid' = y.sectionOf sid')
    (hclear : y.sectionState sid = some .clear → z.sectionState sid = some .clear) : Calms y z := fun p hp => by
  refine ⟨(pointInMotion_congr (pointStateOf_congr hpoints p)).symm.trans hp, fun hc => ?_⟩
  by_cases heq : SectionId.point p = sid
  · exact heq ▸ hclear (heq ▸ hc)
  · rw [Yard.sectionState, hother _ heq]
    exact hc

theorem calms_modifySection {sid : SectionId} (f : Section → Section) (hf : ∀ x, x.state = .clear → (f x).state = .clear)
    (y : Yard) : Calms y (y.modifySection sid f) := by
  refine calms_of_section (sid := sid) (by simp) (fun sid' hne => ?_) (fun hc => ?_)
  · rw [Yard.sectionOf_modifySection, if_neg (Ne.symm hne)]
  · rw [Yard.sectionState, Yard.sectionOf_modifySection, if_pos rfl]
    cases hx : y.sectionOf sid <;> simp_all [Yard.sectionState]

theorem calms_putSection {sid : SectionId} {x x' : Section} (hx : y.sectionOf sid = some x)
    (hstate : x.state = .clear → x'.state = .clear) : Calms y (y.putSection sid (some x')) := by
  refine calms_of_section (sid := sid) (by simp) (fun sid' hne => ?_) (fun hc => ?_)
  · rw [Yard.sectionOf_putSection, if_neg (Ne.symm hne)]
  · rw [Yard.sectionState, Yard.sectionOf_putSection, if_pos rfl]
    simp_all [Yard.sectionState]

theorem Calms.trans {x : Yard} (h : Calms x y) (k : Calms y z) : Calms x z := fun p hp =>
  ⟨(h p (k p hp).1).1, fun hc => (k p hp).2 ((h p (k p hp).1).2 hc)⟩

theorem calms_clearStallFlag (sid : SectionId) (y : Yard) : Calms y (y.clearStallFlag sid) := by
  refine calms_of (pointStateOf_congr (by simp)) fun sid' => ?_
  rw [Yard.sectionState, sectionOf_clearStallFlag, Yard.sectionState]
  split
  · cases y.sectionOf sid' <;> rfl
  · rfl

/-- A point at rest is set to a state of rest, or one in motion stops. -/
theorem calms_setPointState {st : PointState} (hst : st.inMotion = false) (y : Yard) : Calms y (y.setPointState p st) := by
  intro q hq
  by_cases hpq : p = q
  · subst hpq
    rw [pointInMotion_setPointState_self hst] at hq
    cases hq
  · refine ⟨(pointInMotion_congr (pointStateOf_setPointState_of_ne hpq y)).symm.trans hq, fun hc => ?_⟩
    exact (sectionState_of_standing (by simp) _).trans hc

theorem planClosed_first (e : Env) (d : PointIx → Prop) : PlanClosed e (FirstLawBut d) where
  plan y q f hy := hy.calm (calms_of_standing (sameDrives_modifyPlan q f y).sameMotion (by simp))
  speed y i n hy := hy.calm (calms_of_standing (sameDrives_modifyStarted i _ y).sameMotion (by simp))
  remove y q hy := hy.calm (calms_of_fields rfl rfl rfl)
  pop y w rest hy _ := hy.calm (calms_of_fields rfl rfl rfl)
  place y w hy := hy.calm (by unfold Yard.placeWaiting; split <;> exact calms_of_fields rfl rfl rfl)
  divert y i q l c hy := hy.calm (calms_of_standing (sameDrives_divertInto i q l c y).sameMotion (by simp))
  cancelled y q hy := hy.calm (calms_of_fields rfl rfl rfl)
  grant y w hy _ _ hel := by
    obtain ⟨origin, hl⟩ := lie_of_eligible hel
    intro p hp hd
    rw [sectionState_of_standing (Yard.standing_grant e w y)]
    by_cases heq : w.point = p
    · exact heq ▸ clear_of_eligible hel
    · exact hy p ((pointInMotion_congr (by rw [pointStateOf_grant hl, if_neg heq])).symm.trans hp) hd

theorem losePoint_first (c : FaultCause) (hy : FirstLawBut d y) : FirstLawBut d (y.losePoint e p c) := by
  have hplan := planClosed_first e d
  unfold Yard.losePoint
  dsimp only
  split
  next x hx =>
    split
    · exact hy
    · have finish : ∀ a : Yard, FirstLawBut d a →
          FirstLawBut d (((a.setPointState p (.lost c)).raisePoint p .lost).reportLost) := fun a ha =>
        (ha.calm (calms_setPointState (p := p) (st := .lost c) rfl a)).calm (calms_of_fields (by simp) (by simp) (by simp))
      refine hplan.evaluate _ (finish _ (hplan.dropLost p ?_))
      split
      · exact hplan.arbitrate (hy.calm (calms_of_fields rfl rfl rfl))
      · exact hy
  · exact hy

/-- A point that has been told of its section and does not move is exempted no longer. -/
theorem FirstLawBut.settled {sid : SectionId} (hy : FirstLawBut (exemptToo sid d) y)
    (h : ∀ p, sid = .point p → y.pointInMotion p = false) : FirstLawBut d y := fun p hp hd =>
  hy p hp fun hex => hex.elim hd fun heq => by
    rw [h p heq] at hp
    cases hp

theorem told_first (sid : SectionId) (hy : FirstLawBut (exemptToo sid d) y) :
    FirstLawBut d (y.sectionTold e sid).reportDisturbed := by
  refine FirstLawBut.calm (y := y.sectionTold e sid) ?_ (calms_of_fields (by simp) (by simp) (by simp))
  unfold Yard.sectionTold
  split
  · exact hy.settled fun p hp => by cases hp
  next q =>
    split
    · exact (losePoint_first _ hy).settled fun p hp => by
        cases hp
        exact notMoving_losePoint e q _ y
    next hrest =>
      refine ((planClosed_first e _).sectionNotClear q hy).settled fun p hp => ?_
      cases hp
      rw [Yard.pointInMotion, pointOf_sectionNotClear]
      simpa [Yard.pointInMotion] using hrest

theorem axle_first (hy : FirstLawBut (exemptToo (.point p) d) y) : FirstLawBut d (y.axleAtPoint e p) := by
  unfold Yard.axleAtPoint
  split
  · exact (losePoint_first _ hy).settled fun q hq => by
      cases hq
      exact notMoving_losePoint e p _ y
  next hrest =>
    refine hy.settled fun q hq => ?_
    cases hq
    simpa using hrest

/-- The point of a section that changes is exempted. -/
theorem exempt_section {sid : SectionId} (hy : FirstLawBut d y) (hpoints : z.points = y.points)
    (hother : ∀ sid', sid' ≠ sid → z.sectionOf sid' = y.sectionOf sid') : FirstLawBut (exemptToo sid d) z := by
  intro p hp hd
  have hne : SectionId.point p ≠ sid := fun heq => hd (.inr heq.symm)
  rw [Yard.sectionState, hother _ hne]
  exact hy p ((pointInMotion_congr (pointStateOf_congr hpoints p)).symm.trans hp) fun hex => hd (.inl hex)

theorem lawClosed_first (e : Env) : LawClosed e exemptions FirstLawBut := by
  have fields : ∀ {d} {y z : Yard}, z.points = y.points → z.lead = y.lead → z.sections = y.sections →
      FirstLawBut d y → FirstLawBut d z := fun hp hl hs hy => hy.calm (calms_of_fields hp hl hs)
  have stand : ∀ {d} {y z : Yard}, SameMotion y z → z.standing = y.standing → FirstLawBut d y → FirstLawBut d z :=
    fun hm hs hy => hy.calm (calms_of_standing hm hs)
  exact {
    plan := planClosed_first e
    losePoint := fun _ y p c => losePoint_first c
    notices := fun _ y f _ => fields rfl rfl rfl
    raised := fun _ y _ _ => fields rfl rfl rfl
    queue := fun _ y q l _ => fields rfl rfl rfl
    joined := fun _ y q l => fields rfl rfl rfl
    absorbed := fun _ y j x _ => fields rfl rfl rfl
    crest := fun _ y f => fields rfl rfl rfl
    mark := fun _ y c sid _ hy => exempt_section hy (by simp [Yard.markDisturbed]) fun sid' hne => by
      rw [sectionOf_markDisturbed, if_neg (Ne.symm hne)]
    told := fun _ y sid => told_first sid
    strike := fun _ y sid i _ hy => hy.calm (calms_modifySection _ (by exact fun _ hx => hx) y)
    lost := fun _ y i c _ _ => stand (sameDrives_modifyCut i _ y).sameMotion (by simp)
    release := fun _ y c => stand (by
      unfold Yard.releaseLost
      split <;> exact sameMotion_of_fields rfl rfl rfl) (by simp)
    started := fun _ y i f _ => stand (sameDrives_modifyStarted i f y).sameMotion (by simp)
    reroute := fun _ y i t c => stand (sameDrives_reroute i t c y).sameMotion (by simp)
    arrive := fun _ y i => stand (sameDrives_arrive i y).sameMotion (by simp)
    rawCount := fun _ y sid f _ hy => hy.calm (calms_modifySection _ (by exact fun _ hx => hx) y)
    occupied := fun _ y sid i _ hy => exempt_section hy (by simp) fun sid' hne => by
      rw [Yard.sectionOf_modifySection, if_neg (Ne.symm hne)]
    axle := fun _ y p => axle_first
    credit := fun _ y sid i _ _ hy => hy.calm (calms_modifySection _ (by exact fun _ hx => hx) y)
    emptied := fun _ y sid x hx _ hy => by
      unfold emptied
      exact hy.calm (((calms_putSection (x' := x.relist []) hx (fun h => h)).trans (calms_clearStallFlag sid _)).trans
        (calms_modifySection (fun z => { z with state := .clear, stallTimer := none }) (fun _ _ => rfl) _))
    relisted := fun _ y sid x l hx _ _ hy => hy.calm (calms_putSection hx (fun h => h))
    restarted := fun _ y sid x _ _ hy => hy.calm ((calms_clearStallFlag sid y).trans (calms_modifySection _ (by exact fun _ hz => hz) _))
    stalled := fun _ y sid hy => by
      obtain he | ⟨x, t, hx, -, -, he⟩ := stallExpired_cases e sid y <;> rw [he]
      · exact hy
      · exact fields (y := y.putSection sid (some (stalledRecord x))) (by simp) (by simp) (by simp)
          (hy.calm (calms_putSection hx (fun h => h)))
    slot := fun _ y i r _ _ => fields rfl rfl rfl
    rolling := fun _ y i => stand (sameDrives_modifyCut i _ y).sameMotion (by simp)
    begun := fun _ y i c x l _ _ => fields rfl rfl rfl
    shortened := fun _ y i c x _ _ _ => fields rfl rfl rfl
    control := fun _ y f _ => fields rfl rfl rfl
    detection := fun _ y p f hf => stand (MotionClosed.sameMotion_setPoint f hf y) (by simp)
    ended := fun _ y p st l st' _ _ hst' hy => by
      have hrest : st'.inMotion = false := by rcases hst' with rfl | rfl <;> rfl
      exact fields (y := y.setPointState p st') rfl rfl rfl (hy.calm (calms_setPointState hrest y))
    timeout := fun _ y p hy => by
      obtain he | ⟨target, origin, t, kind, t', hst, he⟩ := throwTimeout_cases e p y
      · rw [he]
        exact hy
      · rw [he]
        intro q hq hd
        rw [sectionState_of_standing (y := y) (by simp)]
        refine hy q ?_ hd
        by_cases hpq : p = q
        · subst hpq
          exact (pointInMotion_iff y p).mpr ⟨_, hst, rfl⟩
        · rwa [pointInMotion_congr (y := y) ((pointStateOf_setPointState_of_ne hpq _).trans
            (pointStateOf_congr (Yard.energise_points _ _ _) q))] at hq
    restored := fun _ y p st l _ _ hy => by
      unfold reproved
      split
      · exact fields (y := y.setPointState p (.proved l)) rfl rfl rfl (hy.calm (calms_setPointState rfl y))
      · exact hy.calm (calms_setPointState rfl y)
    cleared := fun y sid x hx _ hy => hy.calm (calms_putSection hx (fun _ => rfl))
    excused := fun y x hy => by
      unfold reportReset
      dsimp only
      repeat' split
      all_goals exact fields (y := y) rfl rfl rfl hy
    listed := fun _ y l => fields rfl rfl rfl
    dest := fun _ y i dst => stand (sameDrives_modifyCut i _ y).sameMotion (by simp)
    track := fun _ y t f _ => fields rfl rfl rfl }

/-! ## The commands that make and remove the ladder, and the settings -/

theorem startupYard_points (s : State) : (startupYard s).points = startupPoints s ∧ (startupYard s).drive = Table.fill 80 false ∧
    (startupYard s).slotsInUse = 0 := by
  have hraise : ∀ (l : List PointIx) (y : Yard),
      SameDrives y (l.foldl (fun z p => z.raisePoint p .lost) y) := by
    intro l
    induction l with
    | nil => exact fun y => sameDrives_refl y
    | cons p l ih => exact fun y => SameDrives.trans (y := y.raisePoint p .lost) ⟨rfl, rfl, rfl, rfl⟩ (ih _)
  exact ⟨(hraise _ _).points, (hraise _ _).drive, (hraise _ _).slotsInUse⟩

/-- COMMISSION puts no point in motion (R126). -/
theorem startup_at_rest (s : State) (p : PointIx) (st : PointState) (h : (startupYard s).pointStateOf p = some st) :
    st.inMotion = false := by
  rw [Yard.pointStateOf, Yard.pointOf, (startupYard_points s).1, startupPoints, Table.look_tab] at h
  split at h
  · cases h
    unfold startupPoint
    dsimp only
    split <;> rfl
  · cases h

theorem decommission_fields (y : Yard) : y.decommission.points = Table.fill 40 none ∧ y.decommission.drive = Table.fill 80 false ∧
    y.decommission.slotsInUse = 0 := by
  unfold Yard.decommission Yard.judgeMarker
  dsimp only
  repeat' split
  all_goals exact ⟨rfl, rfl, rfl⟩

variable {s u t : State} {c : Instr}

/-- The yards agree in all that the laws of the yard read. -/
structure Agrees (y z : Yard) : Prop where
  motion : SameMotion y z
  section_ : ∀ sid, z.sectionOf sid = y.sectionOf sid
  slots : z.slots = y.slots
  reserved : ∀ k, (z.trackOf k).reserved = (y.trackOf k).reserved
  counts : z.control.disturbed = y.control.disturbed ∧ z.control.lost = y.control.lost ∧ z.control.stall = y.control.stall

/-- The requests for settings leave all that the laws read. -/
theorem Effect.setting_agrees (h : Effect s c u) (hc : Setting c) : Agrees s.yard u.yard := by
  cases h with
  | same => exact ⟨sameMotion_of_fields rfl rfl rfl, fun _ => rfl, rfl, fun _ => rfl, rfl, rfl, rfl⟩
  | setMap | setWindow | setAttention =>
    exact ⟨sameMotion_of_fields rfl rfl rfl, sectionOf_of_fields rfl rfl, rfl, fun _ => rfl, rfl, rfl, rfl⟩
  | setTrack track capacity k n =>
    refine ⟨sameMotion_of_fields rfl rfl rfl, sectionOf_of_fields rfl rfl, rfl, fun k' => ?_, rfl, rfl, rfl⟩
    have htrack := Yard.trackOf_modifyTrack k k' (fun x => { x with capacity := n }) s.yard
    refine (congrArg Track.reserved htrack).trans ?_
    split <;> rfl
  | _ => simp [Setting] at hc

theorem tick_agrees (now : Instant) (y : Yard) : Agrees y (y.tick now) :=
  ⟨sameMotion_of_fields rfl rfl rfl, sectionOf_of_fields rfl rfl, rfl, fun _ => rfl, rfl, rfl, rfl⟩

/-- A law of the yard is kept by every command if its atomic changes, COMMISSION and DECOMMISSION keep it, if it holds after
reset, and if it reads no more than the laws do. -/
theorem exec_keeps_law {D : Type} {k : Debts D} {P : D → Yard → Prop} (hclosed : LawClosed s.env k P)
    (hagree : ∀ {y z}, Agrees y z → P k.settled y → P k.settled z) (hreset : P k.settled Yard.reset)
    (hcommission : s.mode = .setup → P k.settled s.yard → P k.settled (startupYard s))
    (hdecommission : P k.settled s.yard → P k.settled s.yard.decommission) (hy : P k.settled s.yard) (h : exec c s = .next t) : P k.settled t.yard := by
  by_cases hr : IsReset c
  · obtain ⟨adr1, adr0, rfl⟩ := hr
    cases h
    exact hreset
  by_cases ht : IsTick c
  · obtain ⟨raw, rfl⟩ := ht
    cases h
    exact hagree (tick_agrees _ _) hy
  obtain ⟨u, hu, htu⟩ := exec_effect hr ht h
  have hyard : t.yard = u.yard := by rw [htu]
  rw [hyard]
  by_cases hc : c = .commission
  · subst hc
    cases hu with
    | same => exact hy
    | commission hm _ => exact hclosed.settle (hcommission hm hy)
  by_cases hc' : c = .decommission
  · subst hc'
    cases hu with
    | same => exact hy
    | decommission => exact hclosed.settle (hdecommission hy)
  exact hu.kept hclosed hc hc' (fun hset hs => hagree (hu.setting_agrees hset) hs) hy

/-! ## The drive lines and the first law (R125, R129) -/

theorem drivesAgree_of_none {y : Yard} (hpoint : y.points = Table.fill 40 none) (hdrive : y.drive = Table.fill 80 false) :
    DrivesAgree y := fun p l => by
  simp [hdrive, drivesOf, Yard.pointStateOf, Yard.pointOf, hpoint]

theorem drivesAgree_startup (s : State) : DrivesAgree (startupYard s) := fun p l => by
  rw [(startupYard_points s).2.1]
  rw [Table.look_fill]
  symm
  unfold drivesOf
  cases hst : (startupYard s).pointStateOf p with
  | none => rfl
  | some st => exact drives_of_rest (startup_at_rest s p st hst) l

theorem exec_keeps_driveLaw (c : Instr) (s t : State) (hs : s.DriveLaw) (h : exec c s = .next t) : t.DriveLaw := by
  rw [driveLaw_iff] at hs ⊢
  have hclosed := (motionClosed_drives s.env).lawClosed
  exact exec_keeps_law (P := fun _ => DrivesAgree) hclosed (fun hag => (motionClosed_drives s.env).congr hag.motion)
    (drivesAgree_of_none rfl rfl) (fun _ _ => drivesAgree_startup s)
    (fun _ => drivesAgree_of_none (decommission_fields _).1 (decommission_fields _).2.1) hs h

theorem firstLaw_iff (s : State) : s.FirstLaw ↔ FirstLawBut (fun _ => False) s.yard := by
  simp [State.FirstLaw, FirstLawBut]

theorem firstLaw_of_rest {y : Yard} (h : ∀ p st, y.pointStateOf p = some st → st.inMotion = false) : FirstLawBut d y := by
  intro p hp
  obtain ⟨st, hst, hm⟩ := (pointInMotion_iff y p).mp hp
  rw [h p st hst] at hm
  cases hm

theorem pointStateOf_of_none {y : Yard} (h : y.points = Table.fill 40 none) (p : PointIx) : y.pointStateOf p = none := by
  simp [Yard.pointStateOf, Yard.pointOf, h]

theorem exec_keeps_firstLaw (c : Instr) (s t : State) (hs : s.FirstLaw) (h : exec c s = .next t) : t.FirstLaw := by
  rw [firstLaw_iff] at hs ⊢
  have hnone : ∀ y : Yard, y.points = Table.fill 40 none → FirstLawBut (fun _ => False) y := fun y hy =>
    firstLaw_of_rest fun p st hst => by
      rw [pointStateOf_of_none hy] at hst
      cases hst
  exact exec_keeps_law (P := FirstLawBut) (lawClosed_first s.env)
    (fun hag hy => hy.calm (calms_of hag.motion.state fun sid => by rw [Yard.sectionState, hag.section_, Yard.sectionState]))
    (hnone _ rfl) (fun _ _ => firstLaw_of_rest (startup_at_rest s)) (fun _ => hnone _ (decommission_fields _).1) hs h

/-- Settles O11: a grant energises the line of the point it moves, and the loss of a point in motion releases its drive
before it is set at rest; a point whose section is marked or entered is made to stop in the same event. -/
theorem driveLawIsKept : Obligations.DriveLawIsKept :=
  ⟨step_keeps_of_exec_keeps (fun _ _ hs => hs) exec_keeps_driveLaw,
    step_keeps_of_exec_keeps (fun _ _ hs => hs) exec_keeps_firstLaw⟩

/-! ## The drive slots (R130) -/

/-- No point has a record. -/
def NoPoints (y : Yard) : Prop := ∀ p, y.pointStateOf p = none

theorem noPoints_iff (y : Yard) : NoPoints y ↔ ∀ p, y.pointOf p = none := by
  simp [NoPoints, Yard.pointStateOf]

theorem noPoints_setPointState {st : PointState} (h : NoPoints y) : NoPoints (y.setPointState p st) := fun q => by
  rw [Yard.pointStateOf_setPointState, h q]
  split <;> rfl

theorem motionClosed_noPoints (e : Env) : MotionClosed e NoPoints (fun _ _ => False) where
  congr h hy p := (h.state p).trans (hy p)
  congr_limbo _ := id
  moves h := h.elim
  grant {y w origin} hl _ hy := by
    have hnone := (noPoints_iff y).mp hy w.point
    simp [Yard.pointLie, hnone] at hl
  grant_limbo _ _ _ h := h
  release hm hy := by
    obtain ⟨st, hst, -⟩ := (pointInMotion_iff _ _).mp hm
    rw [hy] at hst
    cases hst
  land _ h := h.elim
  rest _ _ hy := noPoints_setPointState hy
  timeout {y p} hy := by
    obtain he | ⟨target, origin, t, kind, t', hst, -⟩ := throwTimeout_cases e p y
    · rw [he]
      exact hy
    · rw [hy] at hst
      cases hst

theorem slotLaw_iff (s : State) : s.SlotLaw ↔ SlotsCounted s.env s.yard ∧ (s.mode = .setup → NoPoints s.yard) := by
  simp [State.SlotLaw, SlotsCounted, noPoints_iff, State.env, and_assoc]

theorem inMotionPoints_of_rest {y : Yard} (hrest : ∀ p st, y.pointStateOf p = some st → st.inMotion = false) :
    y.inMotionPoints = [] := List.filter_eq_nil_iff.mpr fun p _ hp => by
  obtain ⟨st, hst, hm⟩ := (pointInMotion_iff y p).mp hp
  rw [hrest p st hst] at hm
  cases hm

theorem slotsCounted_of_rest {y : Yard} (hrest : ∀ p st, y.pointStateOf p = some st → st.inMotion = false)
    (hslots : y.slotsInUse = 0) : SlotsCounted e y := by
  simp [SlotsCounted, inMotionPoints_of_rest hrest, hslots]

theorem slotsCounted_of_none {y : Yard} (hpoints : y.points = Table.fill 40 none) (hslots : y.slotsInUse = 0) : SlotsCounted e y :=
  slotsCounted_of_rest (fun p st hst => by
    rw [pointStateOf_of_none hpoints] at hst
    cases hst) hslots

theorem exec_keeps_slotsCounted (hs : SlotsCounted s.env s.yard) (h : exec c s = .next t) : SlotsCounted s.env t.yard :=
  exec_keeps_law (P := fun _ => SlotsCounted s.env) (motionClosed_slots s.env).lawClosed
    (fun hag => (motionClosed_slots s.env).congr hag.motion) (slotsCounted_of_none rfl rfl)
    (fun _ _ => slotsCounted_of_rest (startup_at_rest s) (startupYard_points s).2.2)
    (fun _ => slotsCounted_of_none (decommission_fields _).1 (decommission_fields _).2.2) hs h

/-- A command that leads to SETUP, and is neither reset nor DECOMMISSION, was given in SETUP (R162). -/
theorem Effect.setup_before (hu : Effect s c u) (hr : ¬ IsReset c) (hc : c ≠ .decommission) (hm : u.mode = .setup) :
    s.mode = .setup := by
  obtain h | ⟨-, h⟩ | ⟨adr1, adr0, h, -⟩ | ⟨-, -, h⟩ | ⟨h, -⟩ | ⟨-, -, h⟩ | ⟨-, -, h⟩ | ⟨-, -, h⟩ := hu.mode_allowed
  · exact h.trans hm
  · rw [hm] at h
    cases h
  · exact absurd ⟨adr1, adr0, h⟩ hr
  · rw [hm] at h
    cases h
  · exact absurd h hc
  all_goals
    rw [hm] at h
    cases h

theorem noPoints_of_none {y : Yard} (h : y.points = Table.fill 40 none) : NoPoints y := pointStateOf_of_none h

theorem noPoints_in_setup (hs : s.SlotLaw) (h : exec c s = .next t) (hm : t.mode = .setup) : NoPoints t.yard := by
  have hsetup := ((slotLaw_iff s).mp hs).2
  have hclosed := (motionClosed_noPoints s.env).lawClosed
  by_cases hr : IsReset c
  · obtain ⟨adr1, adr0, rfl⟩ := hr
    cases h
    exact noPoints_of_none rfl
  by_cases ht : IsTick c
  · obtain ⟨raw, rfl⟩ := ht
    cases h
    exact hsetup hm
  obtain ⟨u, hu, htu⟩ := exec_effect hr ht h
  have hyard : t.yard = u.yard := by rw [htu]
  rw [State.mode, hyard] at hm
  rw [hyard]
  by_cases hd : c = .decommission
  · subst hd
    cases hu with
    | same => exact hsetup hm
    | decommission => exact hclosed.settle (d := ()) (noPoints_of_none (decommission_fields _).1)
  by_cases hc : c = .commission
  · subst hc
    cases hu with
    | same => exact hsetup hm
    | commission =>
      rw [← State.mode, show s.commissionedFrom.mode = .standby from startupYard_mode s] at hm
      cases hm
  exact hu.kept hclosed hc hd (fun hset hy p => ((hu.setting_agrees hset).motion.state p).trans (hy p))
    (hsetup (hu.setup_before hr hd hm))

theorem slotsInUse_of_noPoints (h : NoPoints y) (hs : SlotsCounted e y) : y.slotsInUse = 0 := by
  rw [hs.1, inMotionPoints_of_rest fun p st hst => by rw [h p] at hst; cases hst]
  rfl

theorem SlotsCounted.config {e e' : Env} (hs : SlotsCounted e y) (h : e'.ladder.consts.slots = e.ladder.consts.slots) :
    SlotsCounted e' y := ⟨hs.1, h ▸ hs.2⟩

/-- The slots in use stay within the number configured also where a request changes the number: in SETUP none is in use. -/
theorem slots_within_config (hs : s.SlotLaw) (h : exec c s = .next t) (hcount : SlotsCounted s.env t.yard) :
    SlotsCounted t.env t.yard := by
  by_cases hl : t.ladder = s.ladder
  · exact hcount.config (by rw [State.env, hl]; rfl)
  obtain ⟨-, -, -, -, hladder, -⟩ := commandsChangeOnlyTheirUnits c s t h
  obtain ⟨adr1, adr0, rfl⟩ | ⟨f, rfl⟩ | ⟨f, rfl⟩ := hladder hl
  · cases h
    exact slotsCounted_of_none rfl rfl
  · obtain ⟨u, hu, htu⟩ := exec_effect (by simp [IsReset]) (by simp [IsTick]) h
    rw [htu] at hcount ⊢
    cases hu <;> exact hcount
  · obtain ⟨u, hu, htu⟩ := exec_effect (by simp [IsReset]) (by simp [IsTick]) h
    rw [htu] at hcount ⊢
    cases hu with
    | same => exact hcount
    | setYard f k hm =>
      obtain ⟨hs, hnone⟩ := (slotLaw_iff s).mp hs
      exact ⟨hcount.1, (slotsInUse_of_noPoints (hnone hm) hs).le.trans (Nat.zero_le _)⟩

theorem exec_keeps_slotLaw (c : Instr) (s t : State) (hs : s.SlotLaw) (h : exec c s = .next t) : t.SlotLaw := by
  have hcount := exec_keeps_slotsCounted ((slotLaw_iff s).mp hs).1 h
  exact (slotLaw_iff t).mpr ⟨slots_within_config hs h hcount, noPoints_in_setup hs h⟩

/-- Settles O12: a slot is taken by the grant that puts a point in motion and freed where its motion ends; the number of
slots changes in SETUP alone, where no point has a record. -/
theorem slotLawIsKept : Obligations.SlotLawIsKept :=
  step_keeps_of_exec_keeps (fun _ _ hs => hs) exec_keeps_slotLaw

end Sys2Proof.Proofs
end


section
/-! PROOFS. The reservations (R107): every step keeps the reserved count of each track the sum over the cuts bound for it. -/

namespace Sys2Proof.Proofs

open Sys2Proof Sys2Proof.Machine Sys2Proof.Spec

/-- The axles of all cuts on the ladder that are bound for a track. -/
def boundFor (y : Yard) (t : TrackIx) : Nat := ((List.finRange 64).map (fun i => y.share t i)).sum

/-- The reserved count of every track is the sum over the cuts bound for it, and what is owed for lost cuts (R57, R107). -/
def Reserved (owed : TrackIx → Nat) (y : Yard) : Prop := ∀ t, (y.trackOf t).reserved = boundFor y t + owed t

/-- The axles of a started cut that is resolved to a track. -/
def axlesFor (t : TrackIx) (c : Cut) : Nat :=
  match c.started with
  | none => 0
  | some x => if x.resolved = t then c.axles else 0

/-- The axles that a cut holds reserved on a track. -/
def cutShare (t : TrackIx) (c : Cut) : Nat := if c.onLadder then axlesFor t c else 0

/-- The axles of a cut that has just been lost are still reserved on its track. -/
def oweCut (c : Cut) (d : TrackIx → Nat) : TrackIx → Nat := fun t => d t + axlesFor t c

/-- Only a lost cut owes: its axles, until they are released (R57). -/
def reservations : Debts (TrackIx → Nat) :=
  { settled := fun _ => 0, marked := fun _ d => d, orphaned := oweCut, entered := fun _ d => d, forgiven := fun _ _ => 0,
    marked_comm := fun _ _ _ => rfl, entered_lead := fun _ => rfl }

variable {e : Env} {y z : Yard} {d : TrackIx → Nat} {i : SlotIx} {t : TrackIx}

/-! ## Shares -/

theorem share_eq (y : Yard) (t : TrackIx) (i : SlotIx) : y.share t i = ((y.cutAt i).map (cutShare t)).getD 0 := by
  unfold Yard.share
  cases y.cutAt i with
  | none => rfl
  | some c => cases hx : c.started <;> cases hl : c.onLadder <;> simp [cutShare, axlesFor, hx, hl]

theorem share_congr (h : z.cutAt i = y.cutAt i) (t : TrackIx) : z.share t i = y.share t i := by rw [share_eq, share_eq, h]

theorem cutShare_of_not_onLadder {c : Cut} (h : c.onLadder = false) : cutShare t c = 0 := by
  simp [cutShare, h]

theorem boundFor_congr (h : ∀ i, z.share t i = y.share t i) : boundFor z t = boundFor y t :=
  congrArg List.sum (List.map_congr_left fun i _ => h i)

/-- The sum changes by what one slot changes. -/
theorem boundFor_change (i : SlotIx) (h : ∀ j, j ≠ i → z.share t j = y.share t j) :
    boundFor z t + y.share t i = boundFor y t + z.share t i :=
  sum_change_one (List.nodup_finRange 64) (List.mem_finRange i) h

theorem share_le_boundFor (y : Yard) (t : TrackIx) (i : SlotIx) : y.share t i ≤ boundFor y t :=
  List.single_le_sum (by simp) _ (List.mem_map_of_mem (List.mem_finRange i))

/-- Slots and tracks are the same. -/
theorem Reserved.of_fields (hy : Reserved d y) (hslots : z.slots = y.slots) (htracks : z.tracks = y.tracks) : Reserved d z := by
  intro t
  have hshare : boundFor z t = boundFor y t := boundFor_congr fun i => share_congr (Yard.cutAt_congr hslots i) t
  have htrack : z.trackOf t = y.trackOf t := by rw [Yard.trackOf, htracks, Yard.trackOf]
  rw [hshare, htrack, hy t]

/-- The cut of a slot is replaced, and the reserved counts move with its shares. -/
theorem Reserved.of_slot {d' : TrackIx → Nat} (hy : Reserved d y) (i : SlotIx) (hother : ∀ j, j ≠ i → z.cutAt j = y.cutAt j)
    (htrack : ∀ t, (z.trackOf t).reserved + y.share t i + d t = (y.trackOf t).reserved + z.share t i + d' t) :
    Reserved d' z := by
  intro t
  have hsum := boundFor_change (y := y) (z := z) (t := t) i fun j hj => by rw [share_eq, share_eq, hother j hj]
  have hreserved := hy t
  have := htrack t
  omega

/-- The cut of a slot is replaced with its shares kept; the tracks are the same. -/
theorem Reserved.of_same_share (hy : Reserved d y) (i : SlotIx) (hother : ∀ j, j ≠ i → z.cutAt j = y.cutAt j)
    (hshare : ∀ t, z.share t i = y.share t i) (htracks : z.tracks = y.tracks) : Reserved d z :=
  hy.of_slot i hother fun t => by
    have htrack : z.trackOf t = y.trackOf t := by rw [Yard.trackOf, htracks, Yard.trackOf]
    rw [htrack, hshare t]

theorem cutAt_modifyCut_of_ne {j : SlotIx} (f : Cut → Cut) (y : Yard) (h : j ≠ i) : (y.modifyCut i f).cutAt j = y.cutAt j := by
  rw [Yard.cutAt_modifyCut, if_neg (Ne.symm h)]

theorem share_modifyCut_self (f : Cut → Cut) (y : Yard) (t : TrackIx) :
    (y.modifyCut i f).share t i = ((y.cutAt i).map (fun c => cutShare t (f c))).getD 0 := by
  rw [share_eq, Yard.cutAt_modifyCut, if_pos rfl, Option.map_map]
  rfl

/-- A change of a cut that keeps its shares keeps the reservations. -/
theorem Reserved.modifyCut (hy : Reserved d y) (i : SlotIx) (f : Cut → Cut) (hf : ∀ t c, cutShare t (f c) = cutShare t c) :
    Reserved d (y.modifyCut i f) :=
  hy.of_same_share i (fun _ hj => cutAt_modifyCut_of_ne f y hj)
    (fun t => by rw [share_modifyCut_self, share_eq]; simp [hf]) (by simp)

theorem Reserved.modifyStarted (hy : Reserved d y) (i : SlotIx) (f : Started → Started) (hf : ∀ x, (f x).resolved = x.resolved) :
    Reserved d (y.modifyStarted i f) := by
  refine hy.modifyCut i _ fun t c => ?_
  cases hx : c.started <;> simp [cutShare, axlesFor, hx, hf, Cut.onLadder]

theorem reserved_reserve (t u : TrackIx) (n : Nat) (y : Yard) :
    ((y.reserve t n).trackOf u).reserved = (y.trackOf u).reserved + if t = u then n else 0 := by
  rw [Yard.trackOf_reserve]
  split <;> rfl

theorem reserved_release (t u : TrackIx) (n : Nat) (y : Yard) :
    ((y.release t n).trackOf u).reserved = (y.trackOf u).reserved - if t = u then n else 0 := by
  rw [Yard.trackOf_release]
  split <;> rfl

theorem share_of_cutAt {c : Cut} (h : y.cutAt i = some c) (t : TrackIx) : y.share t i = cutShare t c := by
  rw [share_eq, h]
  rfl

theorem cutShare_of_started {c : Cut} {x : Started} (hx : c.started = some x) (hl : c.onLadder = true) (t : TrackIx) :
    cutShare t c = if x.resolved = t then c.axles else 0 := by
  simp [cutShare, axlesFor, hx, hl]

/-- A cut's axles are among those reserved on its track. -/
theorem Reserved.share_le (hy : Reserved d y) (t : TrackIx) (i : SlotIx) : y.share t i ≤ (y.trackOf t).reserved := by
  have hle := share_le_boundFor y t i
  rw [hy t]
  omega

/-! ## Rerouting, arrival, loss -/

theorem Reserved.reroute (hy : Reserved d y) (i : SlotIx) (t : TrackIx) (cause : Option ResolutionCause) :
    Reserved d (y.reroute e i t cause) := by
  unfold Yard.reroute
  split
  next c hc =>
    split
    next x hx =>
      split
      · exact hy
      next hl =>
        have hladder : c.onLadder = true := by simpa using hl
        split
        · exact hy.modifyStarted i _ fun _ => rfl
        · refine hy.of_slot (d' := d) i (fun j hj => cutAt_modifyCut_of_ne _ _ hj) fun u => ?_
          have hle := hy.share_le u i
          have hbefore := share_of_cutAt hc u
          rw [cutShare_of_started hx hladder] at hbefore
          have hafter : (((y.release x.resolved c.axles).reserve t c.axles).modifyStarted i
              (fun z => { z with resolved := t, route := e.ladder.routeOf t, cause := cause })).share u i =
              if t = u then c.axles else 0 := by
            have hsame : ((y.release x.resolved c.axles).reserve t c.axles).cutAt i = some c := hc
            rw [Yard.modifyStarted, share_modifyCut_self, hsame]
            exact cutShare_of_started (x := { x with resolved := t, route := e.ladder.routeOf t, cause := cause })
              (c := { c with
                started := c.started.map (fun z => { z with resolved := t, route := e.ladder.routeOf t, cause := cause }) })
              (by rw [hx]; rfl) hladder u
          have htrack : ((((y.release x.resolved c.axles).reserve t c.axles).modifyStarted i
              (fun z => { z with resolved := t, route := e.ladder.routeOf t, cause := cause })).trackOf u).reserved =
              (y.trackOf u).reserved - (if x.resolved = u then c.axles else 0) + if t = u then c.axles else 0 := by
            rw [Yard.trackOf, Yard.modifyStarted_tracks, ← Yard.trackOf, reserved_reserve, reserved_release]
          rw [hafter, htrack]
          omega
    · exact hy
  · exact hy

theorem Reserved.account (l : Ladder) (n : Nat) (t u : TrackIx) (y : Yard) :
    ((y.account l t n).trackOf u).reserved = (y.trackOf u).reserved - if t = u then n else 0 := by
  have key : ∀ f : Nat, (((y.modifyTrack t (fun x => { x with fill := f })).release t n).trackOf u).reserved =
      (y.trackOf u).reserved - if t = u then n else 0 := fun f => by
    rw [reserved_release, Yard.trackOf_modifyTrack]
    split <;> rfl
  unfold Yard.account
  dsimp only
  split <;> exact key _

theorem slots_account (l : Ladder) (n : Nat) (t : TrackIx) (y : Yard) : (y.account l t n).slots = y.slots := by
  unfold Yard.account
  dsimp only
  split <;> rfl

theorem Reserved.arrive (hy : Reserved d y) (i : SlotIx) : Reserved d (y.arrive e i) := by
  unfold Yard.arrive
  split
  next c hc =>
    split
    next x hx =>
      split
      next hr =>
        have hladder : c.onLadder = true := by simp [Cut.onLadder, hr]
        refine Reserved.of_fields (y := (y.modifyCut i (fun z => { z with state := .arrived, actual := some x.resolved })).account
          e.ladder x.resolved c.axles) ?_ rfl rfl
        refine hy.of_slot i (fun j hj => ?_) fun u => ?_
        · rw [Yard.cutAt_congr (slots_account _ _ _ _), cutAt_modifyCut_of_ne _ _ hj]
        · have hle := hy.share_le u i
          have hbefore := share_of_cutAt hc u
          rw [cutShare_of_started hx hladder] at hbefore
          have hafter : ((y.modifyCut i (fun z => { z with state := .arrived, actual := some x.resolved })).account e.ladder
              x.resolved c.axles).share u i = 0 := by
            rw [share_eq, Yard.cutAt_congr (slots_account _ _ _ _), ← share_eq, share_modifyCut_self, hc]
            exact cutShare_of_not_onLadder (c := { c with state := .arrived, actual := some x.resolved }) rfl
          rw [hafter, Reserved.account, Yard.trackOf, Yard.modifyCut_tracks, ← Yard.trackOf]
          omega
      · exact hy
    · exact hy
  · exact hy

/-- A cut is marked LOST and its axles are owed. -/
theorem Reserved.lost {c : Cut} (hy : Reserved d y) (hc : y.cutAt i = some c) (hl : c.onLadder = true) :
    Reserved (oweCut c d) (y.modifyCut i (fun z => { z with state := .lost })) := by
  refine hy.of_slot i (fun j hj => cutAt_modifyCut_of_ne _ _ hj) fun u => ?_
  have hafter : (y.modifyCut i (fun z => { z with state := .lost })).share u i = 0 := by
    rw [share_modifyCut_self, hc]
    exact cutShare_of_not_onLadder (c := { c with state := .lost }) rfl
  rw [hafter, share_of_cutAt hc, cutShare, if_pos hl, Yard.trackOf, Yard.modifyCut_tracks, ← Yard.trackOf, oweCut]
  omega

/-- The release of a lost cut's axles pays what is owed for it. -/
theorem Reserved.releaseLost {c : Cut} (hy : Reserved (oweCut c d) y) : Reserved d (y.releaseLost c) := by
  intro u
  have hreserved := hy u
  unfold Yard.releaseLost
  unfold oweCut axlesFor at hreserved
  cases hx : c.started with
  | none =>
    simp only [hx] at hreserved ⊢
    omega
  | some x =>
    simp only [hx] at hreserved ⊢
    have hbound : boundFor (y.release x.resolved c.axles) u = boundFor y u := boundFor_congr fun i => share_congr (Yard.cutAt_congr rfl i) u
    rw [reserved_release, hbound]
    omega

/-- The record of a slot that holds nothing reserved is replaced by one that holds nothing reserved. -/
theorem Reserved.putSlot {r : Option Record} (hy : Reserved d y) (hbefore : ∀ c, y.cutAt i = some c → c.onLadder = false)
    (hafter : ∀ c, r = some (.cut c) → c.onLadder = false) : Reserved d (y.putSlot i r) := by
  refine hy.of_same_share i (fun j hj => ?_) (fun t => ?_) rfl
  · rw [Yard.cutAt, Yard.look_putSlot, if_neg (Ne.symm hj)]
    rfl
  · have hzero : ∀ z : Yard, (∀ c, z.cutAt i = some c → c.onLadder = false) → z.share t i = 0 := fun z hz => by
      rw [share_eq]
      cases hc : z.cutAt i with
      | none => rfl
      | some c => exact cutShare_of_not_onLadder (hz c hc)
    rw [hzero y hbefore, hzero _ fun c hc => hafter c ?_]
    rw [Yard.cutAt, Yard.look_putSlot, if_pos rfl] at hc
    split at hc
    next c' => rw [← Option.some.inj hc]
    · cases hc

/-- A PENDING cut begins its way down, its axles reserved (R92, R116). -/
theorem Reserved.begun {c : Cut} (x : Started) (l : List SlotIx) (hy : Reserved d y) (hc : y.cutAt i = some c) (hp : c.state = .pending) :
    Reserved d ((({ y with pendingList := l }).putSlot i
      (some (.cut { c with state := .entering, started := some x }))).reserve x.resolved c.axles) := by
  refine hy.of_slot i (fun j hj => ?_) fun u => ?_
  · exact (Yard.cutAt_putSlot_cut i j _ _).trans (if_neg (Ne.symm hj))
  · have hafter : ((({ y with pendingList := l }).putSlot i
        (some (.cut { c with state := .entering, started := some x }))).reserve x.resolved c.axles).share u i =
        if x.resolved = u then c.axles else 0 :=
      (share_of_cutAt (c := { c with state := .entering, started := some x })
        ((Yard.cutAt_putSlot_cut i i _ _).trans (if_pos rfl)) u).trans (cutShare_of_started rfl rfl u)
    rw [hafter, share_of_cutAt hc, cutShare_of_not_onLadder (by simp [Cut.onLadder, hp]), reserved_reserve]
    have hsame : ((({ y with pendingList := l } : Yard).putSlot i
        (some (.cut { c with state := .entering, started := some x }))).trackOf u).reserved = (y.trackOf u).reserved := rfl
    rw [hsame]
    omega

/-- The reserved count of a short cut's track falls by the difference of its counts (R97, R116). -/
theorem Reserved.shortened {c : Cut} {x : Started} (hy : Reserved d y) (hc : y.cutAt i = some c) (hx : c.started = some x)
    (hst : c.state = .entering) :
    Reserved d (((y.putSlot i (some (.cut (shortened c x)))).release x.resolved c.axles).reserve x.resolved x.crestAxles) := by
  refine hy.of_slot i (fun j hj => ?_) fun u => ?_
  · exact (Yard.cutAt_putSlot_cut i j _ _).trans (if_neg (Ne.symm hj))
  · have hle := hy.share_le u i
    have hbefore := share_of_cutAt hc u
    rw [cutShare_of_started hx (by simp [Cut.onLadder, hst])] at hbefore
    have hafter : (((y.putSlot i (some (.cut (Machine.shortened c x)))).release x.resolved c.axles).reserve x.resolved
        x.crestAxles).share u i = if x.resolved = u then x.crestAxles else 0 :=
      (share_of_cutAt (c := Machine.shortened c x) ((Yard.cutAt_putSlot_cut i i _ _).trans (if_pos rfl)) u).trans
        (cutShare_of_started (x := { x with short := some c.axles }) rfl rfl u)
    have hsame : ((y.putSlot i (some (.cut (Machine.shortened c x)))).trackOf u).reserved = (y.trackOf u).reserved := rfl
    rw [hafter, reserved_reserve, reserved_release, hsame]
    omega

theorem planClosed_reserved (e : Env) (d : TrackIx → Nat) : PlanClosed e (Reserved d) where
  plan _ q f hy := hy.of_fields (by simp) (by simp)
  speed _ i n hy := hy.modifyStarted i _ fun _ => rfl
  remove _ _ hy := hy.of_fields rfl rfl
  pop _ _ _ hy _ := hy.of_fields rfl rfl
  place y w hy := hy.of_fields (by unfold Yard.placeWaiting; split <;> rfl) (by unfold Yard.placeWaiting; split <;> rfl)
  divert y i q l c hy := by
    unfold Yard.divertInto
    split
    next x t _ _ =>
      have hroute := (hy.reroute (e := e) i t none).modifyStarted i
        (fun z => { z with diversions := addDiversion q c x.resolved z.diversions }) fun _ => rfl
      exact hroute.of_fields rfl rfl
    · exact hy
  cancelled _ _ hy := hy.of_fields rfl rfl
  grant y w hy _ _ hel := by
    obtain ⟨origin, hl⟩ := lie_of_eligible hel
    rw [grant_of_lie hl]
    unfold Yard.grantPlanned
    split
    all_goals exact hy.of_fields (by simp) (by simp)

theorem Reserved.losePoint (p : PointIx) (c : FaultCause) (hy : Reserved d y) : Reserved d (y.losePoint e p c) := by
  have hplan := planClosed_reserved e d
  unfold Yard.losePoint
  dsimp only
  split
  next x hx =>
    split
    · exact hy
    · have finish : ∀ a : Yard, Reserved d a →
          Reserved d ((((a.setPointState p (.lost c)).raisePoint p .lost).reportLost).evaluate e p) :=
        fun a ha => hplan.evaluate _ (ha.of_fields (by simp) (by simp))
      refine finish _ (hplan.dropLost p ?_)
      split
      · exact hplan.arbitrate (hy.of_fields rfl rfl)
      · exact hy
  · exact hy

theorem lawClosed_reserved (e : Env) : LawClosed e reservations Reserved := by
  have hplan := planClosed_reserved e
  exact {
    plan := hplan
    losePoint := fun _ y p c hy => hy.losePoint p c
    notices := fun _ y f _ hy => hy.of_fields rfl rfl
    raised := fun _ y _ _ hy => hy.of_fields rfl rfl
    queue := fun _ y q l _ hy => hy.of_fields rfl rfl
    joined := fun _ y q l hy => hy.of_fields rfl rfl
    absorbed := fun _ y j x _ hy => hy.of_fields rfl rfl
    crest := fun _ y f hy => hy.of_fields rfl rfl
    mark := fun _ y c sid _ hy => hy.of_fields (by simp [Yard.markDisturbed]) (by simp [Yard.markDisturbed])
    told := fun d y sid hy => by
      refine Reserved.of_fields (y := y.sectionTold e sid) ?_ (by simp) (by simp)
      unfold Yard.sectionTold
      repeat' split
      · exact hy
      · exact Reserved.losePoint _ _ hy
      · exact (hplan d).sectionNotClear _ hy
    strike := fun _ y sid i _ hy => hy.of_fields (by simp) (by simp)
    lost := fun _ y i c hc hl hy => hy.lost hc hl
    release := fun _ y c hy => hy.releaseLost
    started := fun _ y i f hf hy => hy.modifyStarted i f hf
    reroute := fun _ y i t c hy => hy.reroute i t c
    arrive := fun _ y i hy => hy.arrive i
    rawCount := fun _ y sid f _ hy => hy.of_fields (by simp) (by simp)
    occupied := fun _ y sid i _ hy => hy.of_fields (by simp) (by simp)
    axle := fun _ y p hy => by
      unfold Yard.axleAtPoint
      split
      · exact Reserved.losePoint _ _ hy
      · exact hy
    credit := fun _ y sid i _ _ hy => hy.of_fields (by simp [Yard.credit]) (by simp [Yard.credit])
    emptied := fun _ y sid x _ _ hy => hy.of_fields (by simp [emptied]) (by simp [emptied])
    relisted := fun _ y sid x l _ _ _ hy => hy.of_fields (by simp) (by simp)
    restarted := fun _ y sid x _ _ hy => hy.of_fields (by simp [Yard.restartStall]) (by simp [Yard.restartStall])
    stalled := fun _ y sid hy => by
      obtain he | ⟨x, t, -, -, -, he⟩ := stallExpired_cases e sid y <;> rw [he]
      · exact hy
      · exact hy.of_fields (by simp) (by simp)
    slot := fun _ y i r hbefore hafter hy => hy.putSlot hbefore hafter
    rolling := fun _ y i hy => hy.modifyCut i _ fun t c => by
      split
      next hst => simp [cutShare, axlesFor, Cut.onLadder, hst]
      · rfl
    begun := fun _ y i c x l hc hp hy => hy.begun x l hc hp
    shortened := fun _ y i c x hc hx hst hy => hy.shortened hc hx hst
    control := fun _ y f _ hy => hy.of_fields rfl rfl
    detection := fun _ y p f _ hy => hy.of_fields (by simp) (by simp)
    ended := fun _ y p st l st' _ _ _ hy => hy.of_fields (by simp [endMotion]) (by simp [endMotion])
    timeout := fun _ y p hy => by
      obtain he | ⟨_, _, _, _, _, _, he⟩ := throwTimeout_cases e p y <;> rw [he]
      · exact hy
      · exact hy.of_fields (by simp) (by simp)
    restored := fun _ y p st l _ _ hy => by
      unfold reproved
      split <;> exact hy.of_fields (by simp) (by simp)
    cleared := fun y sid x _ _ hy => hy.of_fields (by simp) (by simp)
    excused := fun y x hy => by
      unfold reportReset
      dsimp only
      repeat' split
      all_goals exact Reserved.of_fields (y := y) hy rfl rfl
    listed := fun _ y l hy => hy.of_fields rfl rfl
    dest := fun _ y i dst hy => hy.modifyCut i _ fun t c => rfl
    track := fun _ y t f hf hy u => by
      have htrack : ((y.modifyTrack t f).trackOf u).reserved = (y.trackOf u).reserved := by
        rw [Yard.trackOf_modifyTrack]
        split
        · exact (hf _).1
        · rfl
      rw [htrack, hy u]
      rfl }

/-! ## The obligation -/

theorem reservedLaw_iff (s : State) : s.ReservedLaw ↔ Reserved (fun _ => 0) s.yard := by
  simp [State.ReservedLaw, Reserved, boundFor]

theorem startupYard_slots (s : State) : (startupYard s).slots = s.yard.slots ∧ (startupYard s).tracks = s.yard.tracks := by
  have hraise : ∀ (l : List PointIx) (y : Yard), (l.foldl (fun z p => z.raisePoint p .lost) y).slots = y.slots ∧
      (l.foldl (fun z p => z.raisePoint p .lost) y).tracks = y.tracks := by
    intro l
    induction l with
    | nil => exact fun _ => ⟨rfl, rfl⟩
    | cons p l ih => exact fun y => ih (y.raisePoint p .lost)
  exact hraise _ _

theorem reserved_reset : Reserved (fun _ => 0) Yard.reset := by
  intro t
  have hzero : ∀ i, Yard.reset.share t i = 0 := fun i => by simp [share_eq, Yard.cutAt, Yard.reset]
  have htrack : (Yard.reset.trackOf t).reserved = 0 := by simp [Yard.trackOf, Yard.reset]
  simp [boundFor, hzero, htrack]

theorem reserved_decommission (hy : Reserved d y) : Reserved d y.decommission := by
  unfold Yard.decommission
  exact (lawClosed_reserved (e := { now := 0, ladder := Ladder.reset })).judgeMarker (hy.of_fields rfl rfl)

theorem exec_keeps_reservedLaw (c : Instr) (s t : State) (hs : s.ReservedLaw) (h : exec c s = .next t) : t.ReservedLaw := by
  rw [reservedLaw_iff] at hs ⊢
  refine exec_keeps_law (k := reservations) (P := Reserved) (lawClosed_reserved s.env) (fun {y z} hag hy u => ?_) reserved_reset
    (fun _ hy => hy.of_fields (startupYard_slots s).1 (startupYard_slots s).2) (fun hy => reserved_decommission hy) hs h
  rw [hag.reserved, hy u, boundFor_congr fun i => share_congr (Yard.cutAt_congr hag.slots i) u]

/-- Settles O13: a reservation is made as a cut begins, moves with its resolved track, and is released as the cut arrives or,
after the disturbances that its loss spreads, as it is lost. -/
theorem reservedLawIsKept : Obligations.ReservedLawIsKept :=
  step_keeps_of_exec_keeps (fun _ _ hs => hs) exec_keeps_reservedLaw

end Sys2Proof.Proofs
end


section
/-! PROOFS. The counts (R40, R41, R163): every step keeps the section records lawful and the disturbed, stall and lost counts
true. -/

namespace Sys2Proof.Proofs

open Sys2Proof Sys2Proof.Machine Sys2Proof.Spec

/-- What the counts may be off by in the course of an event: DISTURBED sections not yet reported, and sections and stall flags
reset but not yet reported (R55, R63). -/
structure CountDebt where
  due : Nat
  cleared : Nat
  unstalled : Nat

/-- A marked section is due to be reported, a section reset is reported after the losses it brings. -/
def countDebts : Debts CountDebt :=
  { settled := ⟨0, 0, 0⟩, marked := fun _ d => { d with due := d.due + 1 }, orphaned := fun _ d => d, entered := fun _ d => d,
    forgiven := fun x => ⟨0, (x.state == .disturbed).toNat, x.stallFlag.toNat⟩, marked_comm := fun _ _ _ => rfl,
    entered_lead := fun _ => rfl }

/-- The number of DISTURBED sections. -/
def disturbedCount (y : Yard) : Nat := (y.sectionsWith (fun x => x.state == .disturbed)).length

/-- The number of set stall flags. -/
def stallCount (y : Yard) : Nat := (y.sectionsWith (fun x => x.stallFlag)).length

/-- The point is LOST. -/
def isLostAt (y : Yard) (p : PointIx) : Bool := ((y.pointStateOf p).map PointState.isLost) == some true

/-- The number of LOST points. -/
def lostCount (y : Yard) : Nat := ((List.finRange 40).filter (isLostAt y)).length

/-- Every section record is lawful and the counts are true but for what is owed. -/
structure Counted (d : CountDebt) (y : Yard) : Prop where
  lawful : ∀ sid x, y.sectionOf sid = some x → x.Lawful
  disturbed : y.control.disturbed + d.due = disturbedCount y + d.cleared
  stall : y.control.stall = stallCount y + d.unstalled
  lost : y.control.lost = lostCount y

variable {e : Env} {y z : Yard} {d : CountDebt} {sid : SectionId} {x : Section} {p : PointIx}

/-! ## Counts over the sections and the points -/

theorem allSections_nodup : allSections.Nodup := by
  rw [allSections, List.nodup_cons]
  refine ⟨by simp, (List.nodup_finRange 40).map fun p q h => ?_⟩
  exact SectionId.point.inj h

theorem mem_allSections (sid : SectionId) : sid ∈ allSections := by
  cases sid <;> simp [allSections]

/-- The bit that a section record with a property counts for. -/
def bitOf (f : Section → Bool) (o : Option Section) : Nat := ((o.map f) == some true).toNat

theorem sectionsWith_congr (f : Section → Bool) (h : ∀ sid, z.sectionOf sid = y.sectionOf sid) :
    (z.sectionsWith f).length = (y.sectionsWith f).length := by
  simp [Yard.sectionsWith, h]

/-- A count over the sections changes by what one section changes. -/
theorem sectionsWith_change (f : Section → Bool) (sid : SectionId) (h : ∀ sid', sid' ≠ sid → z.sectionOf sid' = y.sectionOf sid') :
    (z.sectionsWith f).length + bitOf f (y.sectionOf sid) = (y.sectionsWith f).length + bitOf f (z.sectionOf sid) :=
  count_change_one (f := fun sid => ((y.sectionOf sid).map f) == some true) (g := fun sid => ((z.sectionOf sid).map f) == some true)
    allSections_nodup (mem_allSections sid) fun sid' hne => by rw [h sid' hne]

theorem isLostAt_congr (h : z.pointStateOf p = y.pointStateOf p) : isLostAt z p = isLostAt y p := by
  rw [isLostAt, isLostAt, h]

theorem lostCount_congr (h : ∀ p, isLostAt z p = isLostAt y p) : lostCount z = lostCount y := by
  rw [lostCount, lostCount, funext h]

theorem lostCount_change (p : PointIx) (h : ∀ q, q ≠ p → isLostAt z q = isLostAt y q) :
    lostCount z + (isLostAt y p).toNat = lostCount y + (isLostAt z p).toNat :=
  count_change_one (List.nodup_finRange 40) (List.mem_finRange p) h

/-! ## What leaves the counts true -/

/-- The three counts of the mode controller are the same. -/
def SameCounts (y z : Yard) : Prop :=
  z.control.disturbed = y.control.disturbed ∧ z.control.stall = y.control.stall ∧ z.control.lost = y.control.lost

theorem sameCounts_of_control (h : z.control = y.control) : SameCounts y z := by simp [SameCounts, h]

theorem Counted.of_same (hy : Counted d y) (hsection : ∀ sid, z.sectionOf sid = y.sectionOf sid)
    (hlost : ∀ p, isLostAt z p = isLostAt y p) (hcounts : SameCounts y z) : Counted d z := by
  obtain ⟨hd, hs, hl⟩ := hcounts
  obtain ⟨lawful, disturbed, stall, lost⟩ := hy
  refine ⟨fun sid x hx => lawful sid x ((hsection sid).symm.trans hx), ?_, ?_, ?_⟩
  · rw [hd, disturbedCount, sectionsWith_congr _ hsection]
    exact disturbed
  · rw [hs, stallCount, sectionsWith_congr _ hsection]
    exact stall
  · rw [hl, lostCount_congr hlost]
    exact lost

theorem Counted.of_standing (hy : Counted d y) (hpoints : ∀ p, z.pointStateOf p = y.pointStateOf p) (h : z.standing = y.standing) :
    Counted d z := by
  obtain ⟨-, -, -, -, -, -, -, hcontrol⟩ := Yard.standing_ext h
  exact hy.of_same (sectionOf_of_standing h) (fun p => isLostAt_congr (hpoints p)) (sameCounts_of_control hcontrol)

theorem Counted.of_fields (hy : Counted d y) (hpoints : z.points = y.points) (hlead : z.lead = y.lead)
    (hsections : z.sections = y.sections) (hcontrol : z.control = y.control) : Counted d z :=
  hy.of_same (sectionOf_of_fields hlead hsections) (fun p => isLostAt_congr (pointStateOf_congr hpoints p))
    (sameCounts_of_control hcontrol)

theorem bitOf_some (f : Section → Bool) (x : Section) : bitOf f (some x) = (f x).toNat := by
  cases h : f x <;> simp [bitOf, h]

/-- One section record is replaced, and the counts move with it. -/
theorem Counted.of_section {d' : CountDebt} {x' : Section} (hy : Counted d y) (hx : y.sectionOf sid = some x)
    (hx' : z.sectionOf sid = some x') (hother : ∀ sid', sid' ≠ sid → z.sectionOf sid' = y.sectionOf sid')
    (hpoints : z.points = y.points) (hlawful : x'.Lawful) (hlost : z.control.lost = y.control.lost)
    (hdisturbed : z.control.disturbed + d'.due + d.cleared + (x.state == .disturbed).toNat =
      y.control.disturbed + d.due + d'.cleared + (x'.state == .disturbed).toNat)
    (hstall : z.control.stall + d.unstalled + x.stallFlag.toNat = y.control.stall + d'.unstalled + x'.stallFlag.toNat) :
    Counted d' z := by
  obtain ⟨lawful, disturbed, stall, lost⟩ := hy
  have hd := sectionsWith_change (fun x => x.state == .disturbed) sid hother
  have hs := sectionsWith_change (fun x => x.stallFlag) sid hother
  rw [hx, hx', bitOf_some, bitOf_some] at hd hs
  refine ⟨fun sid' w hw => ?_, ?_, ?_, ?_⟩
  · by_cases hsid : sid' = sid
    · subst hsid
      rw [hx', Option.some.injEq] at hw
      exact hw ▸ hlawful
    · exact lawful sid' w ((hother sid' hsid).symm.trans hw)
  · unfold disturbedCount at disturbed ⊢
    omega
  · unfold stallCount at stall ⊢
    omega
  · rw [hlost, lost]
    exact (lostCount_congr fun p => isLostAt_congr (pointStateOf_congr hpoints p)).symm

/-- A set stall flag is counted. -/
theorem Counted.stall_pos (hy : Counted d y) (hx : y.sectionOf sid = some x) (h : x.stallFlag = true) : 0 < y.control.stall := by
  have hmem : sid ∈ y.sectionsWith (fun x => x.stallFlag) := by
    simp [Yard.sectionsWith, mem_allSections, hx, h]
  have hpos := List.length_pos_of_mem hmem
  have hstall := hy.stall
  unfold stallCount at hstall
  omega

theorem Counted.stall_sub (hy : Counted d y) (hx : y.sectionOf sid = some x) :
    y.control.stall - x.stallFlag.toNat + x.stallFlag.toNat = y.control.stall := by
  cases h : x.stallFlag with
  | false => rfl
  | true =>
    have hpos := hy.stall_pos hx h
    rw [Bool.toNat_true]
    omega

/-! ## Lawful records (R39, R40, R41) -/

theorem lawful_of_occupied {l : List Occupant} (hocc : x.state = .occupied) (hne : x.occupants ≠ []) (hcause : x.cause = none)
    (hflag : x.stallFlag = true → x.stallTimer = none) (hl : x.occupants = l) (hcount : x.count = axleCount l) : x.Lawful := by
  subst hl
  exact ⟨by simp [hocc, hne], by simp [hocc, hcause], fun h => absurd hocc h, hflag, fun _ => hcount⟩

theorem occupied_of_lawful (h : x.Lawful) (hne : x.occupants ≠ []) : x.state = .occupied := h.1.mpr hne

theorem cause_of_lawful (h : x.Lawful) (hst : x.state ≠ .disturbed) : x.cause = none := by
  by_contra hc
  exact hst (h.2.1.mpr hc)

theorem occupants_of_lawful (h : x.Lawful) (hst : x.state = .disturbed) : x.occupants = [] := by
  by_contra hne
  have hocc := occupied_of_lawful h hne
  rw [hst] at hocc
  cases hocc

theorem lawful_disturbedRecord (c : DisturbCause) (x : Section) : (disturbedRecord c x).Lawful := by
  simp [Section.Lawful, disturbedRecord]

theorem lawful_cleared (x : Section) : x.cleared.Lawful := by
  simp [Section.Lawful, Section.cleared]

theorem lawful_startup (n : Nat) : (startupSection n).Lawful := by
  simp [Section.Lawful, startupSection]

theorem timer_of_lawful {t : Instant} (h : x.Lawful) (ht : x.stallTimer = some t) :
    x.state = .occupied ∧ x.stallFlag = false := by
  obtain ⟨-, -, hidle, hflag, -⟩ := h
  constructor
  · by_contra hst
    rw [(hidle hst).1] at ht
    cases ht
  · rw [← Bool.not_eq_true]
    intro hf
    rw [hflag hf] at ht
    cases ht

theorem trusted_of_occupied (h : x.state = .occupied) : x.state ≠ .disturbed := by
  rw [h]
  exact SectionState.noConfusion

theorem lawful_stalledRecord {t : Instant} (h : x.Lawful) (ht : x.stallTimer = some t) : (stalledRecord x).Lawful := by
  obtain ⟨hocc, -⟩ := timer_of_lawful h ht
  have hcause := cause_of_lawful h (trusted_of_occupied hocc)
  exact lawful_of_occupied (l := x.occupants) hocc (h.1.mp hocc) hcause (fun _ => rfl) rfl (h.2.2.2.2 (trusted_of_occupied hocc))

theorem lawful_relist {l : List Occupant} (h : x.Lawful) (hne : x.occupants ≠ []) (hl : l ≠ []) : (x.relist l).Lawful := by
  have hocc := occupied_of_lawful h hne
  have hcause := cause_of_lawful h (trusted_of_occupied hocc)
  exact lawful_of_occupied (l := l) hocc hl hcause h.2.2.2.1 rfl rfl

theorem lawful_restarted {t : Instant} (h : x.Lawful) (hne : x.occupants ≠ []) :
    ({ x with stallFlag := false, stallTimer := some t } : Section).Lawful := by
  have hocc := occupied_of_lawful h hne
  have hcause := cause_of_lawful h (trusted_of_occupied hocc)
  exact lawful_of_occupied (l := x.occupants) hocc hne hcause (fun hf => by cases hf) rfl (h.2.2.2.2 (trusted_of_occupied hocc))

theorem lawful_occupiedRecord (h : x.Lawful) (hst : x.state ≠ .disturbed) (i : SlotIx) : (occupiedRecord e i x).Lawful := by
  have hcause := cause_of_lawful h hst
  refine lawful_of_occupied (l := x.occupants ++ [{ slot := i, entered := 1, exited := 0 }]) rfl
    (by simp [occupiedRecord, Section.relist]) hcause (fun hf => ?_) rfl rfl
  have hflag : x.stallFlag = true := hf
  have hocc : x.state = .occupied := by
    by_contra hno
    rw [(h.2.2.1 hno).2] at hflag
    cases hflag
  have hclear : x.state ≠ .clear := by
    rw [hocc]
    exact SectionState.noConfusion
  exact (if_neg hclear).trans (h.2.2.2.1 hflag)

theorem lawful_emptied (h : x.Lawful) (hne : x.occupants ≠ []) :
    ({ x.relist [] with stallFlag := false, state := .clear, stallTimer := none } : Section).Lawful := by
  have hcause := cause_of_lawful h (by rw [occupied_of_lawful h hne]; exact SectionState.noConfusion)
  simp [Section.Lawful, Section.relist, hcause]

theorem lawful_recounted {f : Nat → Nat} (h : x.Lawful) (hst : x.state = .disturbed) :
    ({ x with count := f x.count } : Section).Lawful := by
  obtain ⟨h1, h2, h3, h4, -⟩ := h
  exact ⟨h1, h2, h3, h4, fun hne => absurd hst hne⟩

/-! ## Sections -/

theorem sectionOf_some_of_trusted (h : y.trusted sid = true) : ∃ x, y.sectionOf sid = some x ∧ x.state ≠ .disturbed := by
  unfold Yard.trusted Yard.sectionState at h
  cases hx : y.sectionOf sid with
  | none => simp [hx] at h
  | some x =>
    refine ⟨x, rfl, fun hst => ?_⟩
    simp [hx, hst] at h

theorem disturbedBit_of_ne (h : x.state ≠ .disturbed) : (x.state == SectionState.disturbed).toNat = 0 := by simp [h]

theorem stallSet_eq (hx : y.sectionOf sid = some x) : (if stallSet y sid then 1 else 0) = x.stallFlag.toNat := by
  cases h : x.stallFlag <;> simp [stallSet, hx, h]

/-- A section is marked DISTURBED and due to be reported (R55). -/
theorem Counted.mark (c : DisturbCause) (htrust : y.trusted sid = true) (hy : Counted d y) :
    Counted { d with due := d.due + 1 } (y.markDisturbed c sid) := by
  obtain ⟨x, hx, hst⟩ := sectionOf_some_of_trusted htrust
  refine hy.of_section (x' := disturbedRecord c x) hx ?_ (fun sid' hne => ?_) (by simp [Yard.markDisturbed])
    (lawful_disturbedRecord c x) ?_ ?_ ?_
  · rw [sectionOf_markDisturbed, if_pos rfl, hx]
    rfl
  · rw [sectionOf_markDisturbed, if_neg (Ne.symm hne)]
  · rw [control_markDisturbed]
  · rw [control_markDisturbed, disturbedBit_of_ne hst]
    have hbit : ((disturbedRecord c x).state == SectionState.disturbed).toNat = 1 := rfl
    rw [hbit]
    dsimp only
    omega
  · rw [control_markDisturbed, stallSet_eq hx]
    have hsub := hy.stall_sub hx
    have hbit : (disturbedRecord c x).stallFlag.toNat = 0 := rfl
    rw [hbit]
    dsimp only
    omega

/-- A section's record is replaced by a lawful one that counts the same. -/
theorem Counted.recorded {x' : Section} (hy : Counted d y) (hx : y.sectionOf sid = some x) (hlawful : x'.Lawful)
    (hstate : (x'.state == .disturbed) = (x.state == .disturbed)) (hflag : x'.stallFlag = x.stallFlag)
    (hx' : z.sectionOf sid = some x') (hother : ∀ sid', sid' ≠ sid → z.sectionOf sid' = y.sectionOf sid')
    (hpoints : z.points = y.points) (hcontrol : z.control = y.control) : Counted d z :=
  hy.of_section hx hx' hother hpoints hlawful (by rw [hcontrol]) (by rw [hcontrol, hstate]) (by rw [hcontrol, hflag])

theorem Counted.putSection {x' : Section} (hy : Counted d y) (hx : y.sectionOf sid = some x) (hlawful : x'.Lawful)
    (hstate : (x'.state == .disturbed) = (x.state == .disturbed)) (hflag : x'.stallFlag = x.stallFlag) :
    Counted d (y.putSection sid (some x')) :=
  hy.recorded hx hlawful hstate hflag (by rw [Yard.sectionOf_putSection, if_pos rfl])
    (fun sid' hne => by rw [Yard.sectionOf_putSection, if_neg (Ne.symm hne)]) (by simp) (by simp)

theorem Counted.modifySection {f : Section → Section} (hy : Counted d y)
    (hf : ∀ x, y.sectionOf sid = some x → x.Lawful → (f x).Lawful ∧ ((f x).state == .disturbed) = (x.state == .disturbed) ∧
      (f x).stallFlag = x.stallFlag) : Counted d (y.modifySection sid f) := by
  unfold Yard.modifySection
  cases hx : y.sectionOf sid with
  | none => exact hy
  | some x =>
    obtain ⟨hlawful, hstate, hflag⟩ := hf x hx (hy.lawful sid x hx)
    exact hy.putSection hx hlawful hstate hflag

/-- A section's stall flag clears with the rest of a lawful change of its record (R41, R61). -/
theorem Counted.unstalled {x' : Section} (hy : Counted d y) (hx : y.sectionOf sid = some x) (hx' : z.sectionOf sid = some x')
    (hother : ∀ sid', sid' ≠ sid → z.sectionOf sid' = y.sectionOf sid') (hpoints : z.points = y.points) (hlawful : x'.Lawful)
    (hstate : (x'.state == .disturbed) = (x.state == .disturbed)) (hflag : x'.stallFlag = false)
    (hcontrol : z.control = { y.control with stall := y.control.stall - x.stallFlag.toNat }) : Counted d z := by
  have hsub := hy.stall_sub hx
  refine hy.of_section hx hx' hother hpoints hlawful (by rw [hcontrol]) (by rw [hcontrol, hstate]) ?_
  rw [hcontrol, hflag, Bool.toNat_false]
  dsimp only
  omega

theorem sectionOf_emptied (sid : SectionId) (x : Section) (y : Yard) (sid' : SectionId) :
    (emptied sid x y).sectionOf sid' =
      if sid = sid' then some { x.relist [] with stallFlag := false, state := .clear, stallTimer := none } else y.sectionOf sid' := by
  rw [emptied, Yard.sectionOf_modifySection, sectionOf_clearStallFlag, Yard.sectionOf_putSection]
  split <;> rfl

theorem control_emptied (sid : SectionId) (x : Section) (y : Yard) :
    (emptied sid x y).control = { y.control with stall := y.control.stall - x.stallFlag.toNat } := by
  have hput : (y.putSection sid (some (x.relist []))).sectionOf sid = some (x.relist []) := by
    rw [Yard.sectionOf_putSection, if_pos rfl]
  rw [emptied, Yard.modifySection_control, control_clearStallFlag, stallSet_eq hput, Yard.putSection_control]
  rfl

theorem sectionOf_restartStall (hx : y.sectionOf sid = some x) (sid' : SectionId) :
    (y.restartStall e sid).sectionOf sid' =
      if sid = sid' then some { x with stallFlag := false, stallTimer := some (stallExpiry e x) } else y.sectionOf sid' := by
  rw [Yard.restartStall, Yard.sectionOf_modifySection, sectionOf_clearStallFlag]
  split
  next heq =>
    rw [← heq, hx]
    rfl
  · rfl

theorem control_restartStall (hx : y.sectionOf sid = some x) :
    (y.restartStall e sid).control = { y.control with stall := y.control.stall - x.stallFlag.toNat } := by
  rw [Yard.restartStall, Yard.modifySection_control, control_clearStallFlag, stallSet_eq hx]

/-! ## Reports -/

theorem sameCounts_enterCause (c : HaltCause) (y : Yard) : SameCounts y (y.enterCause c) := by
  unfold Yard.enterCause
  split <;> exact ⟨rfl, rfl, rfl⟩

theorem control_reportDisturbed (y : Yard) : y.reportDisturbed.control.disturbed = y.control.disturbed + 1 ∧
    y.reportDisturbed.control.stall = y.control.stall ∧ y.reportDisturbed.control.lost = y.control.lost := by
  unfold Yard.reportDisturbed
  dsimp only
  split
  · exact sameCounts_enterCause .disturbedSection (y.modifyControl (fun m => { m with disturbed := m.disturbed + 1 }))
  · exact ⟨rfl, rfl, rfl⟩

theorem control_reportLost (y : Yard) : y.reportLost.control.lost = y.control.lost + 1 ∧
    y.reportLost.control.stall = y.control.stall ∧ y.reportLost.control.disturbed = y.control.disturbed := by
  unfold Yard.reportLost
  dsimp only
  split
  · obtain ⟨hd, hs, hl⟩ := sameCounts_enterCause .lostPoint (y.modifyControl (fun m => { m with lost := m.lost + 1 }))
    exact ⟨hl, hs, hd⟩
  · exact ⟨rfl, rfl, rfl⟩

theorem control_reportStall (y : Yard) : y.reportStall.control.stall = y.control.stall + 1 ∧
    y.reportStall.control.disturbed = y.control.disturbed ∧ y.reportStall.control.lost = y.control.lost := by
  unfold Yard.reportStall
  dsimp only
  split
  · obtain ⟨hd, hs, hl⟩ := sameCounts_enterCause .stalledSection (y.modifyControl (fun m => { m with stall := m.stall + 1 }))
    exact ⟨hs, hd, hl⟩
  · exact ⟨rfl, rfl, rfl⟩

/-! ## Points -/

theorem planClosed_counted (e : Env) (d : CountDebt) : PlanClosed e (Counted d) where
  plan y q f hy := hy.of_standing (sameDrives_modifyPlan q f y).sameMotion.state (by simp)
  speed y i n hy := hy.of_standing (sameDrives_modifyStarted i _ y).sameMotion.state (by simp)
  remove y q hy := hy.of_fields rfl rfl rfl rfl
  pop y w rest hy _ := hy.of_fields rfl rfl rfl rfl
  place y w hy := by
    unfold Yard.placeWaiting
    split
    · exact hy
    · exact hy.of_fields rfl rfl rfl rfl
  divert y i q l c hy := hy.of_standing (sameDrives_divertInto i q l c y).sameMotion.state (by simp)
  cancelled y q hy := hy.of_fields rfl rfl rfl rfl
  grant y w hy _ _ hel := by
    obtain ⟨origin, hl⟩ := lie_of_eligible hel
    refine hy.of_same (sectionOf_of_standing (Yard.standing_grant e w y)) (fun p => ?_)
      (sameCounts_of_control (Yard.standing_ext (Yard.standing_grant e w y)).2.2.2.2.2.2.2)
    rw [isLostAt, pointStateOf_grant hl]
    split
    next heq =>
      subst heq
      cases hx : y.pointOf w.point with
      | none => simp [Yard.pointLie, hx] at hl
      | some x => cases hst : x.state <;> simp_all [Yard.pointLie, PointState.lie, PointState.isLost, isLostAt, Yard.pointStateOf]
    · rfl

theorem isLostAt_setPointState_of_ne {q : PointIx} {st : PointState} (h : p ≠ q) (y : Yard) :
    isLostAt (y.setPointState p st) q = isLostAt y q := isLostAt_congr (pointStateOf_setPointState_of_ne h y)

theorem isLostAt_of_state {st : PointState} (h : y.pointStateOf p = some st) : isLostAt y p = st.isLost := by
  cases hl : st.isLost <;> simp [isLostAt, h, hl]

theorem pointStateOf_setPointState_self {st st' : PointState} (h : y.pointStateOf p = some st) :
    (y.setPointState p st').pointStateOf p = some st' := by
  rw [Yard.pointStateOf_setPointState, if_pos rfl, h]
  rfl

/-- A point's state is set, and the count of LOST points moves with it. -/
theorem Counted.setPoint {st st' : PointState} (hy : Counted d y) (hst : y.pointStateOf p = some st)
    (hz : ∀ q, z.pointStateOf q = (y.setPointState p st').pointStateOf q) (hsection : ∀ sid, z.sectionOf sid = y.sectionOf sid)
    (hdisturbed : z.control.disturbed = y.control.disturbed) (hstall : z.control.stall = y.control.stall)
    (hlost : z.control.lost + st.isLost.toNat = y.control.lost + st'.isLost.toNat) : Counted d z := by
  have hcount := lostCount_change (y := y) (z := z) p fun q hq =>
    (isLostAt_congr (hz q)).trans (isLostAt_setPointState_of_ne (Ne.symm hq) y)
  rw [isLostAt_of_state hst, isLostAt_of_state ((hz p).trans (pointStateOf_setPointState_self hst))] at hcount
  obtain ⟨lawful, disturbed, stall, lost⟩ := hy
  refine ⟨fun sid x hx => lawful sid x ((hsection sid).symm.trans hx), ?_, ?_, ?_⟩
  · rw [hdisturbed, disturbedCount, sectionsWith_congr _ hsection]
    exact disturbed
  · rw [hstall, stallCount, sectionsWith_congr _ hsection]
    exact stall
  · omega

/-- The arbiter and the planner do not end a motion. -/
theorem planClosed_moving (e : Env) (p : PointIx) : PlanClosed e (fun y => y.pointInMotion p = true) :=
  planClosed_of_motion (fun h hy => (pointInMotion_congr (h.state p)).trans hy) fun y w origin hl _ hy => by
    have hne : w.point ≠ p := fun heq => by
      rw [← heq, notMoving_of_lie hl] at hy
      cases hy
    rw [pointInMotion_congr (y := y) (by rw [pointStateOf_grant hl, if_neg hne])]
    exact hy

theorem notLost_of_moving {st : PointState} (h : st.inMotion = true) : st.isLost = false := by
  cases st <;> simp_all [PointState.inMotion, PointState.isLost]

theorem Counted.losePoint (p : PointIx) (c : FaultCause) (hy : Counted d y) : Counted d (y.losePoint e p c) := by
  have hplan := planClosed_counted e d
  have finish : ∀ (a : Yard) (st : PointState), Counted d a → a.pointStateOf p = some st → st.isLost = false →
      Counted d ((((a.setPointState p (.lost c)).raisePoint p .lost).reportLost).evaluate e p) := fun a st ha hst hl => by
    obtain ⟨hlost, hstall, hdisturbed⟩ := control_reportLost ((a.setPointState p (.lost c)).raisePoint p .lost)
    refine hplan.evaluate _ (ha.setPoint (st' := .lost c) hst (fun q => ?_) (fun sid => ?_) ?_ ?_ ?_)
    · exact pointStateOf_congr (by simp) q
    · rw [sectionOf_reportLost]
      exact sectionOf_of_standing (by simp) sid
    · rw [hdisturbed]
      simp
    · rw [hstall]
      simp
    · rw [hlost, hl]
      simp [PointState.isLost]
  unfold Yard.losePoint
  dsimp only
  split
  next x hx =>
    split
    · exact hy
    next hl =>
      have hl : x.state.isLost = false := by simpa using hl
      split
      next hm =>
        have hfree : Counted d (y.freeDrive e p) := hplan.arbitrate (hy.of_fields rfl rfl rfl rfl)
        have hmoving : ((y.freeDrive e p).dropLost e p).pointInMotion p = true := by
          refine (planClosed_moving e p).dropLost p ((planClosed_moving e p).arbitrate ?_)
          change y.pointInMotion p = true
          rw [Yard.pointInMotion, hx, Option.map_some, hm]
          rfl
        obtain ⟨st, hst, hstm⟩ := (pointInMotion_iff _ p).mp hmoving
        exact finish _ st (hplan.dropLost p hfree) hst (notLost_of_moving hstm)
      · refine finish _ x.state (hplan.dropLost p hy) ?_ hl
        rw [Yard.pointStateOf, pointOf_dropLost, hx]
        rfl
  · exact hy

theorem Counted.sectionTold (sid : SectionId) (hy : Counted d y) : Counted d (y.sectionTold e sid) := by
  unfold Yard.sectionTold
  repeat' split
  · exact hy
  · exact hy.losePoint _ _
  · exact (planClosed_counted e d).sectionNotClear _ hy

/-- A section due to be reported has been reported (R55, R163). -/
theorem Counted.reported (hy : Counted { d with due := d.due + 1 } y) : Counted d y.reportDisturbed := by
  obtain ⟨hdisturbed, hstall, hlost⟩ := control_reportDisturbed y
  obtain ⟨lawful, disturbed, stall, lost⟩ := hy
  refine ⟨fun sid x hx => lawful sid x ((sectionOf_reportDisturbed y sid).symm.trans hx), ?_, ?_, ?_⟩
  · rw [hdisturbed, disturbedCount, sectionsWith_congr _ (sectionOf_reportDisturbed y)]
    unfold disturbedCount at disturbed
    dsimp only at disturbed
    omega
  · rw [hstall, stallCount, sectionsWith_congr _ (sectionOf_reportDisturbed y)]
    exact stall
  · rw [hlost, lost]
    exact (lostCount_congr fun p => isLostAt_congr (pointStateOf_congr (Yard.reportDisturbed_points y) p)).symm

/-- The stall flag of a section is set and reported (R61, R163). -/
theorem Counted.stallExpired (sid : SectionId) (hy : Counted d y) : Counted d (y.stallExpired e sid) := by
  obtain he | ⟨x, t, hx, ht, -, he⟩ := stallExpired_cases e sid y <;> rw [he]
  · exact hy
  · have hlawful := hy.lawful sid x hx
    obtain ⟨hocc, hflag⟩ := timer_of_lawful hlawful ht
    obtain ⟨hstall, hdisturbed, hlost⟩ := control_reportStall ((y.putSection sid (some (stalledRecord x))).raiseStall sid)
    refine hy.of_section (x' := stalledRecord x) hx ?_ (fun sid' hne => ?_) (by simp) (lawful_stalledRecord hlawful ht) ?_ ?_ ?_
    · rw [sectionOf_of_fields (y := y.putSection sid (some (stalledRecord x))) (by simp) (by simp), Yard.sectionOf_putSection, if_pos rfl]
    · rw [sectionOf_of_fields (y := y.putSection sid (some (stalledRecord x))) (by simp) (by simp), Yard.sectionOf_putSection,
        if_neg (Ne.symm hne)]
    · rw [hlost]
      simp
    · rw [hdisturbed]
      simp [stalledRecord]
    · rw [hstall, hflag]
      simp [stalledRecord]
      omega

/-- The record of a section reset; its counts are reported after the losses (R63). -/
theorem Counted.cleared (hy : Counted ⟨0, 0, 0⟩ y) (hx : y.sectionOf sid = some x) :
    Counted ⟨0, (x.state == .disturbed).toNat, x.stallFlag.toNat⟩ (y.putSection sid (some x.cleared)) := by
  refine hy.of_section (x' := x.cleared) hx (by rw [Yard.sectionOf_putSection, if_pos rfl])
    (fun sid' hne => by rw [Yard.sectionOf_putSection, if_neg (Ne.symm hne)]) (by simp) (lawful_cleared x) (by simp) ?_ ?_
  · have hbit : (x.cleared.state == SectionState.disturbed).toNat = 0 := rfl
    rw [hbit, Yard.putSection_control]
    simp only [Nat.add_zero]
  · have hbit : x.cleared.stallFlag.toNat = 0 := rfl
    rw [hbit, Yard.putSection_control]
    simp only [Nat.add_zero]

theorem reportReset_fields (x : Section) (y : Yard) : (reportReset x y).points = y.points ∧
    (∀ sid, (reportReset x y).sectionOf sid = y.sectionOf sid) ∧
    (reportReset x y).control.disturbed = y.control.disturbed - (x.state == .disturbed).toNat ∧
    (reportReset x y).control.stall = y.control.stall - x.stallFlag.toNat ∧
    (reportReset x y).control.lost = y.control.lost := by
  obtain ⟨state, count, occupants, timer, flag, limit, cause⟩ := x
  cases state <;> cases flag <;> exact ⟨rfl, sectionOf_of_fields rfl rfl, rfl, rfl, rfl⟩

theorem Counted.excused (x : Section) (hy : Counted ⟨0, (x.state == .disturbed).toNat, x.stallFlag.toNat⟩ y) :
    Counted ⟨0, 0, 0⟩ (reportReset x y) := by
  obtain ⟨lawful, disturbed, stall, lost⟩ := hy
  obtain ⟨hpoints, hsection, hdisturbed, hstall, hlost⟩ := reportReset_fields x y
  refine ⟨fun sid w hw => lawful sid w ((hsection sid).symm.trans hw), ?_, ?_, ?_⟩
  · rw [hdisturbed, disturbedCount, sectionsWith_congr _ hsection]
    unfold disturbedCount at disturbed
    dsimp only at disturbed ⊢
    omega
  · rw [hstall, stallCount, sectionsWith_congr _ hsection]
    unfold stallCount at stall
    dsimp only at stall ⊢
    omega
  · rw [hlost, lost]
    exact (lostCount_congr fun p => isLostAt_congr (pointStateOf_congr hpoints p)).symm

theorem Counted.reproved {st : PointState} (l : Leg) (hst : y.pointStateOf p = some st) (hy : Counted d y) :
    Counted d (Proofs.reproved p st.isLost l y) := by
  have hlost : st.isLost = true → 0 < y.control.lost := fun hl => by
    have hmem : p ∈ (List.finRange 40).filter (isLostAt y) :=
      List.mem_filter.mpr ⟨List.mem_finRange p, by rw [isLostAt_of_state hst, hl]⟩
    have hpos := List.length_pos_of_mem hmem
    have hcount := hy.lost
    unfold lostCount at hcount
    omega
  have hbit : (PointState.proved l).isLost.toNat = 0 := rfl
  unfold Proofs.reproved
  cases hl : st.isLost with
  | false =>
    refine hy.setPoint (st' := .proved l) hst (fun q => rfl) (fun sid => sectionOf_of_standing (by simp) sid) (by simp) (by simp) ?_
    rw [hl, hbit]
    simp
  | true =>
    have hpos := hlost hl
    have hset : ((y.setPointState p (.proved l)).reportRestored).control.lost = y.control.lost - 1 := by
      rw [Yard.reportRestored, Yard.modifyControl, Yard.setPointState_control]
    refine hy.setPoint (st' := .proved l) hst (fun q => rfl) (fun sid => ?_) ?_ ?_ ?_
    · exact sectionOf_of_fields (y := y) (by simp) (by simp) sid
    · simp [Yard.reportRestored, Yard.modifyControl]
    · simp [Yard.reportRestored, Yard.modifyControl]
    · rw [if_pos rfl, hset, hl, hbit, Bool.toNat_true]
      omega

theorem lawClosed_counted (e : Env) : LawClosed e countDebts Counted := by
  have hplan := planClosed_counted e
  exact {
    plan := hplan
    losePoint := fun _ y p c hy => hy.losePoint p c
    notices := fun _ y f _ hy => hy.of_fields rfl rfl rfl rfl
    raised := fun _ y _ _ hy => hy.of_fields rfl rfl rfl rfl
    queue := fun _ y q l _ hy => hy.of_fields rfl rfl rfl rfl
    joined := fun _ y q l hy => hy.of_fields rfl rfl rfl rfl
    absorbed := fun _ y j x _ hy => hy.of_fields rfl rfl rfl rfl
    crest := fun _ y f hy => hy.of_fields rfl rfl rfl rfl
    mark := fun _ y c sid htrust hy => hy.mark c htrust
    told := fun _ y sid hy => (hy.sectionTold sid).reported
    strike := fun _ y sid i hd hy => hy.modifySection fun x hx hlawful => by
      have hst : x.state = .disturbed := by simpa [Yard.sectionDisturbed, Yard.sectionState, hx] using hd
      have hnil := occupants_of_lawful hlawful hst
      exact ⟨by simpa [Section.Lawful, hnil] using hlawful, rfl, rfl⟩
    lost := fun _ y i c _ _ hy => hy.of_standing (sameDrives_modifyCut i _ y).sameMotion.state (by simp)
    release := fun _ y c hy => hy.of_standing (fun p => by unfold Yard.releaseLost; split <;> rfl) (by simp)
    started := fun _ y i f _ hy => hy.of_standing (sameDrives_modifyStarted i f y).sameMotion.state (by simp)
    reroute := fun _ y i t c hy => hy.of_standing (sameDrives_reroute i t c y).sameMotion.state (by simp)
    arrive := fun _ y i hy => hy.of_standing (sameDrives_arrive i y).sameMotion.state (by simp)
    rawCount := fun _ y sid f hd hy => hy.modifySection fun x hx hlawful =>
      ⟨lawful_recounted hlawful (by simpa [Yard.sectionDisturbed, Yard.sectionState, hx] using hd), rfl, rfl⟩
    occupied := fun _ y sid i hd hy => hy.modifySection fun x hx hlawful => by
      have hst : x.state ≠ .disturbed := by simpa [Yard.sectionDisturbed, Yard.sectionState, hx] using hd
      refine ⟨lawful_occupiedRecord hlawful hst i, ?_, rfl⟩
      simp [occupiedRecord, hst]
    axle := fun _ y p hy => by
      unfold Yard.axleAtPoint
      split
      · exact Counted.losePoint _ _ hy
      · exact hy
    credit := fun _ y sid i hd hlists hy => hy.modifySection fun x hx hlawful => by
      have hne : x.occupants ≠ [] := fun hnil => by simp [Yard.lists, hx, hnil] at hlists
      refine ⟨lawful_relist hlawful hne fun hnil => hne ?_, rfl, rfl⟩
      rw [← List.length_eq_zero_iff, ← enterMore_length i, hnil]
      rfl
    emptied := fun _ y sid x hx hne hy => by
      have hlawful := hy.lawful sid x hx
      have htrust := trusted_of_occupied (occupied_of_lawful hlawful hne)
      exact hy.unstalled hx (by rw [sectionOf_emptied, if_pos rfl])
        (fun sid' hne' => by rw [sectionOf_emptied, if_neg (Ne.symm hne')]) (by simp [emptied]) (lawful_emptied hlawful hne)
        (by simp [htrust]) rfl (control_emptied sid x y)
    relisted := fun _ y sid x l hx hne hl hy => hy.putSection hx (lawful_relist (hy.lawful sid x hx) hne hl) rfl rfl
    restarted := fun _ y sid x hx hne hy =>
      hy.unstalled hx (by rw [sectionOf_restartStall hx, if_pos rfl])
        (fun sid' hne' => by rw [sectionOf_restartStall hx, if_neg (Ne.symm hne')]) (by simp [Yard.restartStall])
        (lawful_restarted (hy.lawful sid x hx) hne) rfl rfl (control_restartStall hx)
    stalled := fun _ y sid hy => hy.stallExpired sid
    slot := fun _ y i r _ _ hy => hy.of_fields rfl rfl rfl rfl
    rolling := fun _ y i hy => hy.of_standing (sameDrives_modifyCut i _ y).sameMotion.state (by simp)
    begun := fun _ y i c x l _ _ hy => hy.of_fields rfl rfl rfl rfl
    shortened := fun _ y i c x _ _ _ hy => hy.of_fields rfl rfl rfl rfl
    control := fun _ y f hf hy => hy.of_same (sectionOf_of_fields rfl rfl) (fun _ => rfl) ⟨(hf _).1, (hf _).2.2, (hf _).2.1⟩
    detection := fun _ y p f hf hy => hy.of_standing (MotionClosed.sameMotion_setPoint f hf y).state (by simp)
    ended := fun _ y p st l st' hst hm hst' hy => by
      have hlost : st'.isLost = false := by rcases hst' with rfl | rfl <;> rfl
      refine hy.setPoint (st' := st') hst (fun q => rfl) (fun sid => ?_) (by simp [endMotion]) (by simp [endMotion]) ?_
      · exact (sectionOf_of_fields rfl rfl sid).trans (sectionOf_of_standing (Yard.standing_setPointState p st' y) sid)
      · rw [notLost_of_moving hm, hlost]
        simp [endMotion]
    timeout := fun _ y p hy => by
      obtain he | ⟨target, origin, t, kind, t', hst, he⟩ := throwTimeout_cases e p y <;> rw [he]
      · exact hy
      · refine hy.setPoint (st' := .returning origin t' kind) hst (fun q => ?_) (fun sid => sectionOf_of_standing (by simp) sid)
          (by simp) (by simp) (by simp [PointState.isLost])
        rw [Yard.pointStateOf_setPointState, Yard.pointStateOf_setPointState, pointStateOf_congr (Yard.energise_points p origin y)]
    restored := fun _ y p st l hst _ hy => hy.reproved l hst
    cleared := fun y sid x hx _ hy => hy.cleared hx
    excused := fun y x hy => hy.excused x
    listed := fun _ y l hy => hy.of_fields rfl rfl rfl rfl
    dest := fun _ y i dst hy => hy.of_standing (sameDrives_modifyCut i _ y).sameMotion.state (by simp)
    track := fun _ y t f _ hy => hy.of_fields rfl rfl rfl rfl }

/-! ## The obligation -/

theorem countLaw_iff (s : State) : s.CountLaw ↔ Counted ⟨0, 0, 0⟩ s.yard :=
  ⟨fun ⟨h1, h2, h3, h4⟩ => ⟨h1, h2, h3, h4⟩, fun ⟨h1, h2, h3, h4⟩ => ⟨h1, h2, h3, h4⟩⟩

/-- Without a ladder the counts are 0. -/
theorem counted_of_none {y : Yard} (hsection : ∀ sid, y.sectionOf sid = none) (hpoints : y.points = Table.fill 40 none)
    (hdisturbed : y.control.disturbed = 0) (hstall : y.control.stall = 0) (hlost : y.control.lost = 0) : Counted ⟨0, 0, 0⟩ y := by
  have hnone : ∀ f, y.sectionsWith f = [] := fun f => by simp [Yard.sectionsWith, hsection]
  refine ⟨fun sid x hx => ?_, by simp [disturbedCount, hnone, hdisturbed], by simp [stallCount, hnone, hstall], ?_⟩
  · rw [hsection] at hx
    cases hx
  · have hfalse : isLostAt y = fun _ => false := funext fun p => by rw [isLostAt, pointStateOf_of_none hpoints]; rfl
    rw [hlost, lostCount, hfalse, List.filter_false, List.length_nil]

theorem startupYard_sections (s : State) : (startupYard s).lead = some (startupSection s.ladder.consts.leadStall) ∧
    (startupYard s).sections = Table.tab (fun p => (s.ladder.config p).map (fun c => startupSection c.stall)) ∧
    (startupYard s).control = { s.yard.control with
      mode := .standby, halt := 0, disturbed := s.ladder.pointsInUse.length + 1,
      lost := (startupLost (startupPoints s)).length, stall := 0 } := by
  have hraise : ∀ (l : List PointIx) (y : Yard), (l.foldl (fun z p => z.raisePoint p .lost) y).lead = y.lead ∧
      (l.foldl (fun z p => z.raisePoint p .lost) y).sections = y.sections ∧
      (l.foldl (fun z p => z.raisePoint p .lost) y).control = y.control := by
    intro l
    induction l with
    | nil => exact fun y => ⟨rfl, rfl, rfl⟩
    | cons p l ih => exact fun y => ih (y.raisePoint p .lost)
  exact hraise _ _

/-- COMMISSION makes every section DISTURBED, and counts the sections and the points it makes LOST (R39, R126, R164). -/
theorem counted_startup (s : State) : Counted ⟨0, 0, 0⟩ (startupYard s) := by
  obtain ⟨hlead, hsections, hcontrol⟩ := startupYard_sections s
  have hpoint : ∀ p, (startupYard s).sectionOf (.point p) = (s.ladder.config p).map (fun c => startupSection c.stall) := fun p => by
    rw [Yard.sectionOf, hsections, Table.look_tab]
  have hrecord : ∀ sid x, (startupYard s).sectionOf sid = some x → ∃ n, x = startupSection n := by
    intro sid x hx
    cases sid with
    | lead =>
      rw [Yard.sectionOf, hlead, Option.some.injEq] at hx
      exact ⟨_, hx.symm⟩
    | point p =>
      rw [hpoint] at hx
      obtain ⟨c, -, rfl⟩ := Option.map_eq_some_iff.mp hx
      exact ⟨_, rfl⟩
  refine ⟨fun sid x hx => ?_, ?_, ?_, ?_⟩
  · obtain ⟨n, rfl⟩ := hrecord sid x hx
    exact lawful_startup n
  · have hused : ∀ p, (((startupYard s).sectionOf (.point p)).map (fun x => x.state == .disturbed) == some true) =
        s.ladder.inUse p := fun p => by
      rw [hpoint, Ladder.inUse]
      cases s.ladder.config p <;> rfl
    have hfirst : (((startupYard s).sectionOf .lead).map (fun x => x.state == .disturbed) == some true) = true := by
      rw [Yard.sectionOf, hlead]
      rfl
    rw [hcontrol, disturbedCount, Yard.sectionsWith, allSections, List.filter_cons, if_pos hfirst, List.filter_map, List.length_cons,
      List.length_map, Ladder.pointsInUse]
    simp only [Function.comp_def, hused]
  · have hnone : (startupYard s).sectionsWith (fun x => x.stallFlag) = [] := by
      refine List.filter_eq_nil_iff.mpr fun sid _ => ?_
      cases hx : (startupYard s).sectionOf sid with
      | none => simp
      | some x =>
        obtain ⟨n, rfl⟩ := hrecord sid x hx
        simp [startupSection]
    rw [hcontrol, stallCount, hnone]
    rfl
  · have hlost : isLostAt (startupYard s) = fun p => (((startupPoints s).look p).map (fun x => x.state.isLost)) == some true :=
      funext fun p => by
        rw [isLostAt, Yard.pointStateOf, Yard.pointOf, (startupYard_points s).1, Option.map_map]
        rfl
    rw [hcontrol, lostCount, hlost]
    rfl

theorem counted_decommission (y : Yard) : Counted ⟨0, 0, 0⟩ y.decommission := by
  have hfields : (∀ sid, y.decommission.sectionOf sid = none) := by
    intro sid
    unfold Yard.decommission Yard.judgeMarker
    dsimp only
    cases sid <;> repeat' split
    all_goals first
      | rfl
      | exact Table.look_fill _ _
  have hcontrol := judgeMarker_control
  refine counted_of_none hfields (decommission_fields y).1 ?_ ?_ ?_
  all_goals
    unfold Yard.decommission
    rw [hcontrol]

theorem sectionOf_reset (sid : SectionId) : Yard.reset.sectionOf sid = none := by
  cases sid with
  | lead => rfl
  | point p => exact Table.look_fill _ _

theorem exec_keeps_countLaw (c : Instr) (s t : State) (hs : s.CountLaw) (h : exec c s = .next t) : t.CountLaw := by
  rw [countLaw_iff] at hs ⊢
  exact exec_keeps_law (k := countDebts) (P := Counted) (lawClosed_counted s.env)
    (fun hag hy => hy.of_same hag.section_ (fun p => isLostAt_congr (hag.motion.state p)) ⟨hag.counts.1, hag.counts.2.2, hag.counts.2.1⟩)
    (counted_of_none sectionOf_reset rfl rfl rfl rfl)
    (fun _ _ => counted_startup s) (fun _ => counted_decommission _) hs h

/-- Settles O14: a section is marked DISTURBED, with its flag cleared and its list emptied, and then reported; a LOST point
is counted as it is lost; the records of entries and exits keep the axle count the sum of their entries. -/
theorem countLawIsKept : Obligations.CountLawIsKept :=
  step_keeps_of_exec_keeps (fun _ _ hs => hs) exec_keeps_countLaw

end Sys2Proof.Proofs
end


section
/-! PROOFS. In SETUP no ladder exists (R162), kept by every step: what could make a part of a ladder finds none to work on. -/

namespace Sys2Proof.Proofs

open Sys2Proof Sys2Proof.Machine Sys2Proof.Spec

variable {e : Env} {y z : Yard} {s t u : State} {c : Instr}

/-- The parts of a yard that COMMISSION creates. -/
structure LadderPart where
  lead : Option Section
  sections : Table 40 (Option Section)
  points : Table 40 (Option Point)
  plans : Table 40 (Option Plan)
  queues : Table 40 (List QueueEntry)
  waiting : List Waiting
  drive : Table 80 Bool

/-- The parts of the yard that COMMISSION creates. -/
def ladderPart (y : Yard) : LadderPart :=
  { lead := y.lead, sections := y.sections, points := y.points, plans := y.plans, queues := y.queues, waiting := y.waiting,
    drive := y.drive }

/-- The yard holds no part of a ladder (R39, R42, R126, R142). -/
structure Bare (y : Yard) : Prop where
  section_ : ∀ sid, y.sectionOf sid = none
  point : ∀ p, y.pointOf p = none
  plan : ∀ p, y.planOf p = none
  queue : ∀ q, y.queueOf q = []
  waiting : y.waiting = []
  drive : ∀ d, Table.look y.drive d = false

theorem setupLaw_iff (s : State) : s.SetupLaw ↔ (s.mode = .setup → Bare s.yard ∧ ∀ h, (Table.look s.heads h).state = .off) :=
  ⟨fun h hm => by
    obtain ⟨h1, h2, h3, h4, h5, h6, h7⟩ := h hm
    exact ⟨⟨h1, h2, h3, h4, h5, h7⟩, h6⟩,
  fun h hm => by
    obtain ⟨⟨h1, h2, h3, h4, h5, h7⟩, h6⟩ := h hm
    exact ⟨h1, h2, h3, h4, h5, h6, h7⟩⟩

theorem Bare.congr (hy : Bare y) (h : ladderPart z = ladderPart y) : Bare z := by
  simp only [ladderPart, LadderPart.mk.injEq] at h
  obtain ⟨hlead, hsections, hpoints, hplans, hqueues, hwaiting, hdrive⟩ := h
  obtain ⟨h1, h2, h3, h4, h5, h6⟩ := hy
  refine ⟨fun sid => ?_, fun p => ?_, fun p => ?_, fun q => ?_, ?_, fun d => ?_⟩
  · rw [sectionOf_of_fields hlead hsections, h1]
  · rw [Yard.pointOf, hpoints]
    exact h2 p
  · rw [Yard.planOf, hplans]
    exact h3 p
  · rw [Yard.queueOf, hqueues]
    exact h4 q
  · rw [hwaiting, h5]
  · rw [hdrive, h6]

theorem Bare.settled (hy : Bare y) : Bare (s.withYard y).yard := hy.congr rfl

/-! ## Operations that do not touch the ladder -/

theorem ladderPart_modifyCut (i : SlotIx) (f : Cut → Cut) (y : Yard) : ladderPart (y.modifyCut i f) = ladderPart y := by
  simp [ladderPart]

theorem ladderPart_judgeMarker (y : Yard) : ladderPart y.judgeMarker = ladderPart y := by
  unfold Yard.judgeMarker
  repeat' split
  all_goals rfl

theorem ladderPart_enterCause (c : HaltCause) (y : Yard) : ladderPart (y.enterCause c) = ladderPart y := by
  unfold Yard.enterCause
  split <;> rfl

theorem ladderPart_append (i : SlotIx) (r : Record) (y : Yard) : ladderPart (y.append i r) = ladderPart y := by
  unfold Yard.append
  dsimp only
  split
  · exact ladderPart_judgeMarker _
  · rfl

theorem ladderPart_withdrawSlot (i : SlotIx) (y : Yard) : ladderPart (y.withdrawSlot i) = ladderPart y := by
  unfold Yard.withdrawSlot
  dsimp only
  split
  · exact ladderPart_judgeMarker _
  · rfl

theorem ladderPart_reroute (i : SlotIx) (t : TrackIx) (c : Option ResolutionCause) (y : Yard) :
    ladderPart (y.reroute e i t c) = ladderPart y := by
  unfold Yard.reroute
  repeat' split
  all_goals simp [ladderPart]

theorem ladderPart_account (l : Ladder) (t : TrackIx) (n : Nat) (y : Yard) : ladderPart (y.account l t n) = ladderPart y := by
  unfold Yard.account
  dsimp only
  split <;> rfl

theorem ladderPart_arrive (i : SlotIx) (y : Yard) : ladderPart (y.arrive e i) = ladderPart y := by
  unfold Yard.arrive
  repeat' split
  · exact (ladderPart_account _ _ _ _).trans (ladderPart_modifyCut i _ y)
  all_goals rfl

theorem ladderPart_reportStop (active : Bool) (y : Yard) : ladderPart (y.reportStop active) = ladderPart y := by
  unfold Yard.reportStop
  dsimp only
  repeat' split
  · rfl
  · exact ladderPart_enterCause .stopInput (y.modifyControl (fun m => { m with stopFlag := active }))
  · rfl

theorem reportStop_setup (active : Bool) (h : y.control.mode = .setup) : (y.reportStop active).control.mode = .setup := by
  unfold Yard.reportStop
  dsimp only
  repeat' split
  · exact h
  · unfold Yard.enterCause
    rw [Yard.modifyControl, h]
  · exact h

/-- In SETUP the end of freeze tells neither the arbiter nor the planner (R170). -/
theorem ladderPart_reportFreeze (active : Bool) (h : y.control.mode = .setup) :
    ladderPart (y.reportFreeze e active) = ladderPart y := by
  unfold Yard.reportFreeze Yard.freezeStart Yard.freezeEnd
  dsimp only
  rw [if_pos h]
  repeat' split
  · rfl
  · exact ladderPart_enterCause .freeze _
  · rfl

theorem ladderPart_leaveEntering (i : SlotIx) (n : Word16) (last : Instant) (longAgo : Bool) (y : Yard) :
    ladderPart (y.leaveEntering i n last longAgo) = ladderPart y :=
  (ladderPart_judgeMarker _).trans (ladderPart_modifyCut i _ y)

/-! ## Operations that find no ladder to work on -/

theorem Bare.reexamine_eq (hy : Bare y) (i : SlotIx) (sid : SectionId) : y.reexamine e i sid = y := by
  unfold Yard.reexamine
  rw [hy.section_ sid]

theorem Bare.reexamineAll (hy : Bare y) (i : SlotIx) : Bare (y.reexamineAll e i) := by
  have hfold : allSections.foldl (fun w sid => w.reexamine e i sid) y = y := by
    generalize allSections = l
    induction l with
    | nil => rfl
    | cons sid l ih => rw [List.foldl_cons, hy.reexamine_eq, ih]
  unfold Yard.reexamineAll
  rw [hfold]
  dsimp only
  split
  · exact hy.congr (ladderPart_arrive i y)
  · exact hy

theorem Bare.shortCut (hy : Bare y) : Bare (y.shortCut e) := by
  unfold Yard.shortCut
  repeat' split
  next i x _ _ c _ _ z _ _ =>
    have hreexamined : Bare (((((y.putSlot i (some (.cut (shortened c z)))).release z.resolved c.axles).reserve z.resolved
        z.crestAxles).raiseCut i .short).reexamineAll e i) := Bare.reexamineAll (hy.congr (by simp [ladderPart])) i
    exact hreexamined.congr (ladderPart_leaveEntering _ _ _ _ _)
  all_goals exact hy

theorem Bare.absorptionEnd (hy : Bare y) : Bare (y.absorptionEnd e) := by
  unfold Yard.absorptionEnd
  repeat' split
  · exact hy.congr (ladderPart_judgeMarker _)
  all_goals exact hy

theorem Bare.routeChanged_eq (hy : Bare y) (i : SlotIx) : y.routeChanged e i = y := by
  unfold Yard.routeChanged
  split
  · rw [Yard.queueHead, hy.queue]
    rfl
  · rfl

theorem Bare.amendStarted (hy : Bare y) (i : SlotIx) (d : Destination) (t : TrackIx) (cause : Option ResolutionCause)
    (bound : TrackIx) : Bare (y.amendStarted e i d t cause bound) := by
  have hcut : Bare (y.modifyCut i (fun c => { c with dest := d })) := hy.congr (ladderPart_modifyCut i _ y)
  have hroute : Bare (((y.modifyCut i (fun c => { c with dest := d })).reroute e i t cause).raiseCut i .rerouted) :=
    hcut.congr (ladderPart_reroute i t cause _)
  unfold Yard.amendStarted
  dsimp only
  split
  · exact hcut
  · exact (hroute.routeChanged_eq i).symm ▸ hroute

theorem Bare.pointStateOf (hy : Bare y) (p : PointIx) : y.pointStateOf p = none := by
  rw [Yard.pointStateOf, hy.point]
  rfl

theorem Bare.detectionChange_kept (hy : Bare y) (p : PointIx) (n r : Bool) : Bare (y.detectionChange e p n r) := by
  rw [Yard.detectionChange, hy.point]
  exact hy

theorem Bare.stallExpired_kept (hy : Bare y) (sid : SectionId) : Bare (y.stallExpired e sid) := by
  rw [Yard.stallExpired, hy.section_]
  exact hy

theorem Bare.throwTimeout_kept (hy : Bare y) (p : PointIx) : Bare (y.throwTimeout e p) := by
  rw [Yard.throwTimeout, hy.pointStateOf]
  exact hy

theorem Bare.returnFailed_kept (hy : Bare y) (p : PointIx) : Bare (y.returnFailed e p) := by
  rw [Yard.returnFailed, hy.pointStateOf]
  exact hy

theorem Bare.deadlineExpiry_kept (hy : Bare y) (p : PointIx) : Bare (y.deadlineExpiry e p) := by
  rw [Yard.deadlineExpiry, Yard.waitingOf, hy.waiting]
  exact hy

/-- A head that is OFF does not follow its sensors (R32). -/
theorem change_of_off {h : Head} (ho : h.state = .off) (ca cb a b : Bool) (now : Instant) :
    h.change ca cb a b now = (h, .nothing) := by
  have hsingle : ∀ s level, h.single s level now = (h, .nothing) := fun s level => by
    rw [Head.single, ho]
    rfl
  unfold Head.change
  rw [if_neg (by rw [ho]; exact DecoderState.noConfusion)]
  split
  · rw [Head.coincident, ho]
  · exact hsingle _ _
  · exact hsingle _ _
  · rfl

theorem not_expired_of_off {h : Head} (ho : h.state = .off) (now : Instant) : h.bothActiveExpired now = false := by
  unfold Head.bothActiveExpired
  rw [ho]
  split <;> rfl

/-! ## The law -/

theorem bare_decommission (y : Yard) : Bare y.decommission := by
  have hbare : Bare { y with lead := none, sections := Table.fill 40 none, queues := Table.fill 40 [], points := Table.fill 40 none, drive := Table.fill 80 false, waiting := [], plans := Table.fill 40 none } := by
    refine ⟨fun sid => ?_, fun p => Table.look_fill _ _, fun p => Table.look_fill _ _, fun p => Table.look_fill _ _, rfl,
      fun p => Table.look_fill _ _⟩
    cases sid with
    | lead => rfl
    | point p => exact Table.look_fill _ _
  unfold Yard.decommission
  exact hbare.congr (ladderPart_judgeMarker _)

theorem transition_of_off (h : HeadIx) (hy : Bare s.yard) (hoff : ∀ h, (Table.look s.heads h).state = .off) :
    Bare (s.takeTransitions (.head h)).yard ∧ ∀ h', (Table.look (s.takeTransitions (.head h)).heads h').state = .off := by
  have hchange : headChange s.lines (takeDue s.lines (.head h)) s.heads h s.clock = (Table.look s.heads h, .nothing) :=
    change_of_off (hoff h) _ _ _ _ _
  unfold State.takeTransitions
  dsimp only
  rw [hchange]
  refine ⟨hy.settled, fun h' => ?_⟩
  rw [State.withYard_heads, Table.look_put]
  split
  · exact hoff h
  · exact hoff h'

/-- Without a ladder and with every head OFF, the effect of a command given in SETUP makes no part of a ladder. -/
theorem Effect.keeps_bare (hu : Effect s c u) (hc : c ≠ .commission) (hm : s.mode = .setup) (hy : Bare s.yard)
    (hoff : ∀ h, (Table.look s.heads h).state = .off) : Bare u.yard ∧ ∀ h, (Table.look u.heads h).state = .off := by
  cases hu with
  | same => exact ⟨hy, hoff⟩
  | transition line =>
    generalize (Table.look s.lines line).role.consumer = k
    cases k with
    | head h => exact transition_of_off h hy hoff
    | point p => exact ⟨(hy.detectionChange_kept p _ _).settled, hoff⟩
    | stop => exact ⟨Bare.settled (hy.congr (ladderPart_reportStop _ _)), hoff⟩
    | freeze => exact ⟨Bare.settled (hy.congr (ladderPart_reportFreeze _ hm)), hoff⟩
    | nobody => exact ⟨hy, hoff⟩
  | bothActive h he =>
    rw [not_expired_of_off (hoff h)] at he
    cases he
  | stall sid => exact ⟨(hy.stallExpired_kept sid).settled, hoff⟩
  | shortCut => exact ⟨Bare.settled (hy.shortCut), hoff⟩
  | absorptionEnd => exact ⟨Bare.settled (hy.absorptionEnd), hoff⟩
  | throwTimeout p => exact ⟨(hy.throwTimeout_kept p).settled, hoff⟩
  | returnFailed p => exact ⟨(hy.returnFailed_kept p).settled, hoff⟩
  | deadlineExpiry p => exact ⟨(hy.deadlineExpiry_kept p).settled, hoff⟩
  | setPoint f p x => exact ⟨hy, hoff⟩
  | setYard f k => exact ⟨hy, hoff⟩
  | setLine line kind index level cls role a k _ =>
    have hstop := ladderPart_reportStop (stopCondition (s.setLine line.toFin role a k).lines) s.yard
    exact ⟨Bare.settled ((hy.congr hstop).congr (ladderPart_reportFreeze _ (reportStop_setup _ hm))), hoff⟩
  | commission => exact absurd rfl hc
  | decommission hsb => rw [hm] at hsb; cases hsb
  | start hsb => rw [hm] at hsb; cases hsb
  | resume hsb => rw [hm] at hsb; cases hsb
  | stop hsb => rw [hm] at hsb; rcases hsb with h | h <;> cases h
  | finish hsb => rw [hm] at hsb; rcases hsb with h | h <;> cases h
  | enter n kind value axles i c => exact ⟨Bare.settled (hy.congr (ladderPart_append i _ _)), hoff⟩
  | hold n i => exact ⟨Bare.settled (hy.congr (ladderPart_append i _ _)), hoff⟩
  | amendPending n sel kind value axles i c d k => exact ⟨Bare.settled (hy.congr (ladderPart_modifyCut i _ _)), hoff⟩
  | amendStarted n sel kind value axles i c x d t cause => exact ⟨Bare.settled (hy.amendStarted i d t cause x.resolved), hoff⟩
  | withdraw n i => exact ⟨Bare.settled (hy.congr (ladderPart_withdrawSlot i _)), hoff⟩
  | retire n i c => exact ⟨Bare.settled (hy.congr rfl), hoff⟩
  | setMap => exact ⟨Bare.settled (hy.congr rfl), hoff⟩
  | setWindow => exact ⟨Bare.settled (hy.congr rfl), hoff⟩
  | setTrack => exact ⟨Bare.settled (hy.congr rfl), hoff⟩
  | setFill => exact ⟨Bare.settled (hy.congr rfl), hoff⟩
  | pull => exact ⟨Bare.settled (hy.congr rfl), hoff⟩
  | throwInPosition point leg p x l hns => exact absurd hm hns
  | throwPlaced point leg p x l hns => exact absurd hm hns
  | bar point p x hns => exact absurd hm hns
  | unbar point p x hns => exact absurd hm hns
  | restore point p x l hns => exact absurd hm hns
  | resetSection selector sid x hns => exact absurd hm hns
  | ack => exact ⟨Bare.settled (hy.congr rfl), hoff⟩
  | setAttention => exact ⟨Bare.settled (hy.congr rfl), hoff⟩

theorem exec_keeps_setupLaw (c : Instr) (s t : State) (hs : s.SetupLaw) (h : exec c s = .next t) : t.SetupLaw := by
  rw [setupLaw_iff] at hs ⊢
  intro hm
  by_cases hr : IsReset c
  · obtain ⟨adr1, adr0, rfl⟩ := hr
    cases h
    exact (setupLaw_iff State.reset).mp setupLaw_reset rfl
  by_cases ht : IsTick c
  · obtain ⟨raw, rfl⟩ := ht
    cases h
    obtain ⟨⟨h1, h2, h3, hqueue, h5, h6⟩, hoff⟩ := hs hm
    refine ⟨⟨h1, h2, h3, fun q => ?_, h5, h6⟩, fun h => ?_⟩
    · simp only [Yard.tick, Yard.queueOf, Table.look_tab]
      rw [show Table.look s.yard.queues q = [] from hqueue q]
      rfl
    · rw [Table.look_tab, Head.tick_state]
      exact hoff h
  obtain ⟨u, hu, htu⟩ := exec_effect hr ht h
  have hyard : t.yard = u.yard := by rw [htu]
  have hheads : t.heads = u.heads := by rw [htu]
  rw [State.mode, hyard] at hm
  rw [hyard, hheads]
  by_cases hd : c = .decommission
  · subst hd
    cases hu with
    | same => exact hs hm
    | decommission => exact ⟨(bare_decommission _).settled, fun h => by rw [State.withYard_heads, Table.look_fill]; rfl⟩
  by_cases hc : c = .commission
  · subst hc
    cases hu with
    | same => exact hs hm
    | commission =>
      rw [← State.mode, show s.commissionedFrom.mode = .standby from startupYard_mode s] at hm
      cases hm
  have hbefore := hu.setup_before hr hd hm
  obtain ⟨hy, hoff⟩ := hs hbefore
  exact hu.keeps_bare hc hbefore hy hoff

/-- Settles O15: in SETUP no command but COMMISSION, which leaves it, makes a part of a ladder, and DECOMMISSION removes them all. -/
theorem setupLawIsKept : Obligations.SetupLawIsKept :=
  step_keeps_of_exec_keeps (fun _ _ hs => hs) exec_keeps_setupLaw

end Sys2Proof.Proofs
end


section
/-! PROOFS. The settings (R71, R106, R108, R110, R178): which commands change windows, map, capacities, enables, mask and the
pending list. -/

namespace Sys2Proof.Proofs

open Sys2Proof Sys2Proof.Machine Sys2Proof.Spec

/-- What the settings requests set. -/
structure Settings where
  windows : Table 4 Window
  blockMap : Table 32 (Option MapEntry)
  capacity : TrackIx → Nat
  enables : Table 5 Bool
  mask : Bool

/-- The settings of a yard. -/
def settingsOf (y : Yard) : Settings :=
  { windows := y.windows, blockMap := y.blockMap, capacity := fun t => (y.trackOf t).capacity, enables := y.notices.enables,
    mask := y.notices.mask }

variable {e : Env} {y z : Yard} {v : Settings}

theorem settingsOf_of_fields (hw : z.windows = y.windows) (hb : z.blockMap = y.blockMap) (ht : z.tracks = y.tracks)
    (hn : z.notices = y.notices) : settingsOf z = settingsOf y := by
  simp [settingsOf, Yard.trackOf, hw, hb, ht, hn]

theorem settingsOf_modifyTrack (t : TrackIx) (f : Track → Track) (hf : ∀ x, (f x).capacity = x.capacity) (y : Yard) :
    settingsOf (y.modifyTrack t f) = settingsOf y := by
  have hcapacity : ∀ k, ((y.modifyTrack t f).trackOf k).capacity = (y.trackOf k).capacity := fun k => by
    rw [Yard.trackOf_modifyTrack]
    split
    · exact hf _
    · rfl
  simp [settingsOf, hcapacity]

theorem settingsOf_modifyNotices (f : Notices → Notices) (hf : KeepsSwitches f) (y : Yard) :
    settingsOf (y.modifyNotices f) = settingsOf y := by
  obtain ⟨he, hm⟩ := hf y.notices
  change ({ windows := y.windows, blockMap := y.blockMap, capacity := fun t => (y.trackOf t).capacity,
            enables := (f y.notices).enables, mask := (f y.notices).mask } : Settings) = _
  rw [he, hm]
  rfl

theorem settingsOf_raise (k : NoticeKey) (n : Nat) (y : Yard) : settingsOf (y.raise k n) = settingsOf y :=
  settingsOf_modifyNotices _ (putReasons_keepsSwitches k fun x => x.reasons k ||| reasonBit n) y

theorem settingsOf_raiseStall (sid : SectionId) (y : Yard) : settingsOf (y.raiseStall sid) = settingsOf y := by
  cases sid <;> exact settingsOf_raise _ _ _

theorem settingsOf_modifyControl (f : ModeControl → ModeControl) (y : Yard) : settingsOf (y.modifyControl f) = settingsOf y := rfl

theorem settingsOf_reserve (t : TrackIx) (n : Nat) (y : Yard) : settingsOf (y.reserve t n) = settingsOf y :=
  settingsOf_modifyTrack t (fun x => { x with reserved := x.reserved + n }) (fun _ => rfl) y

theorem settingsOf_release (t : TrackIx) (n : Nat) (y : Yard) : settingsOf (y.release t n) = settingsOf y :=
  settingsOf_modifyTrack t (fun x => { x with reserved := x.reserved - n }) (fun _ => rfl) y

theorem settingsOf_account (l : Ladder) (t : TrackIx) (n : Nat) (y : Yard) : settingsOf (y.account l t n) = settingsOf y := by
  have haccount : settingsOf ((y.modifyTrack t (fun x => { x with fill := min ((y.trackOf t).fill + n) Config.maxFill })).release t n) =
      settingsOf y := (settingsOf_release t n _).trans (settingsOf_modifyTrack t (fun x => { x with fill := min ((y.trackOf t).fill + n) Config.maxFill }) (fun _ => rfl) y)
  unfold Yard.account
  dsimp only
  split
  · exact (settingsOf_raise _ _ _).trans haccount
  · exact haccount

theorem settingsOf_modifyCut (i : SlotIx) (f : Cut → Cut) (y : Yard) : settingsOf (y.modifyCut i f) = settingsOf y :=
  settingsOf_of_fields (by simp) (by simp) (by simp) (by simp)

theorem settingsOf_modifyStarted (i : SlotIx) (f : Started → Started) (y : Yard) :
    settingsOf (y.modifyStarted i f) = settingsOf y :=
  settingsOf_modifyCut i _ y

theorem settingsOf_reroute (i : SlotIx) (t : TrackIx) (c : Option ResolutionCause) (y : Yard) :
    settingsOf (y.reroute e i t c) = settingsOf y := by
  unfold Yard.reroute
  repeat' split
  · rfl
  · exact settingsOf_modifyStarted _ _ _
  · exact (settingsOf_modifyStarted _ _ _).trans ((settingsOf_reserve _ _ _).trans (settingsOf_release _ _ _))
  all_goals rfl

theorem settingsOf_arrive (i : SlotIx) (y : Yard) : settingsOf (y.arrive e i) = settingsOf y := by
  unfold Yard.arrive
  repeat' split
  · exact (settingsOf_raise _ _ _).trans ((settingsOf_account _ _ _ _).trans (settingsOf_modifyCut _ _ _))
  all_goals rfl

theorem settingsOf_enterCause (c : HaltCause) (y : Yard) : settingsOf (y.enterCause c) = settingsOf y := by
  unfold Yard.enterCause
  split
  · exact settingsOf_raise .device _ _
  all_goals rfl

theorem settingsOf_reportLost (y : Yard) : settingsOf y.reportLost = settingsOf y := by
  unfold Yard.reportLost
  dsimp only
  split
  · exact (settingsOf_enterCause _ _).trans (settingsOf_modifyControl _ y)
  · rfl

theorem settingsOf_reportStall (y : Yard) : settingsOf y.reportStall = settingsOf y := by
  unfold Yard.reportStall
  dsimp only
  split
  · exact (settingsOf_enterCause _ _).trans (settingsOf_modifyControl _ y)
  · rfl

theorem settingsOf_reportDisturbed (y : Yard) : settingsOf y.reportDisturbed = settingsOf y := by
  unfold Yard.reportDisturbed
  dsimp only
  split
  · exact (settingsOf_enterCause _ _).trans (settingsOf_modifyControl _ y)
  · rfl

/-- The settings are the ones given. -/
def HasSettings (v : Settings) (y : Yard) : Prop := settingsOf y = v

theorem HasSettings.of (hy : HasSettings v y) (h : settingsOf z = settingsOf y) : HasSettings v z := h.trans hy

theorem HasSettings.of_fields (hy : HasSettings v y) (hw : z.windows = y.windows) (hb : z.blockMap = y.blockMap)
    (ht : z.tracks = y.tracks) (hn : z.notices = y.notices) : HasSettings v z :=
  hy.of (settingsOf_of_fields hw hb ht hn)

theorem planClosed_settings (e : Env) (v : Settings) : PlanClosed e (HasSettings v) where
  plan _ q f hy := hy.of_fields (by simp) (by simp) (by simp) (by simp)
  speed _ i n hy := hy.of (settingsOf_modifyStarted i _ _)
  remove _ _ hy := hy.of_fields rfl rfl rfl rfl
  pop _ _ _ hy _ := hy.of_fields rfl rfl rfl rfl
  place y w hy := by
    unfold Yard.placeWaiting
    split
    · exact hy
    · exact hy.of_fields rfl rfl rfl rfl
  divert y i q l c hy := by
    unfold Yard.divertInto
    split
    · exact hy.of ((settingsOf_raise _ _ _).trans ((settingsOf_modifyStarted _ _ _).trans (settingsOf_reroute _ _ _ _)))
    · exact hy
  cancelled _ p hy := hy.of (settingsOf_raise _ _ _)
  grant y w hy _ _ hel := by
    obtain ⟨origin, hl⟩ := lie_of_eligible hel
    rw [grant_of_lie hl]
    unfold Yard.grantPlanned
    split
    all_goals exact hy.of_fields (by simp) (by simp) (by simp) (by simp)

theorem HasSettings.losePoint (p : PointIx) (c : FaultCause) (hy : HasSettings v y) : HasSettings v (y.losePoint e p c) := by
  have hplan := planClosed_settings e v
  unfold Yard.losePoint
  dsimp only
  split
  next x hx =>
    split
    · exact hy
    · have finish : ∀ a : Yard, HasSettings v a →
          HasSettings v ((((a.setPointState p (.lost c)).raisePoint p .lost).reportLost).evaluate e p) := fun a ha =>
        hplan.evaluate _ (ha.of ((settingsOf_reportLost _).trans ((settingsOf_raise _ _ _).trans
          (settingsOf_of_fields (by simp) (by simp) (by simp) (by simp)))))
      refine finish _ (hplan.dropLost p ?_)
      split
      · exact hplan.arbitrate (hy.of_fields rfl rfl rfl rfl)
      · exact hy
  · exact hy

theorem lawClosed_settings (e : Env) (v : Settings) : LawClosed e noDebts (fun _ => HasSettings v) := by
  have hplan := planClosed_settings e v
  exact {
    plan := fun _ => hplan
    losePoint := fun _ y p c hy => HasSettings.losePoint p c hy
    notices := fun _ y f hf hy => HasSettings.of hy (settingsOf_modifyNotices f hf y)
    raised := fun _ y key n hy => HasSettings.of hy (settingsOf_raise key n y)
    queue := fun _ y q l _ hy => HasSettings.of_fields hy rfl rfl rfl rfl
    joined := fun _ y q l hy => HasSettings.of_fields hy rfl rfl rfl rfl
    absorbed := fun _ y j x _ hy => HasSettings.of_fields hy rfl rfl rfl rfl
    crest := fun _ y f hy => HasSettings.of_fields hy rfl rfl rfl rfl
    mark := fun _ y c sid _ hy => HasSettings.of_fields hy (by simp [Yard.markDisturbed]) (by simp [Yard.markDisturbed])
      (by simp [Yard.markDisturbed]) (by simp [Yard.markDisturbed])
    told := fun d y sid hy => by
      refine HasSettings.of (y := y.sectionTold e sid) ?_ (settingsOf_reportDisturbed _)
      unfold Yard.sectionTold
      repeat' split
      · exact hy
      · exact HasSettings.losePoint _ _ hy
      · exact hplan.sectionNotClear _ hy
    strike := fun _ y sid i _ hy => HasSettings.of_fields hy (by simp) (by simp) (by simp) (by simp)
    lost := fun _ y i c _ _ hy => HasSettings.of hy (settingsOf_modifyCut _ _ _)
    release := fun _ y c hy => by
      unfold Yard.releaseLost
      split
      · exact HasSettings.of hy (settingsOf_release _ _ _)
      · exact hy
    started := fun _ y i f hf hy => HasSettings.of hy (settingsOf_modifyStarted _ _ _)
    reroute := fun _ y i t c hy => HasSettings.of hy (settingsOf_reroute _ _ _ _)
    arrive := fun _ y i hy => HasSettings.of hy (settingsOf_arrive _ _)
    rawCount := fun _ y sid f _ hy => HasSettings.of_fields hy (by simp) (by simp) (by simp) (by simp)
    occupied := fun _ y sid i _ hy => HasSettings.of_fields hy (by simp) (by simp) (by simp) (by simp)
    axle := fun _ y p hy => by
      unfold Yard.axleAtPoint
      split
      · exact HasSettings.losePoint _ _ hy
      · exact hy
    credit := fun _ y sid i _ _ hy => HasSettings.of_fields hy (by simp [Yard.credit]) (by simp [Yard.credit])
      (by simp [Yard.credit]) (by simp [Yard.credit])
    emptied := fun _ y sid x _ _ hy => HasSettings.of_fields hy (by simp [emptied]) (by simp [emptied]) (by simp [emptied])
      (by simp [emptied])
    relisted := fun _ y sid x l _ _ _ hy => HasSettings.of_fields hy (by simp) (by simp) (by simp) (by simp)
    restarted := fun _ y sid x _ _ hy => HasSettings.of_fields hy (by simp [Yard.restartStall]) (by simp [Yard.restartStall])
      (by simp [Yard.restartStall]) (by simp [Yard.restartStall])
    stalled := fun _ y sid hy => by
      obtain he | ⟨x, t, -, -, -, he⟩ := stallExpired_cases e sid y <;> rw [he]
      · exact hy
      · exact HasSettings.of hy ((settingsOf_reportStall _).trans ((settingsOf_raiseStall _ _).trans
          (settingsOf_of_fields (by simp) (by simp) (by simp) (by simp))))
    slot := fun _ y i r _ _ hy => HasSettings.of_fields hy rfl rfl rfl rfl
    rolling := fun _ y i hy => HasSettings.of hy (settingsOf_modifyCut _ _ _)
    begun := fun _ y i c x l _ _ hy => HasSettings.of hy ((settingsOf_reserve _ _ _).trans (settingsOf_of_fields rfl rfl rfl rfl))
    shortened := fun _ y i c x _ _ _ hy => HasSettings.of hy ((settingsOf_reserve _ _ _).trans ((settingsOf_release _ _ _).trans
      (settingsOf_of_fields rfl rfl rfl rfl)))
    control := fun _ y f _ hy => HasSettings.of_fields hy rfl rfl rfl rfl
    detection := fun _ y p f _ hy => HasSettings.of_fields hy (by simp) (by simp) (by simp) (by simp)
    ended := fun _ y p st l st' _ _ _ hy => HasSettings.of_fields hy (by simp [endMotion]) (by simp [endMotion]) (by simp [endMotion])
      (by simp [endMotion])
    timeout := fun _ y p hy => by
      obtain he | ⟨_, _, _, _, _, _, he⟩ := throwTimeout_cases e p y <;> rw [he]
      · exact hy
      · exact HasSettings.of_fields hy (by simp) (by simp) (by simp) (by simp)
    restored := fun _ y p st l _ _ hy => by
      unfold reproved
      split <;> exact HasSettings.of_fields hy (by simp) (by simp) (by simp) (by simp)
    cleared := fun y sid x _ _ hy => HasSettings.of_fields hy (by simp) (by simp) (by simp) (by simp)
    excused := fun y x hy => by
      unfold reportReset
      dsimp only
      repeat' split
      all_goals exact HasSettings.of_fields (y := y) hy rfl rfl rfl rfl
    listed := fun _ y l hy => HasSettings.of_fields hy rfl rfl rfl rfl
    dest := fun _ y i dst hy => HasSettings.of hy (settingsOf_modifyCut _ _ _)
    track := fun _ y t f hf hy => HasSettings.of hy (settingsOf_modifyTrack t f (fun x => (hf x).2) y) }

/-! ## Commands -/

variable {s t u : State} {c : Instr}

theorem startupYard_settings (s : State) : settingsOf (startupYard s) = settingsOf s.yard := by
  have hraise : ∀ (l : List PointIx) (y : Yard), settingsOf (l.foldl (fun z p => z.raisePoint p .lost) y) = settingsOf y := by
    intro l
    induction l with
    | nil => exact fun y => rfl
    | cons p l ih => exact fun y => (ih _).trans (settingsOf_raise _ _ _)
  exact (hraise _ _).trans rfl

theorem settingsOf_decommission (y : Yard) : settingsOf y.decommission = settingsOf y := by
  unfold Yard.decommission
  exact (lawClosed_settings { now := 0, ladder := Ladder.reset } (settingsOf y)).judgeMarker (d := ()) rfl

/-- A command that neither resets nor sets changes no setting. -/
theorem settings_kept (hr : ¬ IsReset c) (hset : ¬ Setting c) (h : exec c s = .next t) : settingsOf t.yard = settingsOf s.yard := by
  by_cases ht : IsTick c
  · obtain ⟨raw, rfl⟩ := ht
    cases h
    rfl
  obtain ⟨u, hu, htu⟩ := exec_effect hr ht h
  have hyard : t.yard = u.yard := by rw [htu]
  rw [hyard]
  by_cases hc : c = .commission
  · subst hc
    cases hu with
    | same => rfl
    | commission => exact startupYard_settings s
  by_cases hc' : c = .decommission
  · subst hc'
    cases hu with
    | same => rfl
    | decommission => exact settingsOf_decommission _
  exact hu.kept (lawClosed_settings s.env (settingsOf s.yard)) hc hc' (fun h => absurd h hset) rfl

/-- A command that changes a setting is the request for it. -/
structure ChangesItsOwn (c : Instr) (y z : Yard) : Prop where
  windows : z.windows ≠ y.windows → ∃ w f l, c = .setWindow w f l
  blockMap : z.blockMap ≠ y.blockMap → ∃ e v k n r, c = .setMap e v k n r
  capacity : (∃ k, (z.trackOf k).capacity ≠ (y.trackOf k).capacity) → ∃ k n, c = .setTrack k n
  switches : z.notices.enables ≠ y.notices.enables ∨ z.notices.mask ≠ y.notices.mask → ∃ a b d e f m, c = .setAttention a b d e f m

theorem ChangesItsOwn.of_same (h : settingsOf z = settingsOf y) : ChangesItsOwn c y z := by
  simp only [settingsOf, Settings.mk.injEq] at h
  obtain ⟨hw, hb, ht, he, hm⟩ := h
  exact ⟨fun h => absurd hw h, fun h => absurd hb h, fun ⟨k, hk⟩ => absurd (congrFun ht k) hk,
    fun h => (h.elim (absurd he) (absurd hm))⟩

/-- Each of the four setting requests changes the setting it names alone. -/
theorem Effect.changesItsOwn (hu : Effect s c u) (hset : Setting c) : ChangesItsOwn c s.yard u.yard := by
  obtain ⟨e, v, k, n, r, rfl⟩ | ⟨w, f, l, rfl⟩ | ⟨k, n, rfl⟩ | ⟨a, b, d, e, f, m, rfl⟩ := hset
  · cases hu with
    | same => exact .of_same rfl
    | setMap => exact ⟨fun h => absurd rfl h, fun _ => ⟨_, _, _, _, _, rfl⟩, fun ⟨_, h⟩ => absurd rfl h,
        fun h => h.elim (absurd rfl) (absurd rfl)⟩
  · cases hu with
    | same => exact .of_same rfl
    | setWindow => exact ⟨fun _ => ⟨_, _, _, rfl⟩, fun h => absurd rfl h, fun ⟨_, h⟩ => absurd rfl h,
        fun h => h.elim (absurd rfl) (absurd rfl)⟩
  · cases hu with
    | same => exact .of_same rfl
    | setTrack => exact ⟨fun h => absurd rfl h, fun h => absurd rfl h, fun _ => ⟨_, _, rfl⟩,
        fun h => h.elim (absurd rfl) (absurd rfl)⟩
  · cases hu with
    | same => exact .of_same rfl
    | setAttention => exact ⟨fun h => absurd rfl h, fun h => absurd rfl h, fun ⟨_, h⟩ => absurd rfl h,
        fun _ => ⟨_, _, _, _, _, _, rfl⟩⟩

theorem changesItsOwn (hr : ¬ IsReset c) (h : exec c s = .next t) : ChangesItsOwn c s.yard t.yard := by
  by_cases hset : Setting c
  · have ht : ¬ IsTick c := by
      obtain ⟨e, v, k, n, r, rfl⟩ | ⟨w, f, l, rfl⟩ | ⟨k, n, rfl⟩ | ⟨a, b, d, e, f, m, rfl⟩ := hset <;> simp [IsTick]
    obtain ⟨u, hu, htu⟩ := exec_effect hr ht h
    have hyard : t.yard = u.yard := by rw [htu]
    exact hyard ▸ hu.changesItsOwn hset
  · exact .of_same (settings_kept hr hset h)

/-! ## The pending list (R71) -/

/-- The commands that may change the pending list: an axle that starts a cut, ENTER, HOLD and WITHDRAW. -/
def ChangesList (c : Instr) : Prop :=
  IsTransition c ∨ (∃ n k v a, c = .enter n k v a) ∨ (∃ n, c = .hold n) ∨ ∃ n, c = .withdraw n

theorem pendingList_of_standing (h : z.standing = y.standing) : z.pendingList = y.pendingList := (Yard.Runs.of_standing h).pendingList

theorem pendingList_judgeMarker (y : Yard) : y.judgeMarker.pendingList = y.pendingList := by
  unfold Yard.judgeMarker
  repeat' split
  all_goals rfl

theorem pendingList_shortCut (y : Yard) : (y.shortCut e).pendingList = y.pendingList := by
  unfold Yard.shortCut
  repeat' split
  next i x _ _ c _ _ z _ _ =>
    have hreexamined := (((((((Yard.Runs.refl y).putSlot i (some (.cut (shortened c z)))).release z.resolved c.axles).reserve
      z.resolved z.crestAxles).raiseCut i .short).reexamineAll e i).modifyCut i
        (fun c => if c.state = .entering then { c with state := .rolling } else c)).pendingList
    rw [Yard.leaveEntering, pendingList_judgeMarker, Yard.modifyCrest_pendingList]
    exact hreexamined
  all_goals rfl

theorem pendingList_absorptionEnd (y : Yard) : (y.absorptionEnd e).pendingList = y.pendingList := by
  unfold Yard.absorptionEnd
  repeat' split
  · exact pendingList_judgeMarker _
  all_goals rfl

theorem pendingList_reportFreeze (active : Bool) (y : Yard) : (y.reportFreeze e active).pendingList = y.pendingList := by
  have hraised := fun (f : ModeControl → ModeControl) (r : DeviceReason) => ((Yard.Runs.refl (y.modifyControl f)).raiseDevice r)
  unfold Yard.reportFreeze
  repeat' split
  · rfl
  · exact ((hraised _ _).enterCause _).pendingList
  · unfold Yard.freezeEnd
    dsimp only
    split
    · rfl
    · exact (Yard.Runs.foldl _ (fun z q hz => by split <;> [exact hz; exact hz.evaluate _ _]) _ ((hraised _ _).arbitrate e)).pendingList

theorem pendingList_reportStop (active : Bool) (y : Yard) : (y.reportStop active).pendingList = y.pendingList := by
  unfold Yard.reportStop
  dsimp only
  repeat' split
  · rfl
  · exact ((Yard.Runs.refl (y.modifyControl fun m => { m with stopFlag := active })).enterCause _).pendingList
  · rfl

theorem pendingList_startup (s : State) : (startupYard s).pendingList = s.yard.pendingList := by
  have hraise : ∀ (l : List PointIx) (y : Yard), (l.foldl (fun z p => z.raisePoint p .lost) y).pendingList = y.pendingList := by
    intro l
    induction l with
    | nil => exact fun y => rfl
    | cons p l ih => exact fun y => ih (y.raisePoint p .lost)
  exact hraise _ _

theorem list_of_standing (h : z.standing = s.yard.standing) : (s.withYard z).yard.pendingList = s.yard.pendingList :=
  pendingList_of_standing (z := z) h

theorem list_of_runs (h : s.yard.Runs z) : (s.withYard z).yard.pendingList = s.yard.pendingList := h.pendingList

theorem Effect.keeps_list (hu : Effect s c u) (hc : ¬ ChangesList c) : u.yard.pendingList = s.yard.pendingList := by
  cases hu with
  | transition line => exact absurd (.inl ⟨line, rfl⟩) hc
  | bothActive h => exact list_of_runs ((Yard.Runs.refl _).headFault _ h)
  | stall sid => exact list_of_runs ((Yard.Runs.refl _).stallExpired _ sid)
  | shortCut => exact pendingList_shortCut _
  | absorptionEnd => exact pendingList_absorptionEnd _
  | throwTimeout p => exact list_of_standing (Yard.standing_throwTimeout _ p _)
  | returnFailed p => exact list_of_runs ((Yard.Runs.refl _).returnFailed _ p)
  | deadlineExpiry p => exact list_of_standing (Yard.standing_deadlineExpiry _ p _)
  | setLine line kind index level cls role a k =>
    exact (pendingList_reportFreeze (e := s.env) _ _).trans (pendingList_reportStop _ _)
  | commission => exact pendingList_startup s
  | decommission => exact pendingList_judgeMarker _
  | stop => exact list_of_runs ((Yard.Runs.refl _).enterCause _)
  | enter n kind value axles => exact absurd (.inr (.inl ⟨n, kind, value, axles, rfl⟩)) hc
  | hold n => exact absurd (.inr (.inr (.inl ⟨n, rfl⟩))) hc
  | withdraw n => exact absurd (.inr (.inr (.inr ⟨n, rfl⟩))) hc
  | amendPending n sel kind value axles i c d k => exact list_of_standing (Yard.standing_modifyCut i _ _)
  | amendStarted n sel kind value axles i c x d t cause =>
    exact list_of_standing (Yard.standing_amendStarted s.env i d t cause x.resolved _)
  | throwInPosition point leg p x l => exact list_of_standing (Yard.standing_throwInPosition s.env p l _)
  | throwPlaced point leg p x l => exact list_of_standing (Yard.standing_throwPlaced s.env p l _)
  | bar point p => exact list_of_standing (Yard.standing_bar s.env p _)
  | unbar point p =>
    exact list_of_standing ((Yard.standing_evaluate s.env p _).trans (Yard.standing_setBar p false _))
  | restore point p x l =>
    have hset := (Yard.Runs.refl s.yard).setPointState p (.proved l)
    cases hl : x.state.isLost with
    | false => exact list_of_runs (hset.evaluate s.env p)
    | true => exact list_of_runs (hset.reportRestored.evaluate s.env p)
  | resetSection selector sid x => exact list_of_runs (afterReset_runs s.env sid x s.yard)
  | same | setPoint | setYard | start | resume | finish | retire | setMap | setWindow | setTrack | setFill | pull | ack | setAttention =>
    rfl

theorem list_kept (hr : ¬ IsReset c) (hc : ¬ ChangesList c) (h : exec c s = .next t) : t.yard.pendingList = s.yard.pendingList := by
  by_cases ht : IsTick c
  · obtain ⟨raw, rfl⟩ := ht
    cases h
    rfl
  obtain ⟨u, hu, htu⟩ := exec_effect hr ht h
  have hyard : t.yard = u.yard := by rw [htu]
  rw [hyard]
  exact hu.keeps_list hc

/-- Settles O4: but for reset, the four setting requests change the setting they name, and what starts, enters or withdraws a
record changes the list. -/
theorem settingsChangeOnlyByTheirRequests : Obligations.SettingsChangeOnlyByTheirRequests := by
  intro c s t h
  by_cases hr : IsReset c
  · exact ⟨fun _ => .inl hr, fun _ => .inl hr, fun _ => .inl hr, fun _ => .inl hr, fun _ => .inl hr⟩
  obtain ⟨hw, hb, ht, hn⟩ := changesItsOwn hr h
  refine ⟨fun h => .inr (hw h), fun h => .inr (hb h), fun h => .inr (ht h), fun h => .inr (hn h), fun hl => .inr ?_⟩
  by_contra hc
  exact hl (list_kept hr hc h)

end Sys2Proof.Proofs
end


section
/-! SUPPORT. Reasons once raised: a raise sets its bit, and no event of the yard clears one (R173). -/

namespace Sys2Proof.Proofs

open Sys2Proof Sys2Proof.Machine Sys2Proof.Spec

variable {e : Env} {y z : Yard} {k m : NoticeKey} {n : Nat}

theorem raised_iff_testBit (h1 : 1 ≤ n) (h8 : n ≤ 8) : Raised y k n ↔ (y.notices.reasons k).getLsbD (n - 1) = true := by
  have hlt : n - 1 < 8 := by omega
  have hbit : y.notices.reasons k &&& reasonBit n = 0 ↔ (y.notices.reasons k).getLsbD (n - 1) = false := by
    constructor
    · intro h
      have := congrArg (fun b : Byte => b.getLsbD (n - 1)) h
      simpa [reasonBit, hlt] using this
    · intro h
      refine BitVec.eq_of_getLsbD_eq fun i hi => ?_
      by_cases hin : i = n - 1
      · subst hin
        simp [h]
      · have hone : (reasonBit n).getLsbD i = false := by
          simp [reasonBit, hi]
          omega
        simp [hone]
  rw [Raised, ne_eq, hbit, Bool.not_eq_false]

theorem raised_congr (h : z.notices.reasons k = y.notices.reasons k) : Raised z k n ↔ Raised y k n := by
  rw [Raised, Raised, h]

theorem Raised.of_notices (hy : Raised y k n) (h : z.notices = y.notices) : Raised z k n := by
  rwa [raised_congr (y := y) (by rw [h])]

theorem Raised.or_left {a b c : Byte} (h : a &&& c ≠ 0) : (a ||| b) &&& c ≠ 0 := by
  intro hz
  refine h (BitVec.eq_of_getLsbD_eq fun i hi => ?_)
  have := congrArg (fun w : Byte => w.getLsbD i) hz
  simp only [BitVec.getLsbD_and, BitVec.getLsbD_or, BitVec.ofNat_eq_ofNat, BitVec.getLsbD_zero] at this ⊢
  cases ha : a.getLsbD i <;> cases hc : c.getLsbD i <;> simp_all

theorem raised_raise (h1 : 1 ≤ n) (h8 : n ≤ 8) (k : NoticeKey) (y : Yard) : Raised (y.raise k n) k n := by
  rw [raised_iff_testBit h1 h8, Yard.reasons_raise, if_pos rfl]
  simp [reasonBit]
  omega

theorem Raised.raise (h : Raised y k n) (key : NoticeKey) (r : Nat) : Raised (y.raise key r) k n := by
  unfold Raised at h ⊢
  rw [Yard.reasons_raise]
  split
  · exact Raised.or_left h
  · exact h

theorem raised_raiseCut (i : SlotIx) (r : CutReason) (y : Yard) : Raised (y.raiseCut i r) (.cut i) (cutReasonNumber r) :=
  raised_raise (by cases r <;> decide) (by cases r <;> decide) _ y

theorem raised_raisePoint (p : PointIx) (r : PointReason) (y : Yard) : Raised (y.raisePoint p r) (.point p) (pointReasonNumber r) :=
  raised_raise (by cases r <;> decide) (by cases r <;> decide) _ y

theorem raised_raiseDevice (r : DeviceReason) (y : Yard) : Raised (y.raiseDevice r) .device (deviceReasonNumber r) :=
  raised_raise (by cases r <;> decide) (by cases r <;> decide) _ y

theorem Raised.withYard {s : State} (h : Raised y k n) : Raised (s.withYard y).yard k n :=
  h

theorem Raised.enterCause (h : Raised y k n) (c : HaltCause) : Raised (y.enterCause c) k n := by
  unfold Yard.enterCause
  split
  · exact Raised.raise (y := y.modifyControl _) h .device _
  all_goals exact h

theorem Raised.reportLost (h : Raised y k n) : Raised y.reportLost k n := by
  unfold Yard.reportLost
  dsimp only
  split
  · exact Raised.enterCause (y := y.modifyControl _) h _
  · exact h

theorem Raised.reportStall (h : Raised y k n) : Raised y.reportStall k n := by
  unfold Yard.reportStall
  dsimp only
  split
  · exact Raised.enterCause (y := y.modifyControl _) h _
  · exact h

theorem Raised.reportDisturbed (h : Raised y k n) : Raised y.reportDisturbed k n := by
  unfold Yard.reportDisturbed
  dsimp only
  split
  · exact Raised.enterCause (y := y.modifyControl _) h _
  · exact h

theorem planClosed_raised (e : Env) (k : NoticeKey) (n : Nat) : PlanClosed e (fun y => Raised y k n) where
  plan y q f hy := Raised.of_notices hy (by simp)
  speed y i v hy := Raised.of_notices hy (by simp)
  remove _ _ hy := hy
  pop _ _ _ hy _ := hy
  place y w hy := by
    unfold Yard.placeWaiting
    split <;> exact hy
  divert y i q l c hy := by
    unfold Yard.divertInto
    split
    · refine Raised.raise (Raised.of_notices (y := y) hy ?_) _ _
      rw [Yard.modifyStarted_notices]
      unfold Yard.reroute
      repeat' split
      all_goals simp
    · exact hy
  cancelled _ p hy := Raised.raise hy _ _
  grant y w hy _ _ hel := by
    obtain ⟨origin, hl⟩ := lie_of_eligible hel
    rw [grant_of_lie hl]
    unfold Yard.grantPlanned
    split
    all_goals exact Raised.of_notices hy (by simp)

theorem Raised.losePoint (hy : Raised y k n) (p : PointIx) (c : FaultCause) : Raised (y.losePoint e p c) k n := by
  have hplan := planClosed_raised e k n
  unfold Yard.losePoint
  dsimp only
  split
  next x hx =>
    split
    · exact hy
    · refine hplan.evaluate _ (Raised.reportLost (Raised.raise (Raised.of_notices ?_ (Yard.setPointState_notices p _ _)) _ _))
      refine hplan.dropLost p ?_
      split
      · exact hplan.arbitrate hy
      · exact hy
  · exact hy

theorem Raised.sectionTold (hy : Raised y k n) (sid : SectionId) : Raised (y.sectionTold e sid) k n := by
  unfold Yard.sectionTold
  repeat' split
  · exact hy
  · exact Raised.losePoint hy _ _
  · exact (planClosed_raised e k n).sectionNotClear _ hy

theorem lossClosed_raised (e : Env) (k : NoticeKey) (n : Nat) : LossClosed e noDebts (fun _ y => Raised y k n) where
  plan _ := planClosed_raised e k n
  losePoint _ y p c hy := Raised.losePoint hy p c
  raised _ y key r hy := Raised.raise hy key r
  queue _ _ _ _ _ hy := hy
  absorbed _ _ _ _ _ hy := hy
  mark _ y c sid _ hy := Raised.of_notices hy (by simp [Yard.markDisturbed])
  told _ y sid hy := Raised.reportDisturbed (Raised.sectionTold hy sid)
  strike _ y sid i _ hy := Raised.of_notices hy (by simp)
  lost _ y i c _ _ hy := Raised.of_notices hy (by simp)
  release _ y c hy := by
    unfold Yard.releaseLost
    split <;> exact hy

end Sys2Proof.Proofs
end


section
/-! PROOFS. The tick (R1, R24, R25), the taking of filtered transitions (R25, R27), the STOP condition (R28, R169), and the
expiries of a stall timer (R61) and of a throw timer (R136). -/

namespace Sys2Proof.Proofs

open Sys2Proof Sys2Proof.Machine Sys2Proof.Spec

variable {s t : State}

/-! ## The tick -/

theorem inSequence_eq (d : DecoderState) : d.inSequence = sequenceStates.contains d := by cases d <;> rfl

theorem sampledAt_eq_false (l : Line) (now : Instant) :
    l.sampledAt now = false ↔ l.role = .unused ∨ (l.cls = .slow ∧ now.toNat % 80 ≠ 0) := by
  obtain ⟨role, active, cls, filtered, agreement, due, sampled, everSampled⟩ := l
  cases role <;> cases cls <;> simp [Line.sampledAt, Config.slowSpacing]

/-- The logical level of a line with a role is whether its raw level is its active level (R24). -/
theorem logicalLevel_of_used {r : Role} (h : r ≠ .unused) (active raw : Level) : logicalLevel r active raw = (raw == active) := by
  cases r <;> first | rfl | exact absurd rfl h

theorem tick_line (l : Line) (raw : Level) (now : Instant) : ∃ m, l.tick raw now = m ∧ m.role = l.role ∧ m.active = l.active ∧
    m.cls = l.cls ∧ m.filtered = l.filtered ∧
    (if l.role = .unused ∨ (l.cls = .slow ∧ now.toNat % 80 ≠ 0) then m = l
     else m.sampled = raw ∧ m.everSampled = true ∧
      (if (raw == l.active) = l.filtered then m.agreement = 0 ∧ m.due = false
       else if l.agreement < 2 then m.agreement = l.agreement + 1 ∧ m.due = false
       else m.agreement = l.agreement ∧ m.due = true)) := by
  refine ⟨_, rfl, ?_⟩
  unfold Line.tick
  by_cases hs : l.sampledAt now = true
  · have hnot : ¬ (l.role = .unused ∨ (l.cls = .slow ∧ now.toNat % 80 ≠ 0)) := by
      rw [← sampledAt_eq_false, hs]
      exact Bool.noConfusion
    have hused : l.role ≠ .unused := fun h => hnot (.inl h)
    rw [if_pos hs, if_neg hnot, Line.sample, logicalLevel_of_used hused]
    split_ifs <;> exact ⟨rfl, rfl, rfl, rfl, rfl, rfl, rfl, rfl⟩
  · rw [if_neg hs, if_pos ((sampledAt_eq_false l now).mp (by simpa using hs))]
    exact ⟨rfl, rfl, rfl, rfl, rfl⟩

/-- Settles O23: a tick samples each line that is due and sets the marks of 2^31 ticks. -/
theorem tickSamplesEveryDueLine : Obligations.TickSamplesEveryDueLine := by
  intro raw s
  refine ⟨_, _, _, _, _, _, rfl, rfl, fun h => ?_, fun q => ?_, rfl, rfl, fun i => ?_⟩
  · rw [Table.look_tab, Head.tick, inSequence_eq]
    rfl
  · rw [Table.look_tab]
    rfl
  · obtain ⟨m, hm, hline⟩ := tick_line (Table.look s.lines i) (rawLevel raw i) (s.clock + 1)
    exact ⟨_, m, rfl, by rw [Table.look_tab, hm], hline⟩

/-! ## Filtered transitions -/

theorem look_takeDue (lines : Table 256 Line) (c : Consumer) (i : LineIx) :
    Table.look (takeDue lines c) i =
      if (Table.look lines i).due = true ∧ (Table.look lines i).role.consumer = c then (Table.look lines i).transit
      else Table.look lines i := by
  rw [takeDue, Table.look_tab]
  simp [Line.dueFor]

theorem consumer_ne_nobody {r : Role} (h : r ≠ .unused) : r.consumer ≠ .nobody := by
  cases r <;> first | exact Consumer.noConfusion | exact absurd rfl h

theorem lines_takeTransitions {c : Consumer} (h : c ≠ .nobody) (s : State) : (s.takeTransitions c).lines = takeDue s.lines c := by
  cases c <;> first | rfl | exact absurd rfl h

theorem heads_takeTransitions_of_ne {c : Consumer} {h : HeadIx} (hc : c ≠ .head h) (s : State) :
    Table.look (s.takeTransitions c).heads h = Table.look s.heads h := by
  cases c with
  | head k =>
    have hne : k ≠ h := fun heq => hc (by rw [heq])
    simp [State.takeTransitions, Table.look_put, hne]
  | point p => rfl
  | stop => rfl
  | freeze => rfl
  | nobody => rfl

theorem exec_transition {line : LineIx} (h : (Table.look s.lines line).due = true) :
    exec (.filteredTransition line) s = .next (s.takeTransitions (Table.look s.lines line).role.consumer) := by
  change execFilteredTransition line s = _
  rw [execFilteredTransition, if_pos h]

/-- Settles O24: the due lines of one consumer are taken together. -/
theorem filteredTransitionTakesDueLines : Obligations.FilteredTransitionTakesDueLines := by
  intro line s hdue hrole
  have hunits : ∀ c : Consumer, (s.takeTransitions c).clock = s.clock ∧ (s.takeTransitions c).ladder = s.ladder ∧
      (s.takeTransitions c).link = s.link := fun c => by cases c <;> exact ⟨rfl, rfl, rfl⟩
  obtain ⟨hclock, hladder, hlink⟩ := hunits (Table.look s.lines line).role.consumer
  refine ⟨_, exec_transition hdue, hclock, hladder, hlink, fun i => ?_, fun h hne => heads_takeTransitions_of_ne hne s⟩
  rw [lines_takeTransitions (consumer_ne_nobody hrole), look_takeDue]
  rfl

/-! ## The STOP condition (R28, R169) -/

theorem stopCondition_iff (lines : Table 256 Line) :
    stopCondition lines = true ↔ ∃ i, (Table.look lines i).role = .stop ∧ (Table.look lines i).filtered = true := by
  simp [stopCondition]

theorem reportStop_of_same {y : Yard} {on : Bool} (h : on = y.control.stopFlag) : y.reportStop on = y := by
  rw [Yard.reportStop, if_pos h]

theorem reportStop_ends {y : Yard} (h : y.control.stopFlag = true) :
    y.reportStop false = { y with control := { y.control with stopFlag := false } } := by
  rw [Yard.reportStop, h]
  rfl

theorem reportStop_begins {y : Yard} (h : y.control.stopFlag = false) :
    y.reportStop true = (y.modifyControl (fun m => { m with stopFlag := true })).enterCause .stopInput := by
  rw [Yard.reportStop, h]
  rfl

theorem stop_judged (s : State) (lines : Table 256 Line) (on : Bool) :
    StopJudged s (({ s with lines := lines }).withYard (s.yard.reportStop on)) on := by
  have hsettled := settledFrom_withYard { s with lines := lines } (s.yard.reportStop on)
  refine ⟨fun h => ?_, fun h hflag => ?_, fun h hflag => ⟨fun hm => ?_, fun hm => ?_, fun hm => ?_⟩⟩
  · rwa [reportStop_of_same h] at hsettled ⊢
  · subst h
    rwa [reportStop_ends hflag] at hsettled ⊢
  all_goals
    subst h
    rw [reportStop_begins hflag] at hsettled ⊢
  · have hstay : (s.yard.modifyControl (fun m => { m with stopFlag := true })).enterCause .stopInput =
        s.yard.modifyControl (fun m => { m with stopFlag := true }) := by
      obtain hm | hm := hm <;> simp [Yard.enterCause, show s.yard.control.mode = _ from hm, Yard.modifyControl]
    rwa [hstay] at hsettled ⊢
  · rwa [enterCause_of_halted (y := s.yard.modifyControl fun m => { m with stopFlag := true }) .stopInput hm] at hsettled ⊢
  · rwa [enterCause_of_humping (y := s.yard.modifyControl fun m => { m with stopFlag := true }) .stopInput hm] at hsettled ⊢

theorem takeTransitions_stop (s : State) : s.takeTransitions .stop =
    ({ s with lines := takeDue s.lines .stop }).withYard (s.yard.reportStop (stopCondition (takeDue s.lines .stop))) := rfl

/-- PERMIT is asserted in HUMPING alone (R171). -/
theorem permit_of_not_humping (ht : t.PermitLaw) (hm : t.yard.control.mode ≠ .humping) : t.yard.control.permit = false := by
  by_contra h
  exact hm (ht.mp (by simpa using h)).1

/-- Settles O26: the taken STOP lines make the condition, and its change is reported to the mode controller. -/
theorem stopLineHaltsHump : Obligations.StopLineHaltsHump := by
  refine ⟨fun line s hdue hrole => ?_, fun line s hdue hrole hinactive hm hflag => ?_⟩
  all_goals
    have hexec := exec_transition hdue
    rw [hrole, Role.consumer, takeTransitions_stop] at hexec
  · exact ⟨_, _, hexec, rfl, stopCondition_iff _, stop_judged s _ _⟩
  · have hon : stopCondition (takeDue s.lines .stop) = true := by
      refine (stopCondition_iff _).mpr ⟨line, ?_⟩
      rw [look_takeDue, if_pos ⟨hdue, by rw [hrole]; rfl⟩]
      exact ⟨hrole, by simp [Line.transit, hinactive]⟩
    rw [hon, reportStop_begins hflag, enterCause_of_humping (y := s.yard.modifyControl fun m => { m with stopFlag := true }) .stopInput hm] at hexec
    refine ⟨_, hexec, rfl, rfl, rfl, ?_, permit_of_not_humping (permitLaw_withYard _ _) Mode.noConfusion, rfl, rfl, rfl, rfl⟩
    exact raised_raiseDevice .halted s.yard

/-! ## Expiries of a stall timer (R61) and of a throw timer (R136) -/

theorem reportStall_first {y : Yard} (h : y.control.stall = 0) :
    y.reportStall = (y.modifyControl (fun m => { m with stall := m.stall + 1 })).enterCause .stalledSection := by
  rw [Yard.reportStall, h]
  rfl

theorem reportStall_mode {y : Yard} (h : y.control.mode ≠ .humping ∨ y.control.stall ≠ 0) :
    y.reportStall.control.mode = y.control.mode := by
  unfold Yard.reportStall
  dsimp only
  split
  next h0 =>
    have hm : y.control.mode ≠ .humping := h.resolve_right fun hne => hne h0
    unfold Yard.enterCause
    split
    next hh => exact absurd hh hm
    all_goals rfl
  · rfl

theorem stall_of_reportStall (y : Yard) : y.reportStall.control.stall = y.control.stall + 1 := by
  unfold Yard.reportStall
  dsimp only
  split
  · unfold Yard.enterCause
    split <;> rfl
  · rfl

/-- Settles O30: the flag is set, raised and reported to the mode controller. -/
theorem stallExpirySetsFlag : Obligations.StallExpirySetsFlag := by
  intro sid s x d hx hd hexp
  have hexpired : s.yard.stallExpired s.env sid =
      ((s.yard.putSection sid (some (stalledRecord x))).raiseStall sid).reportStall := by
    rw [Yard.stallExpired, hx]
    dsimp only
    rw [hd]
    dsimp only
    rw [if_pos (show atOrAfter s.env.now _ = true from hexp)]
    rfl
  have hexec : exec (.stallTimerExpiry sid) s = .next (s.withYard (s.yard.stallExpired s.env sid)) := rfl
  rw [hexpired] at hexec
  generalize hz : (s.yard.putSection sid (some (stalledRecord x))).raiseStall sid = z at hexec
  have hraised : Raised z (sectionNotice sid) (stallReason sid) := by
    rw [← hz]
    cases sid with
    | lead => exact raised_raise (by decide) (by decide) _ _
    | point p => exact raised_raise (by decide) (by decide) _ _
  have hcontrol : z.control = s.yard.control := by simp [← hz]
  have hsection : ∀ sid', z.reportStall.sectionOf sid' = (s.yard.putSection sid (some (stalledRecord x))).sectionOf sid' := fun sid' =>
    sectionOf_of_fields (by simp [← hz]) (by simp [← hz]) sid'
  refine ⟨_, hexec, ?_, Raised.reportStall hraised, ?_, ⟨fun sid' hne => ?_, ?_⟩, fun ⟨hm, h0⟩ => ?_, fun h => ?_⟩
  · exact (hsection sid).trans (by rw [Yard.sectionOf_putSection, if_pos rfl]; rfl)
  · exact (stall_of_reportStall z).trans (by rw [hcontrol])
  · exact (hsection sid').trans (by rw [Yard.sectionOf_putSection, if_neg (Ne.symm hne)])
  · simp [← hz]
  · have hm' : (z.modifyControl (fun m => { m with stall := m.stall + 1 })).control.mode = .humping := by
      rw [Yard.modifyControl, hcontrol]
      exact hm
    rw [reportStall_first (by rw [hcontrol]; exact h0), enterCause_of_humping .stalledSection hm']
    refine ⟨rfl, ?_, raised_raiseDevice .halted z⟩
    change z.control.halt ||| _ = _
    rw [hcontrol]
    rfl
  · exact (reportStall_mode (by rw [hcontrol]; exact h)).trans (by rw [hcontrol]; rfl)

theorem throwTicks_of_config {e : Env} {p : PointIx} {cfg : PointConfig} (h : e.ladder.config p = some cfg) :
    e.throwTicks p = 10 * cfg.tThrow := by
  simp [Env.throwTicks, h, Config.ticksPerMs]

/-- Settles O37: the drive is turned and the return timed from the expiry. -/
theorem throwTimeoutStartsReturn : Obligations.ThrowTimeoutStartsReturn := by
  intro p s x cfg target origin expiry kind hx hst hcfg hexp
  have hstate : s.yard.pointStateOf p = some (.moving target origin expiry kind) := by
    rw [Yard.pointStateOf, hx, Option.map_some, hst]
  have htimeout : s.yard.throwTimeout s.env p =
      (s.yard.energise p origin).setPointState p (.returning origin (after expiry (s.env.throwTicks p)) kind) := by
    rw [Yard.throwTimeout, hstate]
    dsimp only
    rw [if_pos (show atOrAfter s.env.now _ = true from hexp)]
  have hexec : exec (.throwTimeout p) s = .next (s.withYard (s.yard.throwTimeout s.env p)) := rfl
  rw [htimeout, throwTicks_of_config (e := s.env) hcfg] at hexec
  have hpoint : ∀ q, (s.yard.energise p origin).pointOf q = s.yard.pointOf q := Yard.pointOf_congr (by simp)
  refine ⟨_, hexec, ?_, fun q hq => ?_, ?_, ?_, fun q l hq => ?_, ?_⟩
  · change Yard.pointOf (Yard.setPointState p _ _) p = _
    rw [Yard.setPointState, Yard.pointOf_modifyPoint, if_pos rfl, hpoint, hx]
    rfl
  · change Yard.pointOf (Yard.setPointState p _ _) q = _
    rw [Yard.setPointState, Yard.pointOf_modifyPoint, if_neg (Ne.symm hq), hpoint]
  · simp [Yard.look_energise]
  · cases origin <;> simp [Yard.look_energise, otherLeg]
  · simp [Yard.look_energise, Ne.symm hq]
  · simp

end Sys2Proof.Proofs
end


section
/-! SUPPORT. Diversions and the arbiter: what a diversion makes of a cut and of the reserved counts (R114, R115, R151), what
the arbiter leaves of a point without an entry, and one turn of the arbiter (R132, R133). -/

namespace Sys2Proof.Proofs

open Sys2Proof Sys2Proof.Machine Sys2Proof.Spec

variable {e : Env} {y z : Yard} {i j : SlotIx} {p q : PointIx} {w : Waiting}

/-! ## Diversions -/

theorem startedAt_of_cutAt {c : Cut} (h : y.cutAt i = some c) : y.startedAt i = c.started := by
  rw [Yard.startedAt, h]
  rfl

theorem axlesMoved_of_tracks {y' z' : Yard} {t u : TrackIx} {n : Nat} (h : AxlesMoved y z t u n) (hy : y'.tracks = y.tracks)
    (hz : z'.tracks = z.tracks) : AxlesMoved y' z' t u n := by
  refine ⟨fun heq => by rw [hz, h.1 heq, hy], fun hne k => ?_⟩
  have hk := h.2 hne k
  simp only [Yard.trackOf, hy, hz] at hk ⊢
  exact hk

theorem axlesMoved_refl (t u : TrackIx) (h : t = u) (y : Yard) (n : Nat) : AxlesMoved y y t u n :=
  ⟨fun _ => rfl, fun hne => absurd h hne⟩

/-- A transfer between two tracks moves axles between their reserved counts. -/
theorem axlesMoved_transfer {t u : TrackIx} (h : t ≠ u) (n : Nat) (y : Yard) : AxlesMoved y ((y.release t n).reserve u n) t u n := by
  refine ⟨fun heq => absurd heq h, fun _ k => ?_⟩
  rw [Yard.trackOf_reserve, Yard.trackOf_release]
  by_cases hk : t = k
  · have hu : ¬ u = k := fun heq => h (hk.trans heq.symm)
    rw [if_neg hu, if_pos hk, if_pos hk.symm]
  · by_cases hu : u = k
    · rw [if_pos hu, if_neg hk, if_neg (Ne.symm hk), if_pos hu.symm]
    · rw [if_neg hu, if_neg hk, if_neg (Ne.symm hk), if_neg (Ne.symm hu)]

theorem cutAt_modifyStarted_self {c : Cut} {x : Started} (f : Started → Started) (h : y.cutAt i = some c) (hx : c.started = some x) :
    (y.modifyStarted i f).cutAt i = some { c with started := some (f x) } := by
  rw [Yard.cutAt_modifyStarted, if_pos rfl, h, Option.map_some, hx]
  rfl

/-- The started part of a cut that is bound for another track (R114). -/
def boundTo (l : Ladder) (t : TrackIx) (cause : Option ResolutionCause) (x : Started) : Started :=
  { x with resolved := t, route := if t = x.resolved then x.route else l.routeOf t, cause := cause }

theorem reroute_cut {c : Cut} {x : Started} {t : TrackIx} {cause : Option ResolutionCause} (h : y.cutAt i = some c)
    (hl : c.onLadder = true) (hx : c.started = some x) :
    (y.reroute e i t cause).cutAt i = some { c with started := some (boundTo e.ladder t cause x) } ∧
      AxlesMoved y (y.reroute e i t cause) x.resolved t c.axles := by
  rw [Yard.reroute, h]
  dsimp only
  rw [hx]
  dsimp only
  rw [hl]
  by_cases ht : t = x.resolved
  · rw [Bool.not_true, if_neg Bool.false_ne_true, if_pos ht]
    subst ht
    refine ⟨?_, axlesMoved_of_tracks (axlesMoved_refl x.resolved x.resolved rfl y c.axles) rfl (by simp)⟩
    rw [cutAt_modifyStarted_self _ h hx, boundTo, if_pos rfl]
  · rw [Bool.not_true, if_neg Bool.false_ne_true, if_neg ht]
    refine ⟨?_, axlesMoved_of_tracks (axlesMoved_transfer (Ne.symm ht) c.axles y) rfl (by simp)⟩
    have hcut : ((y.release x.resolved c.axles).reserve t c.axles).cutAt i = some c := (Yard.cutAt_congr (by simp) i).trans h
    rw [cutAt_modifyStarted_self _ hcut hx, boundTo, if_neg ht]

theorem cutAt_reroute_of_ne {t : TrackIx} {cause : Option ResolutionCause} (h : j ≠ i) (y : Yard) :
    (y.reroute e j t cause).cutAt i = y.cutAt i := by
  unfold Yard.reroute
  repeat' split
  · rfl
  · rw [Yard.cutAt_modifyStarted, if_neg h]
  · rw [Yard.cutAt_modifyStarted, if_neg h]
    exact Yard.cutAt_congr (by simp) i
  all_goals rfl

theorem cutAt_divertInto_of_ne {l : Leg} {cause : DiversionCause} (h : j ≠ i) (y : Yard) :
    (y.divertInto e j q l cause).cutAt i = y.cutAt i := by
  unfold Yard.divertInto
  split
  · rw [Yard.cutAt_congr (Yard.raiseCut_slots _ _ _), Yard.cutAt_modifyStarted, if_neg h, cutAt_reroute_of_ne h]
  · rfl

/-- What a diversion makes of a cut on the ladder (R115, R151, R154). -/
structure Diverted (l : Ladder) (y z : Yard) (i : SlotIx) (q : PointIx) (f : TrackIx) (cause : DiversionCause) (c : Cut) (x : Started) :
    Prop where
  cut : z.cutAt i = some { c with started := some (divertedTo l x q f cause) }
  raised : Raised z (.cut i) 4
  axles : AxlesMoved y z x.resolved f c.axles

theorem addDiversion_eq (q : PointIx) (cause : DiversionCause) (t : TrackIx) (l : List Diversion) :
    addDiversion q cause t l = if ∃ d ∈ l, d.point = q then l else l ++ [{ point := q, cause := cause, before := t }] := by
  unfold addDiversion
  simp only [List.any_eq_true, beq_iff_eq]

theorem Diverted.of_same {y' : Yard} {l : Ladder} {f : TrackIx} {cause : DiversionCause} {c : Cut} {x : Started}
    (h : Diverted l y z i q f cause c x) (hcut : y'.cutAt i = z.cutAt i) (hraised : Raised z (.cut i) 4 → Raised y' (.cut i) 4)
    (htracks : y'.tracks = z.tracks) : Diverted l y y' i q f cause c x :=
  ⟨hcut.trans h.cut, hraised h.raised, axlesMoved_of_tracks h.axles rfl htracks⟩

theorem Diverted.of_source {y' : Yard} {l : Ladder} {f : TrackIx} {cause : DiversionCause} {c : Cut} {x : Started}
    (h : Diverted l y z i q f cause c x) (htracks : y'.tracks = y.tracks) : Diverted l y' z i q f cause c x :=
  ⟨h.cut, h.raised, axlesMoved_of_tracks h.axles htracks rfl⟩

theorem Diverted.started {l : Ladder} {f : TrackIx} {cause : DiversionCause} {c : Cut} {x : Started}
    (h : Diverted l y z i q f cause c x) : z.startedAt i = some (divertedTo l x q f cause) := startedAt_of_cutAt h.cut

theorem divertInto_diverted {c : Cut} {x : Started} {m : Leg} {f : TrackIx} {cause : DiversionCause} (h : y.cutAt i = some c)
    (hl : c.onLadder = true) (hx : c.started = some x) (hf : e.ladder.fallback q m = some f) :
    Diverted e.ladder y (y.divertInto e i q m cause) i q f cause c x := by
  obtain ⟨hcut, haxles⟩ := reroute_cut (e := e) (t := f) (cause := none) h hl hx
  have hdivert : y.divertInto e i q m cause = ((y.reroute e i f none).modifyStarted i
      (fun z => { z with diversions := addDiversion q cause x.resolved z.diversions })).raiseCut i .diverted := by
    rw [Yard.divertInto, startedAt_of_cutAt h, hx, hf]
  rw [hdivert]
  refine ⟨?_, raised_raiseCut i .diverted _, axlesMoved_of_tracks haxles rfl (by simp)⟩
  rw [Yard.cutAt_congr (Yard.raiseCut_slots _ _ _), cutAt_modifyStarted_self _ hcut rfl, divertedTo]
  simp only [boundTo, addDiversion_eq]

theorem divertEarly_of_lie {m : Leg} {cause : DiversionCause} (h : y.pointLie q = some m) :
    y.divertEarly e q i cause = (y.divertInto e i q m cause).modifyPlan q
      (fun r => { r with state := .diverted, head := some i, needed := some m }) := by
  rw [Yard.divertEarly, h]

theorem planOf_divertInto (l : Leg) (cause : DiversionCause) (y : Yard) : (y.divertInto e i q l cause).plans = y.plans := by
  unfold Yard.divertInto
  split
  · unfold Yard.reroute
    repeat' split
    all_goals simp
  · rfl

theorem planOf_congr (h : z.plans = y.plans) (p : PointIx) : z.planOf p = y.planOf p := by rw [Yard.planOf, h]; rfl

/-- An early diversion: the cut is diverted into the leg the point lies in, and the planning state becomes DIVERTED. -/
theorem divertEarly_diverted {c : Cut} {x : Started} {m : Leg} {f : TrackIx} {cause : DiversionCause} (h : y.cutAt i = some c)
    (hl : c.onLadder = true) (hx : c.started = some x) (hf : e.ladder.fallback q m = some f) (hm : y.pointLie q = some m) :
    Diverted e.ladder y (y.divertEarly e q i cause) i q f cause c x ∧
      ∀ r, y.planOf q = some r → planned (y.divertEarly e q i cause) q = some (.diverted, some i, some m) := by
  rw [divertEarly_of_lie hm]
  refine ⟨(divertInto_diverted h hl hx hf).of_same (Yard.cutAt_congr (by simp) i) (fun hr => Raised.of_notices hr (by simp)) (by simp),
    fun r hr => ?_⟩
  rw [planned, Yard.planOf_modifyPlan, if_pos rfl, planOf_congr (planOf_divertInto m cause y), hr]
  rfl

theorem planOf_divertEarly_of_ne {cause : DiversionCause} (h : p ≠ q) (y : Yard) :
    (y.divertEarly e p i cause).planOf q = y.planOf q := by
  unfold Yard.divertEarly
  split
  · rw [Yard.planOf_modifyPlan, if_neg h, planOf_congr (planOf_divertInto _ _ _)]
  · rfl

theorem cutAt_divertEarly_of_ne {cause : DiversionCause} (h : j ≠ i) (y : Yard) :
    (y.divertEarly e p j cause).cutAt i = y.cutAt i := by
  unfold Yard.divertEarly
  split
  · rw [Yard.cutAt_congr (Yard.modifyPlan_slots _ _ _), cutAt_divertInto_of_ne h]
  · rfl

theorem expireEntry_of_head {cause : DiversionCause} (h : y.queueHead w.point = some i) :
    y.expireEntry e w cause = y.divertEarly e w.point i cause := by
  rw [Yard.expireEntry, h]

/-! ## One turn of the arbiter (R132, R133) -/

theorem arbiter_of_cons {rest : List Waiting} (n : Nat) (hw : y.waiting = w :: rest) (hslots : y.slotsInUse < e.ladder.consts.slots)
    (hfreeze : y.control.freezeFlag = false) : y.arbiter e (n + 1) =
      if w.expired e.now then (({ y with waiting := rest }).expireEntry e w .late).arbiter e n
      else if y.eligible w then (({ y with waiting := rest }).grant e w).arbiter e n
      else y := by
  rw [Yard.arbiter, if_pos ⟨hslots, hfreeze⟩, hw]

theorem arbitrate_expired {rest : List Waiting} (hw : y.waiting = w :: rest) (hslots : y.slotsInUse < e.ladder.consts.slots)
    (hfreeze : y.control.freezeFlag = false) (hexp : w.expired e.now = true) :
    y.arbitrate e = (({ y with waiting := rest }).expireEntry e w .late).arbitrate e := by
  have hrest : (({ y with waiting := rest } : Yard).expireEntry e w .late).waiting = rest :=
    (sameDrives_expireEntry (e := e) w .late { y with waiting := rest }).waiting
  rw [Yard.arbitrate, hw, List.length_cons, arbiter_of_cons _ hw hslots hfreeze, if_pos hexp, Yard.arbitrate, hrest]

theorem arbitrate_granted {rest : List Waiting} (hw : y.waiting = w :: rest) (hslots : y.slotsInUse < e.ladder.consts.slots)
    (hfreeze : y.control.freezeFlag = false) (hexp : w.expired e.now = false) (hel : y.eligible w = true) :
    y.arbitrate e = (({ y with waiting := rest }).grant e w).arbitrate e := by
  rw [Yard.arbitrate, hw, List.length_cons, arbiter_of_cons _ hw hslots hfreeze, if_neg (by simp [hexp]), if_pos hel, Yard.arbitrate,
    waiting_grant]

/-- Without a free slot, and under freeze, the arbiter does nothing. -/
theorem arbitrate_of_shut (h : e.ladder.consts.slots ≤ y.slotsInUse ∨ y.control.freezeFlag = true) : y.arbitrate e = y := by
  refine Yard.arbitrate_of_closed fun ⟨hslots, hfreeze⟩ => ?_
  obtain h | h := h
  · omega
  · rw [hfreeze] at h
    cases h

/-- A first entry that is not eligible is not skipped over. -/
theorem arbitrate_of_ineligible {rest : List Waiting} (hw : y.waiting = w :: rest) (hexp : w.expired e.now = false)
    (hel : y.eligible w = false) : y.arbitrate e = y := by
  by_cases hopen : y.slotsInUse < e.ladder.consts.slots ∧ y.control.freezeFlag = false
  · obtain ⟨hslots, hfreeze⟩ := hopen
    rw [Yard.arbitrate, hw, List.length_cons, arbiter_of_cons _ hw hslots hfreeze, if_neg (by simp [hexp]), if_neg (by simp [hel])]
  · exact Yard.arbitrate_of_closed hopen

/-- What every turn of the arbiter keeps, the arbiter keeps. -/
theorem arbiter_keeps {P : Yard → Prop} (n : Nat)
    (hexpire : ∀ z w rest, P z → z.waiting = w :: rest → P (({ z with waiting := rest }).expireEntry e w .late))
    (hgrant : ∀ z w rest, P z → z.waiting = w :: rest → P (({ z with waiting := rest }).grant e w)) (hy : P y) :
    P (y.arbiter e n) := by
  induction n generalizing y with
  | zero => exact hy
  | succ n ih =>
    unfold Yard.arbiter
    repeat' split
    · exact hy
    next w rest hw _ => exact ih (hexpire y w rest hy hw)
    next w rest hw _ _ => exact ih (hgrant y w rest hy hw)
    all_goals exact hy

theorem absent_of_waitingOf (h : y.waitingOf p = none) : Absent p y := by
  intro w hw heq
  have hnone := List.find?_eq_none.mp h w hw
  simp [heq] at hnone

theorem waitingOf_of_absent (h : Absent p y) : y.waitingOf p = none :=
  List.find?_eq_none.mpr fun w hw => by simpa using h w hw

theorem Absent.tail {rest : List Waiting} (h : Absent p y) (hw : y.waiting = w :: rest) :
    w.point ≠ p ∧ Absent p { y with waiting := rest } :=
  ⟨h w (by rw [hw]; exact List.mem_cons_self), fun v hv => h v (by rw [hw]; exact List.mem_cons_of_mem _ hv)⟩

theorem waiting_expireEntry (cause : DiversionCause) (w : Waiting) (y : Yard) : (y.expireEntry e w cause).waiting = y.waiting :=
  (sameDrives_expireEntry w cause y).waiting

theorem plans_grantPlanned_of_ne (h : w.point ≠ p) (y : Yard) : (y.grantPlanned w).planOf p = y.planOf p := by
  unfold Yard.grantPlanned
  split
  · rw [Yard.planOf_modifyPlan, if_neg h]
  · rfl

theorem planOf_grant_of_ne (h : w.point ≠ p) (y : Yard) : (y.grant e w).planOf p = y.planOf p := by
  unfold Yard.grant
  split
  · rw [plans_grantPlanned_of_ne h]
    exact planOf_congr (by simp) p
  · rfl

theorem slots_grant (w : Waiting) (y : Yard) : (y.grant e w).slots = y.slots := by
  unfold Yard.grant Yard.grantPlanned
  repeat' split
  all_goals simp

theorem planOf_expireEntry_of_ne {cause : DiversionCause} (h : w.point ≠ p) (y : Yard) :
    (y.expireEntry e w cause).planOf p = y.planOf p := by
  unfold Yard.expireEntry
  split
  · exact planOf_divertEarly_of_ne h y
  · rfl

/-- The arbiter leaves alone the planning record and the state of a point without an entry, and makes it none. -/
theorem arbitrate_of_absent (h : Absent p y) : Absent p (y.arbitrate e) ∧ (y.arbitrate e).planOf p = y.planOf p := by
  refine arbiter_keeps (P := fun z => Absent p z ∧ z.planOf p = y.planOf p) _ (fun z w rest ⟨habs, hplan⟩ hw => ?_)
    (fun z w rest ⟨habs, hplan⟩ hw => ?_) ⟨h, rfl⟩
  all_goals obtain ⟨hne, hrest⟩ := habs.tail hw
  · exact ⟨hrest.of_waiting (waiting_expireEntry _ _ _), (planOf_expireEntry_of_ne hne _).trans hplan⟩
  · exact ⟨hrest.of_waiting (waiting_grant w _), (planOf_grant_of_ne hne _).trans hplan⟩

theorem queueHead_of_queues (h : z.queues = y.queues) (q : PointIx) : z.queueHead q = y.queueHead q := by
  simp [Yard.queueHead, Yard.queueOf, h]

theorem queues_of_standing (h : z.standing = y.standing) : z.queues = y.queues := (Yard.standing_ext h).2.2.1

theorem cutAt_expireEntry_of_not_head {cause : DiversionCause} (h : y.queueHead w.point ≠ some i) :
    (y.expireEntry e w cause).cutAt i = y.cutAt i := by
  unfold Yard.expireEntry
  split
  next j hj => exact cutAt_divertEarly_of_ne (fun heq => h (by rw [hj, heq])) y
  · rfl

/-- The arbiter leaves alone a cut that stands at the head of no queue but that of a point without an entry. -/
theorem cutAt_arbitrate (h : Absent p y) (hhead : ∀ q, q ≠ p → y.queueHead q ≠ some i) : (y.arbitrate e).cutAt i = y.cutAt i := by
  have hkeeps : Absent p (y.arbitrate e) ∧ (y.arbitrate e).queues = y.queues ∧ (y.arbitrate e).cutAt i = y.cutAt i := by
    refine arbiter_keeps (P := fun z => Absent p z ∧ z.queues = y.queues ∧ z.cutAt i = y.cutAt i) _
      (fun z w rest ⟨habs, hqueues, hcut⟩ hw => ?_) (fun z w rest ⟨habs, hqueues, hcut⟩ hw => ?_) ⟨h, rfl, rfl⟩
    all_goals obtain ⟨hne, hrest⟩ := habs.tail hw
    · refine ⟨hrest.of_waiting (waiting_expireEntry _ _ _), (queues_of_standing (Yard.standing_expireEntry e w .late _)).trans hqueues, ?_⟩
      rw [cutAt_expireEntry_of_not_head (by rw [queueHead_of_queues (y := y) (z := { z with waiting := rest }) hqueues]; exact hhead _ hne)]
      exact hcut
    · exact ⟨hrest.of_waiting (waiting_grant w _), (queues_of_standing (Yard.standing_grant e w _)).trans hqueues,
        (Yard.cutAt_congr (slots_grant w _) i).trans hcut⟩
  exact hkeeps.2.2

end Sys2Proof.Proofs
end


section
/-! PROOFS. The arbiter and the waiting list (R131 to R133), and the expiry of a deadline (R133, R150, R151). -/

namespace Sys2Proof.Proofs

open Sys2Proof Sys2Proof.Machine Sys2Proof.Spec

variable {e : Env} {y z : Yard} {i j : SlotIx} {p q : PointIx} {w v u : Waiting} {now : Instant}

/-! ## The order of the list (R131) -/

theorem deadlineRank_of_ahead {d : Instant} (h : (d - now).toNat < 2 ^ 31) : deadlineRank now d = (d - now).toNat + 2 ^ 31 := by
  rw [deadlineRank, Config.halfRange, BitVec.toNat_add, BitVec.toNat_ofNat]
  omega

theorem deadline_eq_of_rank {d d' : Instant} (h : (d - now).toNat = (d' - now).toNat) : d = d' := by
  have hsub : d - now = d' - now := BitVec.eq_of_toNat_eq h
  rw [← BitVec.sub_add_cancel d now, hsub, BitVec.sub_add_cancel]

theorem precedes_of_standsBefore (hw : Ahead now w) (hv : Ahead now v) (h : standsBefore now w v = true) : Precedes now w v := by
  unfold standsBefore at h
  unfold Precedes
  cases hcw : w.claim with
  | manual => simp [hcw] at h
  | deadline d i =>
    cases hcv : v.claim with
    | manual => trivial
    | deadline d' i' =>
      simp only [hcw, hcv, deadlineRank_of_ahead (hw d i hcw), deadlineRank_of_ahead (hv d' i' hcv), Bool.or_eq_true,
        Bool.and_eq_true, decide_eq_true_eq, beq_iff_eq] at h
      obtain h | ⟨heq, hlt⟩ := h
      · exact .inl (by omega)
      · exact .inr ⟨deadline_eq_of_rank (now := now) (by omega), hlt⟩

theorem precedes_of_not_standsBefore (hw : Ahead now w) (hv : Ahead now v) (hne : v.point ≠ w.point)
    (h : standsBefore now w v = false) : Precedes now v w := by
  unfold standsBefore at h
  unfold Precedes
  cases hcw : w.claim with
  | manual => cases v.claim <;> trivial
  | deadline d i =>
    cases hcv : v.claim with
    | manual => simp [hcw, hcv] at h
    | deadline d' i' =>
      simp only [hcw, hcv, deadlineRank_of_ahead (hw d i hcw), deadlineRank_of_ahead (hv d' i' hcv), Bool.or_eq_false_iff,
        decide_eq_false_iff_not, Bool.and_eq_false_iff, beq_eq_false_iff_ne] at h
      obtain ⟨hnot, heq | hle⟩ := h
      · exact .inl (by omega)
      · by_cases heq : (d' - now).toNat = (d - now).toNat
        · exact .inr ⟨deadline_eq_of_rank heq, lt_of_le_of_ne (Nat.le_of_not_lt hle) hne⟩
        · exact .inl (by omega)

theorem precedes_trans (h : Precedes now w v) (h' : Precedes now v u) : Precedes now w u := by
  unfold Precedes at *
  cases hcw : w.claim <;> cases hcv : v.claim <;> cases hcu : u.claim <;> simp only [hcw, hcv, hcu] at h h' ⊢
  obtain h | ⟨rfl, h⟩ := h
  · obtain h' | ⟨rfl, h'⟩ := h'
    · exact .inl (lt_trans h h')
    · exact .inl h
  · obtain h' | ⟨rfl, h'⟩ := h'
    · exact .inl h'
    · exact .inr ⟨rfl, lt_trans h h'⟩

theorem insertWaiting_manual (h : w.claim = .manual) (now : Instant) (l : List Waiting) :
    l.dropWhile (fun x => !standsBefore now w x) = [] := by
  refine List.dropWhile_eq_nil_iff.mpr fun x _ => ?_
  simp [standsBefore, h]

/-- Placed where the order puts it, an entry leaves the list in order (R131). -/
theorem insertWaiting_pairwise {l : List Waiting} (hw : Ahead now w) (hl : ∀ v ∈ l, Ahead now v) (hne : ∀ v ∈ l, v.point ≠ w.point)
    (hsorted : l.Pairwise (Precedes now)) : (insertWaiting now w l).Pairwise (Precedes now) := by
  unfold insertWaiting
  generalize hpre : l.takeWhile (fun x => !standsBefore now w x) = pre
  generalize hpost : l.dropWhile (fun x => !standsBefore now w x) = post
  have hsplit : pre ++ post = l := by rw [← hpre, ← hpost, List.takeWhile_append_dropWhile]
  have hmem : ∀ v, v ∈ pre ∨ v ∈ post → v ∈ l := fun v hv => hsplit ▸ List.mem_append.mpr hv
  rw [← hsplit, List.pairwise_append] at hsorted
  obtain ⟨hpresorted, hpostsorted, hacross⟩ := hsorted
  have hbefore : ∀ v ∈ pre, Precedes now v w := fun v hv => by
    have hin := hmem v (.inl hv)
    rw [← hpre] at hv
    exact precedes_of_not_standsBefore hw (hl v hin) (hne v hin) (by simpa using List.mem_takeWhile_imp hv)
  have hbehind : ∀ v ∈ post, Precedes now w v := by
    cases post with
    | nil => simp
    | cons v0 rest =>
      have hfirst : Precedes now w v0 := by
        have hnot := List.head_dropWhile_not (fun x => !standsBefore now w x) (l := l) (by rw [hpost]; exact List.cons_ne_nil _ _)
        simp only [hpost, List.head_cons, Bool.not_eq_false'] at hnot
        exact precedes_of_standsBefore hw (hl v0 (hmem v0 (.inr List.mem_cons_self))) hnot
      intro v hv
      obtain rfl | hv := List.mem_cons.mp hv
      · exact hfirst
      · exact precedes_trans hfirst (List.rel_of_pairwise_cons hpostsorted hv)
  refine List.pairwise_append.mpr ⟨hpresorted, List.pairwise_cons.mpr ⟨hbehind, hpostsorted⟩, fun a ha b hb => ?_⟩
  obtain rfl | hb := List.mem_cons.mp hb
  · exact hbefore a ha
  · exact hacross a ha b hb

theorem placeWaiting_of_present (h : ∃ v ∈ y.waiting, v.point = w.point) : y.placeWaiting e w = y := by
  have hsome : (y.waitingOf w.point).isSome = true := by
    rw [Yard.waitingOf, List.find?_isSome]
    simpa using h
  rw [Yard.placeWaiting, if_pos hsome]

theorem placeWaiting_of_absent (h : Absent w.point y) : y.placeWaiting e w = { y with waiting := insertWaiting e.now w y.waiting } := by
  rw [Yard.placeWaiting, waitingOf_of_absent h]
  rfl

theorem waitingOrder : WaitingOrder := by
  intro e y w
  refine ⟨placeWaiting_of_present, fun habs => ?_⟩
  refine ⟨_, _, (List.takeWhile_append_dropWhile (p := fun x => !standsBefore e.now w x)).symm, placeWaiting_of_absent habs,
    fun hm => insertWaiting_manual hm _ _, fun hw hl hsorted => insertWaiting_pairwise hw hl habs hsorted⟩

/-! ## An expired first entry (R133) -/

theorem fields_expireEntry (cause : DiversionCause) (w : Waiting) (y : Yard) :
    (y.expireEntry e w cause).points = y.points ∧ (y.expireEntry e w cause).drive = y.drive ∧
      (y.expireEntry e w cause).slotsInUse = y.slotsInUse ∧ (y.expireEntry e w cause).queues = y.queues ∧
      (y.expireEntry e w cause).control = y.control ∧ (y.expireEntry e w cause).crest = y.crest := by
  have hsame := sameDrives_expireEntry (e := e) w cause y
  obtain ⟨-, -, hqueues, -, hcrest, -, -, hcontrol⟩ := Yard.standing_ext (Yard.standing_expireEntry e w cause y)
  exact ⟨hsame.points, hsame.drive, hsame.slotsInUse, hqueues, hcontrol, hcrest⟩

theorem expired_of_deadline {d : Instant} (hclaim : w.claim = .deadline d j) (h : laterThan now d = true) : w.expired now = true := by
  rw [Waiting.expired, hclaim]
  exact h

theorem expiredFirstEntry : ExpiredFirstEntry := by
  intro e y w rest d j hw hclaim hexp hslots hfreeze
  have hturn := arbitrate_expired hw hslots hfreeze (expired_of_deadline hclaim hexp)
  obtain ⟨hpoints, hdrive, hinuse, hqueues, hcontrol, hcrest⟩ := fields_expireEntry (e := e) .late w { y with waiting := rest }
  have hwaiting := waiting_expireEntry (e := e) .late w { y with waiting := rest }
  refine ⟨_, hturn, hwaiting, hpoints, hdrive, hinuse, hqueues, hcontrol, hcrest, fun hnone => ?_, fun hrest => ?_,
    fun m i c x f hlie hhead hcut hl hx hf => ?_⟩
  · rw [Yard.expireEntry, show Yard.queueHead { y with waiting := rest } w.point = none from hnone]
  · rw [hturn, Yard.arbitrate_nil (hwaiting.trans hrest)]
  · rw [expireEntry_of_head (y := { y with waiting := rest }) hhead]
    obtain ⟨hdiverted, hplan⟩ := divertEarly_diverted (e := e) (cause := .late) (y := { y with waiting := rest }) hcut hl hx hf hlie
    exact ⟨hdiverted.started, hdiverted.raised, (hdiverted.of_source rfl).axles, hplan⟩

/-! ## A grant (R132, R150) -/

theorem notExpired_of_claim (h : ∀ d i, w.claim = .deadline d i → laterThan now d = false) : w.expired now = false := by
  unfold Waiting.expired
  split
  next d i hc => exact h d i hc
  · rfl

theorem pointLie_of_pointOf {x : Point} (h : y.pointOf p = some x) : y.pointLie p = x.state.lie := by
  rw [Yard.pointLie, h]
  rfl

theorem eligible_eq {x : Point} (h : y.pointOf w.point = some x) :
    y.eligible w = (x.state.lie.isSome && !x.barred && y.sectionClear (.point w.point)) := by
  rw [Yard.eligible, pointLie_of_pointOf h, h]
  cases hb : x.barred <;> simp [hb]

theorem sectionClear_iff (y : Yard) (sid : SectionId) : y.sectionClear sid = true ↔ y.sectionState sid = some .clear := by
  simp [Yard.sectionClear]

theorem pointOf_grant {x : Point} {origin : Leg} (h : y.pointOf w.point = some x) (hl : x.state.lie = some origin) :
    (y.grant e w).pointOf w.point =
      some { x with state := .moving w.target origin (after e.now (e.throwTicks w.point)) w.claim.kind } := by
  rw [grant_of_lie ((pointLie_of_pointOf h).trans hl), Yard.pointOf_congr (grantPlanned_sameDrives w _).points,
    Yard.pointOf_congr (Yard.energise_points _ _ _), Yard.setPointState, Yard.pointOf_modifyPoint, if_pos rfl]
  rw [show Yard.pointOf { y with slotsInUse := y.slotsInUse + 1 } w.point = some x from h]
  rfl

theorem planOf_grant {origin : Leg} {r : Plan} (hl : y.pointLie w.point = some origin) (hr : y.planOf w.point = some r) :
    (y.grant e w).planOf w.point =
      some (match w.claim with
        | .deadline _ _ => { r with state := .set }
        | .manual => r) := by
  have hbefore : ∀ a : Yard, a.plans = y.plans → a.planOf w.point = some r := fun a ha => (planOf_congr ha _).trans hr
  rw [grant_of_lie hl, Yard.grantPlanned]
  cases w.claim with
  | manual => exact hbefore _ (by simp)
  | deadline d i =>
    dsimp only
    rw [Yard.planOf_modifyPlan, if_pos rfl, hbefore _ (by simp)]
    rfl

theorem fields_grant (w : Waiting) (y : Yard) : (y.grant e w).tracks = y.tracks ∧ (y.grant e w).notices = y.notices ∧
    (y.grant e w).queues = y.queues ∧ (y.grant e w).control = y.control := by
  obtain ⟨-, -, hqueues, -, -, -, -, hcontrol⟩ := Yard.standing_ext (Yard.standing_grant e w y)
  refine ⟨?_, ?_, hqueues, hcontrol⟩
  all_goals
    unfold Yard.grant Yard.grantPlanned
    repeat' split
    all_goals simp

/-- Settles O41: the list is kept in order as entries are placed, and each turn of the arbiter takes its first entry. -/
theorem arbiterGrantsEligibleFirstEntry : Obligations.ArbiterGrantsEligibleFirstEntry := by
  refine ⟨waitingOrder, expiredFirstEntry, fun e y => arbitrate_of_shut,
    fun e y w rest x hw hslots hfreeze hx hexp => ⟨fun hnot => ?_, ?_⟩⟩
  · refine arbitrate_of_ineligible hw (notExpired_of_claim hexp) ?_
    rw [eligible_eq hx]
    obtain h | h | h := hnot
    · simp [h]
    · simp [h]
    · rw [ne_eq, ← sectionClear_iff, Bool.not_eq_true] at h
      simp [h]
  · intro cfg origin hl hbar hclear hcfg
    have hel : y.eligible w = true := by simp [eligible_eq hx, hl, hbar, hclear]
    have hlie : Yard.pointLie { y with waiting := rest } w.point = some origin := (pointLie_of_pointOf hx).trans hl
    have hturn := arbitrate_granted hw hslots hfreeze (notExpired_of_claim hexp) hel
    obtain ⟨htracks, hnotices, hqueues, hcontrol⟩ := fields_grant (e := e) w { y with waiting := rest }
    have hticks : e.throwTicks w.point = 10 * cfg.tThrow := by simp [Env.throwTicks, hcfg, Config.ticksPerMs]
    refine ⟨_, hturn, waiting_grant w _, slotsInUse_grant hlie, ?_, fun l => ?_, fun q hq => ⟨?_, ?_, fun l => ?_⟩, fun r hr => ?_,
      slots_grant w _, htracks, hnotices, hqueues, hcontrol, fun hrest => ?_⟩
    · rw [pointOf_grant (y := { y with waiting := rest }) hx hl, hticks]
      rfl
    · rw [drive_grant hlie, if_pos rfl]
      exact Bool.beq_comm
    · exact pointOf_grant_of_ne (Ne.symm hq)
    · exact planOf_grant_of_ne (Ne.symm hq) _
    · rw [drive_grant hlie, if_neg (Ne.symm hq)]
    · exact planOf_grant hlie hr
    · rw [hturn, Yard.arbitrate_nil ((waiting_grant w _).trans hrest)]

/-! ## The expiry of a deadline (R133, R150) -/

theorem waitingOf_point (h : y.waitingOf p = some w) : w.point = p := by
  simpa using List.find?_some h

/-- Settles O39: the entry leaves the list, the head of the queue is diverted, and the arbiter, which meets no entry of the
point any more, leaves that diversion as it is. -/
theorem deadlineExpiryDivertsHead : Obligations.DeadlineExpiryDivertsHead := by
  intro p s w d j hw hclaim hexp
  have hpoint := waitingOf_point hw
  have hexpiry : s.yard.deadlineExpiry s.env p =
      ((s.yard.removeWaiting p).expireEntry s.env w s.yard.expiryCause).arbitrate s.env := by
    rw [Yard.deadlineExpiry, hw]
    dsimp only
    rw [if_pos (expired_of_deadline (now := s.env.now) hclaim hexp)]
  have hexec : exec (.deadlineExpiry p) s = .next (s.withYard (s.yard.deadlineExpiry s.env p)) := rfl
  have hstanding : (s.yard.deadlineExpiry s.env p).standing = s.yard.standing := Yard.standing_deadlineExpiry _ _ _
  obtain ⟨hlead, hsections, hqueues, -, hcrest, -, -, hcontrol⟩ := Yard.standing_ext hstanding
  have hmode : (s.yard.deadlineExpiry s.env p).control.mode = s.yard.control.mode := congrArg ModeControl.mode hcontrol
  generalize hz : (s.yard.removeWaiting p).expireEntry s.env w s.yard.expiryCause = z at hexpiry
  have habsent : Absent p z := hz ▸ (absent_removeWaiting p s.yard).of_waiting (waiting_expireEntry _ _ _)
  obtain ⟨habsent', hplan⟩ := arbitrate_of_absent (e := s.env) habsent
  refine ⟨_, hexec, ?_, hlead, hsections, hqueues, hmode, hcrest, fun m i c x f hlie hhead hcut hl hx hf => ?_⟩
  · change (s.yard.deadlineExpiry s.env p).waitingOf p = none
    rw [hexpiry]
    exact waitingOf_of_absent habsent'
  have hz' : (s.yard.removeWaiting p).divertEarly s.env p i s.yard.expiryCause = z := by
    rw [← hz, expireEntry_of_head (y := s.yard.removeWaiting p) (by rw [hpoint]; exact hhead), hpoint]
  obtain ⟨hdiverted, hplanned⟩ := divertEarly_diverted (e := s.env) (y := s.yard.removeWaiting p) (cause := s.yard.expiryCause)
    hcut hl hx hf hlie
  rw [hz'] at hdiverted hplanned
  have hqueuesz : z.queues = s.yard.queues := by rw [← hz]; exact (fields_expireEntry (e := s.env) _ w _).2.2.2.1
  refine ⟨?_, fun r hr => ?_, fun hheads => ?_, fun hone => ?_⟩
  · refine Raised.withYard ?_
    rw [hexpiry]
    exact (planClosed_raised _ _ _).arbitrate hdiverted.raised
  · change planned (s.yard.deadlineExpiry s.env p) p = _
    rw [hexpiry, planned, hplan]
    exact hplanned r hr
  · change (s.yard.deadlineExpiry s.env p).startedAt i = _
    rw [hexpiry, Yard.startedAt, cutAt_arbitrate habsent fun q hq => by rw [queueHead_of_queues hqueuesz]; exact hheads q hq]
    exact hdiverted.started
  · have hnil : z.waiting = [] := by
      rw [← hz, waiting_expireEntry, Yard.removeWaiting, hone]
      simp [hpoint]
    have hsame := sameDrives_expireEntry (e := s.env) w s.yard.expiryCause (s.yard.removeWaiting p)
    rw [hz] at hsame
    rw [Yard.arbitrate_nil hnil] at hexpiry
    rw [hexpiry]
    exact ⟨(hdiverted.of_source (y' := s.yard) rfl).axles, hsame.points, hsame.drive, hnil⟩

end Sys2Proof.Proofs
end


section
/-! SUPPORT. The evaluation of a point, said once for each of its cases (R146, R148, R149). -/

namespace Sys2Proof.Proofs

open Sys2Proof Sys2Proof.Machine Sys2Proof.Spec

variable {e : Env} {y z : Yard} {i : SlotIx} {p q : PointIx} {r : Plan}

/-! ## Planning records -/

/-- The yard with a planning record replaced. -/
def putPlan (q : PointIx) (r : Plan) (y : Yard) : Yard := { y with plans := Table.put y.plans q (some r) }

theorem table_put_put {n : Nat} {α : Type} (t : Table n α) (k : Fin n) (a b : α) :
    Table.put (Table.put t k a) k b = Table.put t k b :=
  Table.ext_look fun j => by
    simp only [Table.look_put]
    split <;> rfl

theorem table_put_self {n : Nat} {α : Type} {t : Table n α} {k : Fin n} {a : α} (h : Table.look t k = a) : Table.put t k a = t :=
  Table.ext_look fun j => by
    rw [Table.look_put]
    split
    next heq => rw [← h, heq]
    · rfl

theorem modifyPlan_eq {f : Plan → Plan} (h : y.planOf q = some r) : y.modifyPlan q f = putPlan q (f r) y := by
  rw [Yard.modifyPlan, h]
  rfl

theorem planOf_putPlan (q : PointIx) (r : Plan) (y : Yard) : (putPlan q r y).planOf q = some r := Table.look_put_self _ _ _

theorem putPlan_putPlan (q : PointIx) (r r' : Plan) (y : Yard) : putPlan q r (putPlan q r' y) = putPlan q r y := by
  simp only [putPlan, table_put_put]

theorem putPlan_self (h : y.planOf q = some r) : putPlan q r y = y := by
  rw [putPlan, table_put_self (show Table.look y.plans q = some r from h)]

theorem modifyPlan_putPlan (q : PointIx) (r : Plan) (f : Plan → Plan) (y : Yard) :
    (putPlan q r y).modifyPlan q f = putPlan q (f r) y := by
  rw [modifyPlan_eq (planOf_putPlan q r y), putPlan_putPlan]

/-- The planner and the arbiter keep a planning record where there is one. -/
theorem planClosed_hasPlan (e : Env) (q : PointIx) : PlanClosed e (fun y => (y.planOf q).isSome = true) where
  plan y p f hy := by
    rw [Yard.planOf_modifyPlan]
    split
    · simpa using hy
    · exact hy
  speed y i n hy := by rwa [planOf_congr (Yard.modifyStarted_plans i _ y) q]
  remove _ _ hy := hy
  pop _ _ _ hy _ := hy
  place y w hy := by
    unfold Yard.placeWaiting
    split <;> exact hy
  divert y i p l c hy := by rwa [planOf_congr (planOf_divertInto l c y) q]
  cancelled _ _ hy := hy
  grant y w hy _ _ _ := by
    by_cases h : w.point = q
    · unfold Yard.grant Yard.grantPlanned
      repeat' split
      · rw [Yard.planOf_modifyPlan]
        split
        · simpa [Yard.planOf] using hy
        · simpa [Yard.planOf] using hy
      · simpa [Yard.planOf] using hy
      · exact hy
    · rwa [planOf_grant_of_ne h]

/-! ## Withdrawals (R146, R147) -/

theorem claimOf_of_waiting {w : Waiting} (h : y.waitingOf q = some w) : y.claimOf q = some w.claim := by rw [Yard.claimOf, h]; rfl

theorem claimOf_of_absent (h : y.waitingOf q = none) : y.claimOf q = none := by rw [Yard.claimOf, h]; rfl

theorem withdrawFor_of_absent (h : y.waitingOf q = none) : y.withdrawFor e q i = y := by
  rw [Yard.withdrawFor, claimOf_of_absent h]

theorem withdrawDeadline_of_absent (h : y.waitingOf q = none) : y.withdrawDeadline e q = y := by
  rw [Yard.withdrawDeadline, claimOf_of_absent h]

theorem dropWaiting_of_present {w : Waiting} (h : y.waitingOf q = some w) : y.dropWaiting e q = (y.removeWaiting q).arbitrate e := by
  rw [Yard.dropWaiting, h]
  rfl

theorem withdrawFor_of_deadline {w : Waiting} {d : Instant} (h : y.waitingOf q = some w) (hw : w.claim = .deadline d i) :
    y.withdrawFor e q i = (y.removeWaiting q).arbitrate e := by
  rw [Yard.withdrawFor, claimOf_of_waiting h, hw]
  dsimp only
  rw [if_pos rfl, dropWaiting_of_present h]

theorem removeWaiting_eq (q : PointIx) (y : Yard) : y.removeWaiting q = { y with waiting := y.waiting.filter (fun b => b.point ≠ q) } := by
  have hfun : (fun w : Waiting => !(w.point == q)) = fun b => decide (b.point ≠ q) := funext fun w => by
    by_cases h : w.point = q <;> simp [h]
  rw [Yard.removeWaiting, hfun]

/-- A withdrawal leaves the planning record of its point, and at most a MANUAL entry. -/
theorem withdrawDeadline_spec (q : PointIx) (y : Yard) : (y.withdrawDeadline e q).planOf q = y.planOf q ∧
    ∀ w, (y.withdrawDeadline e q).waitingOf q = some w → w.claim = .manual := by
  cases hw : y.waitingOf q with
  | none =>
    rw [withdrawDeadline_of_absent hw]
    exact ⟨rfl, fun w h => by rw [hw] at h; cases h⟩
  | some w =>
    rw [Yard.withdrawDeadline, claimOf_of_waiting hw]
    cases hc : w.claim with
    | manual => exact ⟨rfl, fun v hv => by rw [hw, Option.some.injEq] at hv; rw [← hv, hc]⟩
    | deadline d i =>
      dsimp only
      rw [dropWaiting_of_present hw]
      obtain ⟨habsent, hplan⟩ := arbitrate_of_absent (e := e) (absent_removeWaiting q y)
      exact ⟨hplan, fun v hv => by rw [waitingOf_of_absent habsent] at hv; cases hv⟩

/-! ## The comparison before an evaluation (R146) -/

/-- The test that a planning record keeps where the head of the queue is the one given. -/
def keptTest (r : Plan) (head : Option SlotIx) : Option Test := if r.head = head then r.test else none

theorem renewHead_eq (hr : y.planOf q = some r) (h : r.head = y.queueHead q ∨ y.waitingOf q = none) :
    y.renewHead e q = putPlan q { r with head := y.queueHead q, test := keptTest r (y.queueHead q) } y := by
  rw [Yard.renewHead, hr]
  dsimp only
  by_cases heq : r.head = y.queueHead q
  · rw [if_pos heq, keptTest, if_pos heq, ← heq, putPlan_self hr]
  · have habsent := h.resolve_left heq
    rw [if_neg heq, keptTest, if_neg heq]
    cases r.head with
    | none => exact modifyPlan_eq hr
    | some i =>
      dsimp only
      rw [withdrawFor_of_absent habsent, modifyPlan_eq hr]

theorem renewHead_of_renewed (hr : y.planOf q = some r) (h : r.head = y.queueHead q) : y.renewHead e q = y := by
  rw [Yard.renewHead, hr]
  dsimp only
  rw [if_pos h]

/-- An evaluation goes on from the renewed head. -/
theorem evaluate_of_renewed (h : y.renewHead e q = z) (hz : z.renewHead e q = z) : y.evaluate e q = z.evaluate e q := by
  unfold Yard.evaluate
  rw [h, hz]

theorem queues_renewHead (q : PointIx) (y : Yard) : (y.renewHead e q).queues = y.queues :=
  queues_of_standing (Yard.standing_renewHead e q y)

theorem queueOf_congr (h : z.queues = y.queues) (q : PointIx) : z.queueOf q = y.queueOf q := by rw [Yard.queueOf, h]; rfl

theorem queueHead_of_cons {h : QueueEntry} {rest : List QueueEntry} (hq : y.queueOf q = h :: rest) : y.queueHead q = some h.slot := by
  rw [Yard.queueHead, hq]
  rfl

theorem queueHead_of_nil (hq : y.queueOf q = []) : y.queueHead q = none := by
  rw [Yard.queueHead, hq]
  rfl

/-- An entry made for a recorded cut no longer at the head is withdrawn first. -/
theorem evaluate_of_withdrawn {j : SlotIx} {w : Waiting} {d : Instant} {a : Plan} (hr : y.planOf q = some r) (hj : r.head = some j)
    (hne : y.queueHead q ≠ some j) (hw : y.waitingOf q = some w) (hc : w.claim = .deadline d j)
    (ha : ((y.removeWaiting q).arbitrate e).planOf q = some a) :
    y.evaluate e q = (putPlan q { a with head := y.queueHead q, test := none } ((y.removeWaiting q).arbitrate e)).evaluate e q := by
  have hnot : r.head ≠ y.queueHead q := fun heq => hne (by rw [← heq, hj])
  refine evaluate_of_renewed ?_ (renewHead_of_renewed (planOf_putPlan _ _ _) ?_)
  · rw [Yard.renewHead, hr]
    dsimp only
    rw [if_neg hnot, hj]
    dsimp only
    rw [withdrawFor_of_deadline hw hc, modifyPlan_eq ha]
  · exact (queueHead_of_queues (queues_of_standing (Yard.standing_arbitrate e (y.removeWaiting q))) q).symm

theorem planOf_evaluate_of_empty (hr : (y.planOf q).isSome = true) (hq : y.queueOf q = []) :
    (y.evaluate e q).planOf q = some Plan.idle := by
  have hsome := (planClosed_hasPlan e q).renewHead q hr
  obtain ⟨a, ha⟩ := Option.isSome_iff_exists.mp hsome
  unfold Yard.evaluate
  dsimp only
  rw [queueOf_congr (queues_renewHead q y), hq]
  dsimp only [List.head?_nil]
  rw [modifyPlan_eq ha]
  exact planOf_putPlan _ _ _

/-- Where nothing needs to be withdrawn, a point without a queue is left alone but for its planning record. -/
theorem evaluate_of_empty (hq : y.queueOf q = []) (hw : y.waitingOf q = none) : ∃ t, y.evaluate e q = { y with plans := t } := by
  have hmodify : ∀ (a : Yard) (f : Plan → Plan), ∃ t, a.modifyPlan q f = { a with plans := t } := fun a f => by
    unfold Yard.modifyPlan
    split
    · exact ⟨_, rfl⟩
    · exact ⟨a.plans, rfl⟩
  have hrenew : ∃ t, y.renewHead e q = { y with plans := t } := by
    cases hr : y.planOf q with
    | none => exact ⟨y.plans, by rw [Yard.renewHead, hr]⟩
    | some r => exact ⟨_, renewHead_eq hr (.inr hw)⟩
  obtain ⟨t, ht⟩ := hrenew
  unfold Yard.evaluate
  dsimp only
  rw [queueOf_congr (queues_renewHead q y), hq, ht]
  dsimp only [List.head?_nil]
  obtain ⟨t', ht'⟩ := hmodify { y with plans := t } fun _ => Plan.idle
  exact ⟨t', ht'⟩

/-! ## The cut at the head of the queue (R148, R149) -/

/-- The head of a queue and what its evaluation reads: the point's record and configuration, and the leg its cut needs. -/
structure Judges (e : Env) (y : Yard) (q : PointIx) (h : QueueEntry) (pt : Point) (cfg : PointConfig) (leg : Leg) : Prop where
  head : y.queueHead q = some h.slot
  front : (y.queueOf q).head? = some h
  point : y.pointOf q = some pt
  config : e.ladder.config q = some cfg
  leg : (y.startedAt h.slot).bind (fun x => x.legAt q) = some leg

section Judged

variable {h : QueueEntry} {pt : Point} {cfg : PointConfig} {leg m : Leg}

theorem judges_of_cons {rest : List QueueEntry} (hq : y.queueOf q = h :: rest) (hx : y.pointOf q = some pt)
    (hc : e.ladder.config q = some cfg) (hleg : (y.startedAt h.slot).bind (fun x => x.legAt q) = some leg) :
    Judges e y q h pt cfg leg := ⟨queueHead_of_cons hq, by rw [hq]; rfl, hx, hc, hleg⟩

/-- The planning record as an evaluation of the head of the queue writes it. -/
def judgedPlan (r : Plan) (h : QueueEntry) (leg : Leg) : Plan :=
  { state := r.state, head := some h.slot, needed := some leg, test := keptTest r (some h.slot) }

/-- The evaluation of a point with a head of its queue, where no entry for another cut has to be withdrawn. -/
theorem evaluate_head (hj : Judges e y q h pt cfg leg) (hr : y.planOf q = some r) (hkeep : r.head = some h.slot ∨ y.waitingOf q = none) :
    y.evaluate e q = (putPlan q (judgedPlan r h leg) y).judgeHead e q cfg pt h leg := by
  obtain ⟨hhead, hfront, hpoint, hconfig, hleg⟩ := hj
  have hrenew := renewHead_eq (e := e) hr (by rw [hhead]; exact hkeep)
  rw [hhead] at hrenew
  unfold Yard.evaluate
  dsimp only
  rw [hrenew]
  have hqueue : ∀ a, (putPlan q a y).queueOf q = y.queueOf q := fun a => rfl
  have hpt : ∀ a, (putPlan q a y).pointOf q = some pt := fun a => hpoint
  have hst : ∀ a, ((putPlan q a y).startedAt h.slot).bind (fun x => x.legAt q) = some leg := fun a => hleg
  rw [hqueue, hfront]
  dsimp only
  rw [hpt, hconfig, hst]
  dsimp only
  rw [modifyPlan_putPlan]
  rfl

theorem liesFor_serves {st : PointState} : st.liesFor leg = .serves ↔ Spec.Serves st leg := by
  unfold Spec.Serves
  cases st <;> simp [PointState.liesFor, PointState.lie]

theorem liesFor_of_lie {st : PointState} (hm : st.lie = some m) (hne : m ≠ leg) : st.liesFor leg = .against := by
  cases st <;> simp_all [PointState.liesFor, PointState.lie]

theorem liesFor_of_no_lie {st : PointState} (hs : ¬ Spec.Serves st leg) (hl : st.lie = none) : st.liesFor leg = .unjudged := by
  rw [← liesFor_serves] at hs
  cases st with
  | moving l o t k =>
    simp only [PointState.liesFor] at hs ⊢
    rw [if_neg fun heq => hs (by rw [if_pos heq])]
  | proved l => simp [PointState.lie] at hl
  | faulty l c => simp [PointState.lie] at hl
  | returning l t k => rfl
  | lost c => rfl

/-- Case 2: the planning record is SET, or DIVERTED where the cut is diverted here. -/
theorem judgeHead_serves (hs : Spec.Serves pt.state leg) (y : Yard) : y.judgeHead e q cfg pt h leg =
    (y.withdrawDeadline e q).modifyPlan q (fun r => { r with state := if y.divertedAt h.slot q then .diverted else .set }) := by
  rw [Yard.judgeHead, liesFor_serves.mpr hs]

/-- Case 3: the planner waits for the point. -/
theorem judgeHead_unjudged (hs : ¬ Spec.Serves pt.state leg) (hl : pt.state.lie = none) (y : Yard) :
    y.judgeHead e q cfg pt h leg = y.modifyPlan q (fun r => { r with state := .waitingPoint }) := by
  rw [Yard.judgeHead, liesFor_of_no_lie hs hl]

/-- Case 4: a barred or FAULTY point is not thrown. -/
theorem judgeHead_unavailable (hm : pt.state.lie = some m) (hne : m ≠ leg) (hu : pt.unavailable = true) (y : Yard) :
    y.judgeHead e q cfg pt h leg = y.divertAtHead e q h.slot .pointUnavailable := by
  rw [Yard.judgeHead, liesFor_of_lie hm hne]
  dsimp only
  rw [if_pos hu]

/-- Case 5: the planner waits for the section. -/
theorem judgeHead_not_clear (hm : pt.state.lie = some m) (hne : m ≠ leg) (hu : pt.unavailable = false)
    (hc : y.sectionState (.point q) ≠ some .clear) :
    y.judgeHead e q cfg pt h leg = y.modifyPlan q (fun r => { r with state := .waitingClear }) := by
  have hclear : ¬ y.sectionClear (.point q) = true := fun h => hc (by simpa [Yard.sectionClear] using h)
  rw [Yard.judgeHead, liesFor_of_lie hm hne]
  dsimp only
  rw [if_neg (by simp [hu]), if_neg hclear]

/-- Case 6: the throw test. -/
theorem judgeHead_tested (hm : pt.state.lie = some m) (hne : m ≠ leg) (hu : pt.unavailable = false)
    (hc : y.sectionState (.point q) = some .clear) : y.judgeHead e q cfg pt h leg = y.testHead e q cfg h leg := by
  have hclear : y.sectionClear (.point q) = true := by simpa [Yard.sectionClear] using hc
  rw [Yard.judgeHead, liesFor_of_lie hm hne]
  dsimp only
  rw [if_neg (by simp [hu]), if_pos hclear]

theorem unavailable_iff (pt : Point) : pt.unavailable = true ↔ pt.barred = true ∨ ∃ m a, pt.state = .faulty m a := by
  unfold Point.unavailable
  cases pt.state <;> simp

theorem available_of_proved (hst : pt.state = .proved m) (hb : pt.barred = false) : pt.unavailable = false := by
  rw [Point.unavailable, hb, hst]
  rfl

end Judged

end Sys2Proof.Proofs
end


section
/-! PROOFS. The throw test (R143 to R145), the evaluation of a point (R146, R148 to R151) and the entry check (R152, R153). -/

namespace Sys2Proof.Proofs

open Sys2Proof Sys2Proof.Machine Sys2Proof.Spec

variable {e : Env} {y z : Yard} {i : SlotIx} {p q : PointIx} {r : Plan}

/-! ## The throw test -/

theorem ceilDiv_bounds (a : Nat) {b : Nat} (hb : 0 < b) : a ≤ ceilDiv a b * b ∧ ceilDiv a b * b < a + b := by
  have hdiv := Nat.div_add_mod (a + b - 1) b
  have hmod := Nat.mod_lt (a + b - 1) hb
  rw [ceilDiv, Nat.mul_comm]
  omega

theorem approachSpeed_bounds {spacing interval : Nat} (hi : 0 < interval) :
    100 ≤ approachSpeed spacing interval ∧ approachSpeed spacing interval ≤ 15000 ∧
      (100 < approachSpeed spacing interval → (approachSpeed spacing interval - 1) * interval < spacing * 10000) ∧
      (approachSpeed spacing interval < 15000 → spacing * 10000 ≤ approachSpeed spacing interval * interval) := by
  obtain ⟨hle, hlt⟩ := ceilDiv_bounds (spacing * 10000) hi
  unfold approachSpeed Config.vMin Config.vMax
  generalize ceilDiv (spacing * 10000) interval = n at *
  refine ⟨by omega, by omega, fun h => ?_, fun h => ?_⟩
  · have hn : min (max n 100) 15000 ≤ n := by omega
    have hmul := Nat.mul_le_mul_right interval (Nat.sub_le_sub_right hn 1)
    rw [Nat.sub_mul n 1 interval, Nat.one_mul] at hmul
    have hpos : interval ≤ n * interval := Nat.le_mul_of_pos_left interval (by omega)
    exact lt_of_le_of_lt hmul (by omega)
  · have hn : n ≤ min (max n 100) 15000 := by omega
    exact hle.trans (Nat.mul_le_mul_right interval hn)

/-- The ticks elapsed stay within ten times the margin exactly if their number in milliseconds, rounded up, does not pass it. -/
theorem pass_iff (k : Constants) (c : PointConfig) (q : QueueEntry) (now : Instant) :
    (throwTest k c q now).pass = true ↔ (elapsedTicks q.instant now q.longAgo : Int) ≤ 10 * (throwTest k c q now).margin := by
  obtain ⟨hle, hlt⟩ := ceilDiv_bounds (elapsedTicks q.instant now q.longAgo) (b := 10) (by decide)
  change decide ((ceilDiv (elapsedTicks q.instant now q.longAgo) 10 : Int) ≤ (throwTest k c q now).margin) = true ↔ _
  rw [decide_eq_true_eq]
  omega

theorem margin_le {k : Constants} {c : PointConfig} (h : c.dApp ≤ 30000) (q : QueueEntry) (now : Instant) :
    (throwTest k c q now).margin ≤ 3000000 := by
  have hspeed : 100 ≤ approachSpeed k.spacing q.interval := by
    unfold approachSpeed Config.vMin Config.vMax
    omega
  have hallowed : 100 ≤ allowedSpeed (approachSpeed k.spacing q.interval) c.grade := by
    obtain ⟨hle, -⟩ := ceilDiv_bounds (approachSpeed k.spacing q.interval * (100 + c.grade)) (b := 100) (by decide)
    unfold allowedSpeed
    have hmul : 100 * 100 ≤ approachSpeed k.spacing q.interval * (100 + c.grade) := Nat.mul_le_mul hspeed (Nat.le_add_right _ _)
    omega
  have harrival : arrivalTime c.dApp (allowedSpeed (approachSpeed k.spacing q.interval) c.grade) ≤ 3000000 := by
    unfold arrivalTime
    calc c.dApp * 10000 / allowedSpeed (approachSpeed k.spacing q.interval) c.grade
        ≤ c.dApp * 10000 / 100 := Nat.div_le_div_left hallowed (by decide)
      _ ≤ 3000000 := by omega
  simp only [throwTest, margin]
  omega

theorem margin_ge {k : Constants} {c : PointConfig} (ht : c.tThrow ≤ 3000) (hg : k.guard ≤ 1000) (q : QueueEntry) (now : Instant) :
    -4000 ≤ (throwTest k c q now).margin := by
  simp only [throwTest, margin]
  omega

theorem sub_mod_wrap (d : Nat) (k : Int) :
    (((4294967296 - (k % 4294967296).toNat + d) % 4294967296 : Nat) : Int) = ((d : Int) - k) % 4294967296 := by
  have hpos := Int.emod_nonneg k (b := 4294967296) (by omega)
  have hlt := Int.emod_lt_of_pos k (b := 4294967296) (by omega)
  omega

theorem ticksBetween_deadline (a now : Instant) (m : Int) :
    (ticksBetween (deadlineOf a m) now : Int) = ((ticksBetween a now : Int) - 10 * m) % 4294967296 := by
  rw [← sub_mod_wrap]
  unfold ticksBetween deadlineOf
  rw [sub_add_eq_sub_sub, BitVec.toNat_sub, BitVec.toNat_ofInt]
  norm_num

/-- A test that passes leaves a deadline that has not passed. -/
theorem not_late_of_pass {k : Constants} {c : PointConfig} {q : QueueEntry} {now : Instant} (h : c.dApp ≤ 30000)
    (hp : (throwTest k c q now).pass = true) : laterThan now (throwTest k c q now).deadline = false := by
  have hm := margin_le (k := k) h q now
  rw [pass_iff] at hp
  have hdead := ticksBetween_deadline q.instant now (throwTest k c q now).margin
  change (ticksBetween (throwTest k c q now).deadline now : Int) = _ at hdead
  generalize (throwTest k c q now).margin = m at *
  have hd : ticksBetween q.instant now < 2 ^ 32 := (now - q.instant).isLt
  have helapsed : (ticksBetween q.instant now : Int) ≤ 10 * m := by
    unfold elapsedTicks Config.halfRange at hp
    split at hp <;> omega
  unfold laterThan atOrAfter Config.halfRange
  simp only [Bool.and_eq_false_iff, decide_eq_false_iff_not]
  omega

theorem pass_iff_not_late {k : Constants} {c : PointConfig} {q : QueueEntry} {now : Instant} (h : c.dApp ≤ 30000)
    (ht : c.tThrow ≤ 3000) (hg : k.guard ≤ 1000) (hl : q.longAgo = false) (hd : (now - q.instant).toNat < 2 ^ 30) :
    (throwTest k c q now).pass = true ↔ laterThan now (throwTest k c q now).deadline = false := by
  refine ⟨not_late_of_pass h, fun hlate => ?_⟩
  have hm := margin_le (k := k) h q now
  have hm' := margin_ge (k := k) ht hg q now
  rw [pass_iff]
  have hdead := ticksBetween_deadline q.instant now (throwTest k c q now).margin
  change (ticksBetween (throwTest k c q now).deadline now : Int) = _ at hdead
  generalize (throwTest k c q now).margin = m at *
  have hd' : ticksBetween q.instant now < 2 ^ 30 := hd
  simp only [elapsedTicks, hl, Config.halfRange, Bool.false_eq_true, if_false]
  unfold laterThan atOrAfter Config.halfRange at hlate
  obtain hsame | hfar := Bool.and_eq_false_iff.mp hlate
  · have := of_decide_eq_false hsame
    omega
  · have := of_decide_eq_false hfar
    omega

/-! ## The cases of an evaluation -/

section Cases

variable {h : QueueEntry} {pt : Point} {cfg : PointConfig} {leg m : Leg} {c : Cut} {x : Started}

theorem modifyStarted_eq (hc : y.cutAt i = some c) (hx : c.started = some x) (f : Started → Started) :
    y.modifyStarted i f = y.putSlot i (some (.cut { c with started := some (f x) })) := by
  rw [Yard.modifyStarted, Yard.modifyCut, hc]
  dsimp only
  rw [hx]
  rfl

theorem diverted_eq_divertedAt (hc : y.cutAt i = some c) (hx : c.started = some x) (q : PointIx) :
    y.divertedAt i q = true ↔ ∃ d ∈ x.diversions, d.point = q := by
  rw [Yard.divertedAt, startedAt_of_cutAt hc, hx]
  simp

/-- Case 2. -/
theorem evaluate_serves (hj : Judges e y q h pt cfg leg) (hr : y.planOf q = some r) (hkeep : r.head = some h.slot ∨ y.waitingOf q = none)
    (hc : y.cutAt h.slot = some c) (hx : c.started = some x) (hs : Spec.Serves pt.state leg) :
    planned (y.evaluate e q) q =
        some (if ∃ d ∈ x.diversions, d.point = q then .diverted else .set, some h.slot, some leg) ∧
      ∀ w, (y.evaluate e q).waitingOf q = some w → w.claim = .manual := by
  obtain ⟨hplan, hwaiting⟩ := withdrawDeadline_spec (e := e) q (putPlan q (judgedPlan r h leg) y)
  have hdiverted : (putPlan q (judgedPlan r h leg) y).divertedAt h.slot q = true ↔ ∃ d ∈ x.diversions, d.point = q :=
    diverted_eq_divertedAt hc hx q
  rw [evaluate_head hj hr hkeep, judgeHead_serves hs]
  constructor
  · rw [planned, Yard.planOf_modifyPlan, if_pos rfl, hplan, planOf_putPlan]
    simp only [Option.map_some, hdiverted]
    rfl
  · intro w hw
    rw [Yard.waitingOf, Yard.modifyPlan_waiting] at hw
    exact hwaiting w hw

/-- Case 3. -/
theorem evaluate_unjudged (hj : Judges e y q h pt cfg leg) (hr : y.planOf q = some r) (hkeep : r.head = some h.slot ∨ y.waitingOf q = none)
    (hs : ¬ Spec.Serves pt.state leg) (hl : pt.state.lie = none) :
    y.evaluate e q = putPlan q { state := .waitingPoint, head := some h.slot, needed := some leg, test := keptTest r (some h.slot) } y := by
  rw [evaluate_head hj hr hkeep, judgeHead_unjudged hs hl, modifyPlan_putPlan]
  rfl

theorem divertAtHead_of_absent {cause : DiversionCause} (hw : y.waitingOf q = none) :
    y.divertAtHead e q i cause = y.divertEarly e q i cause := by
  rw [Yard.divertAtHead, withdrawFor_of_absent hw]

/-- What an early diversion leaves alone. -/
theorem divertEarly_fields (cause : DiversionCause) (i : SlotIx) (q : PointIx) (y : Yard) :
    (y.divertEarly e q i cause).points = y.points ∧ (y.divertEarly e q i cause).waiting = y.waiting ∧
      (y.divertEarly e q i cause).queues = y.queues := by
  have hsame := sameDrives_divertEarly (e := e) q i cause y
  exact ⟨hsame.points, hsame.waiting, queues_of_standing (Yard.standing_divertEarly e q i cause y)⟩

/-- Case 4. -/
theorem evaluate_unavailable (hj : Judges e y q h pt cfg leg) (hr : y.planOf q = some r) (hw : y.waitingOf q = none)
    (hm : pt.state.lie = some m) (hne : m ≠ leg) (hu : pt.unavailable = true) :
    y.evaluate e q = (putPlan q (judgedPlan r h leg) y).divertEarly e q h.slot .pointUnavailable := by
  rw [evaluate_head hj hr (.inr hw), judgeHead_unavailable hm hne hu,
    divertAtHead_of_absent (y := putPlan q (judgedPlan r h leg) y) hw]

/-- Case 5. -/
theorem evaluate_not_clear (hj : Judges e y q h pt cfg leg) (hr : y.planOf q = some r) (hkeep : r.head = some h.slot ∨ y.waitingOf q = none)
    (hm : pt.state.lie = some m) (hne : m ≠ leg) (hu : pt.unavailable = false) (hclear : y.sectionState (.point q) ≠ some .clear) :
    y.evaluate e q = putPlan q { state := .waitingClear, head := some h.slot, needed := some leg, test := keptTest r (some h.slot) } y := by
  rw [evaluate_head hj hr hkeep, judgeHead_not_clear (y := putPlan q (judgedPlan r h leg) y) hm hne hu hclear, modifyPlan_putPlan]
  rfl

/-- The yard as the throw test leaves it: the allowed speed with the cut, the test with the planning record (R143, R149). -/
def testedYard (q : PointIx) (h : QueueEntry) (leg : Leg) (st : PlanState) (t : Test) (c : Cut) (x : Started) (y : Yard) : Yard :=
  putPlan q { state := st, head := some h.slot, needed := some leg, test := some t }
    (y.putSlot h.slot (some (.cut { c with started := some { x with speed := some t.allowed } })))

theorem testHead_eq {a : Plan} {t : Test} (hc : y.cutAt h.slot = some c) (hx : c.started = some x)
    (ht : throwTest e.ladder.consts cfg h e.now = t) (hhead : a.head = some h.slot) (hneeded : a.needed = some leg) :
    (putPlan q a y).testHead e q cfg h leg =
      if t.pass then
        if (y.waitingOf q).isSome then testedYard q h leg .requested t c x y
        else ((testedYard q h leg .requested t c x y).placeWaiting e
          { point := q, target := leg, claim := .deadline t.deadline h.slot }).arbitrate e
      else (testedYard q h leg a.state t c x y).divertAtHead e q h.slot .late := by
  have hstarted : (putPlan q a y).modifyStarted h.slot (fun z => { z with speed := some t.allowed }) =
      putPlan q a (y.putSlot h.slot (some (.cut { c with started := some { x with speed := some t.allowed } }))) :=
    modifyStarted_eq (y := putPlan q a y) hc hx _
  have hwaiting : ∀ st, (testedYard q h leg st t c x y).waitingOf q = y.waitingOf q := fun st => rfl
  unfold Yard.testHead
  rw [ht]
  dsimp only
  rw [hstarted]
  simp only [modifyPlan_putPlan, hhead, hneeded]
  rfl

/-- Case 6. -/
theorem evaluate_tested {t : Test} (hj : Judges e y q h pt cfg leg) (hr : y.planOf q = some r)
    (hkeep : r.head = some h.slot ∨ y.waitingOf q = none) (hc : y.cutAt h.slot = some c) (hx : c.started = some x)
    (hm : pt.state.lie = some m) (hne : m ≠ leg) (hu : pt.unavailable = false) (hclear : y.sectionState (.point q) = some .clear)
    (ht : throwTest e.ladder.consts cfg h e.now = t) :
    y.evaluate e q =
      if t.pass then
        if (y.waitingOf q).isSome then testedYard q h leg .requested t c x y
        else ((testedYard q h leg .requested t c x y).placeWaiting e
          { point := q, target := leg, claim := .deadline t.deadline h.slot }).arbitrate e
      else (testedYard q h leg r.state t c x y).divertAtHead e q h.slot .late := by
  rw [evaluate_head hj hr hkeep, judgeHead_tested (y := putPlan q (judgedPlan r h leg) y) hm hne hu hclear,
    testHead_eq hc hx ht rfl rfl]
  rfl

theorem planned_of_planOf {a : Plan} (ha : y.planOf q = some a) : planned y q = some (a.state, a.head, a.needed) := by
  rw [planned, ha]
  rfl

/-- A diversion at the head of a queue whose point has no entry: what the statements say of it. -/
theorem divertEarly_at_head {a : Plan} {f : TrackIx} {cause : DiversionCause} (hc : y.cutAt i = some c) (hl : c.onLadder = true)
    (hx : c.started = some x) (hlie : y.pointLie q = some m) (hf : e.ladder.fallback q m = some f) (ha : y.planOf q = some a) :
    (y.divertEarly e q i cause).startedAt i = some (divertedTo e.ladder x q f cause) ∧
      Raised (y.divertEarly e q i cause) (.cut i) 4 ∧
      planned (y.divertEarly e q i cause) q = some (.diverted, some i, some m) ∧
      AxlesMoved y (y.divertEarly e q i cause) x.resolved f c.axles := by
  obtain ⟨hdiverted, hplan⟩ := divertEarly_diverted (e := e) (cause := cause) hc hl hx hf hlie
  exact ⟨hdiverted.started, hdiverted.raised, hplan a ha, hdiverted.axles⟩

/-! ### The throw test -/

/-- The last test of a point's planning record. -/
def lastTest (q : PointIx) (y : Yard) : Option (Option Test) := (y.planOf q).map (fun a => a.test)

theorem lastTest_modifyPlan {f : Plan → Plan} (hf : ∀ a, (f a).test = a.test) (p : PointIx) (y : Yard) :
    lastTest q (y.modifyPlan p f) = lastTest q y := by
  rw [lastTest, Yard.planOf_modifyPlan]
  split
  · rw [Option.map_map]
    exact congrArg (fun g => Option.map g _) (funext hf)
  · rfl

theorem lastTest_congr (h : z.plans = y.plans) : lastTest q z = lastTest q y := by rw [lastTest, planOf_congr h]; rfl

theorem lastTest_divertEarly (cause : DiversionCause) (p : PointIx) (i : SlotIx) (y : Yard) :
    lastTest q (y.divertEarly e p i cause) = lastTest q y := by
  unfold Yard.divertEarly
  split
  · rw [lastTest_modifyPlan, lastTest_congr (planOf_divertInto _ _ _)]
    exact fun _ => rfl
  · rfl

theorem lastTest_grant (w : Waiting) (y : Yard) : lastTest q (y.grant e w) = lastTest q y := by
  unfold Yard.grant Yard.grantPlanned
  repeat' split
  · rw [lastTest_modifyPlan, lastTest_congr (y := y) (by simp)]
    exact fun _ => rfl
  · exact lastTest_congr (by simp)
  · rfl

/-- The arbiter makes no test. -/
theorem lastTest_arbitrate (y : Yard) : lastTest q (y.arbitrate e) = lastTest q y := by
  refine arbiter_keeps (P := fun z => lastTest q z = lastTest q y) _ (fun z w rest hz hw => ?_) (fun z w rest hz hw => ?_) rfl
  · unfold Yard.expireEntry
    split
    · exact (lastTest_divertEarly _ _ _ _).trans hz
    · exact hz
  · exact (lastTest_grant w _).trans hz

theorem planOf_testedYard (q : PointIx) (h : QueueEntry) (leg : Leg) (st : PlanState) (t : Test) (c : Cut) (x : Started) (y : Yard) :
    (testedYard q h leg st t c x y).planOf q = some { state := st, head := some h.slot, needed := some leg, test := some t } :=
  planOf_putPlan _ _ _

theorem cutAt_testedYard (q : PointIx) (h : QueueEntry) (leg : Leg) (st : PlanState) (t : Test) (c : Cut) (x : Started) (y : Yard) :
    (testedYard q h leg st t c x y).cutAt h.slot = some { c with started := some { x with speed := some t.allowed } } := by
  have hput := Yard.cutAt_putSlot_cut h.slot h.slot { c with started := some { x with speed := some t.allowed } } y
  rw [if_pos rfl] at hput
  exact hput

theorem placed_yard {w : Waiting} (hw : y.waitingOf q = none) (hp : w.point = q) :
    y.placeWaiting e w = { y with waiting := insertWaiting e.now w y.waiting } := by
  rw [Yard.placeWaiting, hp, hw]
  rfl

/-- A tested entry that meets a free slot and an empty list is granted at once (R132, R150). -/
theorem granted_at_once {t : Test} (hpt : y.pointOf q = some pt) (hm : pt.state.lie = some m) (hb : pt.barred = false)
    (hclear : y.sectionState (.point q) = some .clear) (hcfg : e.ladder.config q = some cfg) (hw : y.waiting = [])
    (hslots : y.slotsInUse < e.ladder.consts.slots) (hfreeze : y.control.freezeFlag = false)
    (hlate : laterThan e.now t.deadline = false) :
    ∃ z, ((testedYard q h leg .requested t c x y).placeWaiting e
        { point := q, target := leg, claim := .deadline t.deadline h.slot }).arbitrate e = z ∧
      z.startedAt h.slot = some { x with speed := some t.allowed } ∧ planned z q = some (.set, some h.slot, some leg) ∧ z.waiting = [] ∧
      z.pointOf q = some { pt with state := .moving leg m (e.now + BitVec.ofNat 32 (10 * cfg.tThrow)) .deadline } := by
  generalize hT : testedYard q h leg .requested t c x y = T
  have hTpoint : T.pointOf q = some pt := hT ▸ hpt
  have hTwaiting : T.waiting = [] := hT ▸ hw
  have hTplan := hT ▸ planOf_testedYard q h leg .requested t c x y
  have hTcut := hT ▸ cutAt_testedYard q h leg .requested t c x y
  have hTslots : T.slotsInUse < e.ladder.consts.slots := hT ▸ hslots
  have hTfreeze : T.control.freezeFlag = false := hT ▸ hfreeze
  have hTclear : T.sectionClear (.point q) = true := (sectionClear_iff T _).mpr (hT ▸ hclear)
  have habsent : T.waitingOf q = none := by rw [Yard.waitingOf, hTwaiting]; rfl
  rw [placed_yard habsent rfl, hTwaiting]
  generalize hW : ({ point := q, target := leg, claim := .deadline t.deadline h.slot } : Waiting) = W
  have hWq : W.point = q := by rw [← hW]
  have hP : W.point = q := hWq
  have hpoint : ({ T with waiting := insertWaiting e.now W [] } : Yard).pointOf W.point = some pt := by rw [hWq]; exact hTpoint
  have hel : ({ T with waiting := insertWaiting e.now W [] } : Yard).eligible W = true := by
    rw [eligible_eq hpoint, hm, hb, hWq]
    exact hTclear
  have hexp : W.expired e.now = false := by rw [← hW]; exact hlate
  have hturn := arbitrate_granted (y := { T with waiting := insertWaiting e.now W [] }) (w := W) (rest := []) rfl hTslots hTfreeze hexp hel
  rw [hturn, Yard.arbitrate_nil (waiting_grant W _)]
  refine ⟨_, rfl, ?_, ?_, waiting_grant W _, ?_⟩
  · rw [Yard.startedAt, Yard.cutAt_congr (slots_grant W _)]
    rw [show Yard.cutAt { T with waiting := [] } h.slot = _ from hTcut]
    rfl
  · have hlie : Yard.pointLie { T with waiting := [] } W.point = some m := by
      rw [hWq]
      exact (pointLie_of_pointOf hTpoint).trans hm
    have hset := planOf_grant (e := e) (w := W) (y := { T with waiting := [] }) (r := _) hlie (by rw [hWq]; exact hTplan)
    rw [hWq] at hset
    rw [planned_of_planOf hset, ← hW]
  · have hset := pointOf_grant (e := e) (w := W) (y := { T with waiting := [] }) (x := pt) (origin := m) (by rw [hWq]; exact hTpoint) hm
    rw [hWq] at hset
    rw [hset, Env.throwTicks, hcfg, ← hW]
    rfl

/-! ### The statements -/

/-- Cases 4 to 6 where the point has no entry (R149). -/
theorem evaluate_against (hj : Judges e y q h pt cfg leg) (hr : y.planOf q = some r) (hw : y.waitingOf q = none)
    (hc : y.cutAt h.slot = some c) (hl : c.onLadder = true) (hx : c.started = some x) (hst : pt.state = .proved m) (hne : m ≠ leg)
    (hb : pt.barred = false) (hclear : y.sectionState (.point q) = some .clear) {t : Test}
    (ht : throwTest e.ladder.consts cfg h e.now = t) :
    lastTest q (y.evaluate e q) = some (some t) ∧
      (t.pass = false → ∀ f, e.ladder.fallback q m = some f →
        (y.evaluate e q).startedAt h.slot = some (divertedTo e.ladder { x with speed := some t.allowed } q f .late) ∧
        Raised (y.evaluate e q) (.cut h.slot) 4 ∧ planned (y.evaluate e q) q = some (.diverted, some h.slot, some m) ∧
        AxlesMoved y (y.evaluate e q) x.resolved f c.axles ∧ (y.evaluate e q).points = y.points ∧
        (y.evaluate e q).waiting = y.waiting) ∧
      (t.pass = true →
        (e.ladder.consts.slots ≤ y.slotsInUse ∨ y.control.freezeFlag = true →
          (y.evaluate e q).startedAt h.slot = some { x with speed := some t.allowed } ∧
          planned (y.evaluate e q) q = some (.requested, some h.slot, some leg) ∧ (y.evaluate e q).points = y.points ∧
          (y.evaluate e q).waiting = insertWaiting e.now
            { point := q, target := leg, claim := .deadline t.deadline h.slot } y.waiting) ∧
        (y.waiting = [] → y.slotsInUse < e.ladder.consts.slots → y.control.freezeFlag = false → cfg.dApp ≤ 30000 →
          (y.evaluate e q).startedAt h.slot = some { x with speed := some t.allowed } ∧
          planned (y.evaluate e q) q = some (.set, some h.slot, some leg) ∧ (y.evaluate e q).waiting = [] ∧
          (y.evaluate e q).pointOf q =
            some { pt with state := .moving leg m (e.now + BitVec.ofNat 32 (10 * cfg.tThrow)) .deadline })) := by
  have hm : pt.state.lie = some m := by rw [hst]; rfl
  have hev := evaluate_tested hj hr (.inr hw) hc hx hm hne (available_of_proved hst hb) hclear ht
  have hplan := planOf_testedYard q h leg r.state t c x y
  have hnone : (y.waitingOf q).isSome = false := by rw [hw]; rfl
  cases hp : t.pass with
  | false =>
    rw [hp, if_neg Bool.false_ne_true, divertAtHead_of_absent (y := testedYard q h leg r.state t c x y) hw] at hev
    obtain ⟨hpoints, hwaiting, -⟩ := divertEarly_fields (e := e) .late h.slot q (testedYard q h leg r.state t c x y)
    rw [hev]
    refine ⟨?_, fun _ f hf => ?_, fun h => by cases h⟩
    · rw [lastTest_divertEarly, lastTest, hplan]
      rfl
    · have hlie : (testedYard q h leg r.state t c x y).pointLie q = some m := (pointLie_of_pointOf (y := y) hj.point).trans hm
      obtain ⟨hstarted, hraised, hplanned, haxles⟩ := divertEarly_at_head (e := e) (cause := .late)
        (cutAt_testedYard q h leg r.state t c x y) hl rfl hlie hf hplan
      exact ⟨hstarted, hraised, hplanned, haxles, hpoints, hwaiting⟩
  | true =>
    rw [hp, if_pos rfl, hnone, if_neg Bool.false_ne_true] at hev
    have hplan' := planOf_testedYard q h leg .requested t c x y
    have hplaced := placed_yard (e := e) (w := { point := q, target := leg, claim := .deadline t.deadline h.slot })
      (y := testedYard q h leg .requested t c x y) hw rfl
    refine ⟨?_, fun h => (by cases h), fun _ => ⟨fun hclosed => ?_, fun hnil hslots hfreeze hd => ?_⟩⟩
    · rw [hev, hplaced, lastTest_arbitrate]
      exact congrArg (Option.map fun a => a.test) hplan'
    · generalize hT : testedYard q h leg .requested t c x y = T at hev hplaced hplan'
      have hTcut := hT ▸ cutAt_testedYard q h leg .requested t c x y
      have hTpoints : T.points = y.points := by rw [← hT]; rfl
      have hTwaiting : T.waiting = y.waiting := by rw [← hT]; rfl
      have hshut : e.ladder.consts.slots ≤ T.slotsInUse ∨ T.control.freezeFlag = true := by rw [← hT]; exact hclosed
      rw [hplaced] at hev
      rw [hev, arbitrate_of_shut (by exact hshut)]
      exact ⟨startedAt_of_cutAt (y := { T with waiting := _ }) hTcut, planned_of_planOf (y := { T with waiting := _ }) hplan', hTpoints, by rw [← hTwaiting]⟩
    · have hlate : laterThan e.now t.deadline = false := by
        rw [← ht] at hp ⊢
        exact not_late_of_pass hd hp
      obtain ⟨z, hz, hall⟩ := granted_at_once (t := t) (c := c) (x := x) (h := h) (leg := leg) (y := y) hj.point hm hb hclear hj.config hnil
        hslots hfreeze hlate
      rw [hev, hz]
      exact hall

/-- Case 6 again, with the entry of the head cut in the list (R149). -/
theorem evaluate_retested (hj : Judges e y q h pt cfg leg) (hr : y.planOf q = some r) (hhead : r.head = some h.slot) {w : Waiting}
    (hw : y.waitingOf q = some w) (hc : y.cutAt h.slot = some c) (hl : c.onLadder = true) (hx : c.started = some x)
    (hst : pt.state = .proved m) (hne : m ≠ leg) (hb : pt.barred = false) (hclear : y.sectionState (.point q) = some .clear) {t : Test}
    (ht : throwTest e.ladder.consts cfg h e.now = t) :
    (t.pass = true → y.evaluate e q = testedYard q h leg .requested t c x y) ∧
      (t.pass = false → ∀ d f, w.claim = .deadline d h.slot → e.ladder.fallback q m = some f →
        y.waiting.filter (fun b => b.point ≠ q) = [] ∨ e.ladder.consts.slots ≤ y.slotsInUse ∨ y.control.freezeFlag = true →
        (y.evaluate e q).startedAt h.slot = some (divertedTo e.ladder { x with speed := some t.allowed } q f .late) ∧
          Raised (y.evaluate e q) (.cut h.slot) 4 ∧ planned (y.evaluate e q) q = some (.diverted, some h.slot, some m) ∧
          AxlesMoved y (y.evaluate e q) x.resolved f c.axles ∧ (y.evaluate e q).points = y.points ∧
          (y.evaluate e q).waiting = y.waiting.filter (fun b => b.point ≠ q)) := by
  have hm : pt.state.lie = some m := by rw [hst]; rfl
  have hev := evaluate_tested hj hr (.inl hhead) hc hx hm hne (available_of_proved hst hb) hclear ht
  have hsome : (y.waitingOf q).isSome = true := by rw [hw]; rfl
  refine ⟨fun hp => ?_, fun hp d f hclaim hf hidle => ?_⟩
  · rw [hev, if_pos hp, if_pos hsome]
  · generalize hT : testedYard q h leg r.state t c x y = T at hev
    have hTwaiting : T.waiting = y.waiting := by rw [← hT]; rfl
    have hremoved : (T.removeWaiting q).waiting = y.waiting.filter (fun b => b.point ≠ q) := by rw [removeWaiting_eq, hTwaiting]
    have hidle' : (T.removeWaiting q).arbitrate e = T.removeWaiting q := by
      obtain hnil | hclosed := hidle
      · exact Yard.arbitrate_nil (hremoved.trans hnil)
      · rw [← hT]
        exact arbitrate_of_shut hclosed
    rw [hp, if_neg Bool.false_ne_true, Yard.divertAtHead, withdrawFor_of_deadline (y := T) (by rw [← hT]; exact hw) hclaim, hidle'] at hev
    have hTcut := hT ▸ cutAt_testedYard q h leg r.state t c x y
    have hTplan := hT ▸ planOf_testedYard q h leg r.state t c x y
    have hlie : (T.removeWaiting q).pointLie q = some m := by
      rw [← hT]
      exact (pointLie_of_pointOf (y := y) hj.point).trans hm
    have hlate := divertEarly_at_head (e := e) (cause := .late) (y := T.removeWaiting q) hTcut hl rfl hlie hf hTplan
    obtain ⟨hpoints, hwaiting, -⟩ := divertEarly_fields (e := e) .late h.slot q (T.removeWaiting q)
    have htracks : y.tracks = (T.removeWaiting q).tracks := by rw [← hT]; rfl
    obtain ⟨hstarted, hraised, hplanned, haxles⟩ := hlate
    rw [hev]
    exact ⟨hstarted, hraised, hplanned, axlesMoved_of_tracks haxles htracks rfl, hpoints.trans (by rw [← hT]; rfl),
      hwaiting.trans hremoved⟩

end Cases

theorem evaluationCases : EvaluationCases := by
  intro e y z q r hr hz
  subst hz
  refine ⟨planOf_evaluate_of_empty (by rw [hr]; rfl), fun j w d v a hj hne hw hclaim hv ha => ?_,
    fun h rest pt cfg c x leg kept hq hpt hcfg hc hl hx hleg hkept => ?_⟩
  · rw [← removeWaiting_eq] at hv
    rw [hv] at ha ⊢
    exact evaluate_of_withdrawn hr hj hne hw hclaim ha
  · have hneeds : (y.startedAt h.slot).bind (fun x => x.legAt q) = some leg := by
      rw [startedAt_of_cutAt hc, hx]
      exact hleg
    have hj : Judges e y q h pt cfg leg := judges_of_cons hq hpt hcfg hneeds
    have hkept' : kept = keptTest r (some h.slot) := hkept
    have hlieof : ∀ m, pt.state.lie = some m → (putPlan q (judgedPlan r h leg) y).pointLie q = some m :=
      fun m hm => (pointLie_of_pointOf (y := y) hpt).trans hm
    refine ⟨fun hkeep hs => evaluate_serves hj hr hkeep hc hx hs, fun hkeep hs hl => ?_, fun m hm hne hw => ⟨fun hu f hf => ?_, ?_⟩,
      fun m w hst hne hb hhead hw => ?_⟩
    · rw [hkept']
      exact evaluate_unjudged hj hr hkeep hs hl
    · have hunavailable : pt.unavailable = true := (unavailable_iff pt).mpr <| hu.imp_right fun ⟨a, ha⟩ => ⟨m, a, ha⟩
      obtain ⟨hstarted, hraised, hplanned, haxles⟩ := divertEarly_at_head (e := e) (cause := .pointUnavailable)
        (y := putPlan q (judgedPlan r h leg) y) hc hl hx (hlieof m hm) hf (planOf_putPlan _ _ _)
      obtain ⟨hpoints, hwaiting, hqueues⟩ := divertEarly_fields (e := e) .pointUnavailable h.slot q (putPlan q (judgedPlan r h leg) y)
      rw [evaluate_unavailable hj hr hw hm hne hunavailable]
      exact ⟨hstarted, hraised, hplanned, axlesMoved_of_tracks haxles rfl rfl, hqueues, hpoints, hwaiting⟩
    · intro hb hst
      refine ⟨fun hclear => ?_, fun hclear t ht => evaluate_against hj hr hw hc hl hx hst hne hb hclear ht⟩
      rw [hkept']
      exact evaluate_not_clear hj hr (.inr hw) hm hne (available_of_proved hst hb) hclear
    · refine ⟨fun hclear => ?_, fun hclear t ht => ?_⟩
      · have hkeptall : keptTest r (some h.slot) = r.test := if_pos hhead
        rw [← hkeptall]
        exact evaluate_not_clear hj hr (.inl hhead) (by rw [hst]; rfl) hne (available_of_proved hst hb) hclear
      · exact evaluate_retested hj hr hhead hw hc hl hx hst hne hb hclear ht

/-! ## The entry check (R152, R153) -/

theorem entryCheck_eq {pt : Point} {leg : Leg} {i : SlotIx} (caughtUp : Bool) (hpt : y.pointOf q = some pt)
    (hleg : (y.startedAt i).bind (fun x => x.legAt q) = some leg) :
    y.entryCheck e q i caughtUp =
      match pt.state.lie with
      | some m =>
        if m = leg then y
        else (y.withdrawFor e q i).divertInto e i q m (entryCause caughtUp pt.unavailable y.control.freezeFlag)
      | none => y.markHazard i := by
  rw [Yard.entryCheck, hpt, hleg] <;> rfl

theorem divertInto_fields (m : Leg) (cause : DiversionCause) (i : SlotIx) (q : PointIx) (y : Yard) :
    (y.divertInto e i q m cause).points = y.points ∧ (y.divertInto e i q m cause).plans = y.plans ∧
      (y.divertInto e i q m cause).queues = y.queues :=
  ⟨(sameDrives_divertInto i q m cause y).points, planOf_divertInto m cause y,
    queues_of_standing (Yard.standing_divertInto e i q m cause y)⟩

theorem entryCheck : EntryCheck := by
  intro e y z q i caughtUp pt c x leg hpt hc hl hx hleg hz
  have hneeds : (y.startedAt i).bind (fun x => x.legAt q) = some leg := by
    rw [startedAt_of_cutAt hc, hx]
    exact hleg
  rw [entryCheck_eq caughtUp hpt hneeds] at hz
  refine ⟨fun hm => ?_, fun m f cause hm hne hw hf hcaught hunavailable hlate => ?_, fun hnone => ?_⟩
  · rw [hm] at hz
    dsimp only at hz
    rw [if_pos rfl] at hz
    exact hz.symm
  · rw [hm] at hz
    dsimp only at hz
    rw [if_neg hne, withdrawFor_of_absent hw] at hz
    have hcause : entryCause caughtUp pt.unavailable y.control.freezeFlag = cause := by
      unfold entryCause
      cases hcu : caughtUp with
      | true => exact (hcaught hcu).symm
      | false =>
        cases hu : pt.unavailable with
        | true =>
          refine (hunavailable hcu ?_).symm
          exact ((unavailable_iff pt).mp hu).imp_right fun ⟨l, a, ha⟩ => ⟨a, by
            rw [ha] at hm
            cases hm
            exact ha⟩
        | false =>
          have hnot := (unavailable_iff pt).not.mp (by rw [hu]; exact Bool.false_ne_true)
          rw [not_or] at hnot
          have hproved : pt.state = .proved m := by
            cases hst : pt.state with
            | proved l =>
              rw [hst] at hm
              cases hm
              rfl
            | faulty l a => exact absurd ⟨l, a, hst⟩ hnot.2
            | moving | returning | lost =>
              rw [hst] at hm
              cases hm
          exact (hlate hcu (by simpa using hnot.1) hproved).symm
    rw [hcause] at hz
    subst hz
    have hdiverted := divertInto_diverted (e := e) (cause := cause) hc hl hx hf
    obtain ⟨hpoints, hplans, hqueues⟩ := divertInto_fields (e := e) m cause i q y
    exact ⟨hdiverted.started, hdiverted.raised, hdiverted.axles, hpoints, hplans, hqueues⟩
  · rw [hnone] at hz
    dsimp only at hz
    rw [Yard.markHazard, startedAt_of_cutAt hc, hx] at hz
    dsimp only at hz
    cases hhaz : x.hazard with
    | true =>
      rw [hhaz, if_pos rfl] at hz
      subst hz
      refine ⟨?_, fun h => (by cases h), fun _ => rfl, rfl, rfl, rfl⟩
      rw [startedAt_of_cutAt hc, hx, ← hhaz]
    | false =>
      rw [hhaz, if_neg Bool.false_ne_true] at hz
      subst hz
      refine ⟨?_, fun _ => raised_raiseCut i .hazard _, fun h => (by cases h), by simp, by simp, by simp⟩
      have hcut := cutAt_modifyStarted_self (fun z => { z with hazard := true }) hc hx
      exact startedAt_of_cutAt (y := (y.modifyStarted i fun z => { z with hazard := true }).raiseCut i .hazard) hcut

/-- Settles O40: the test is that of R143 to R145, and each case of an evaluation and of the entry check is met by its lemma. -/
theorem throwTestComputesMargin : Obligations.ThrowTestComputesMargin := by
  refine ⟨evaluationCases, entryCheck, fun k c q now hi => ?_⟩
  obtain ⟨hlo, hhi, habove, hbelow⟩ := approachSpeed_bounds (spacing := k.spacing) hi
  obtain ⟨hv, hv'⟩ := ceilDiv_bounds (approachSpeed k.spacing q.interval * (100 + c.grade)) (b := 100) (by decide)
  obtain ⟨hd, hd'⟩ := ceilDiv_bounds (elapsedTicks q.instant now q.longAgo) (b := 10) (by decide)
  have hallowed : 0 < allowedSpeed (approachSpeed k.spacing q.interval) c.grade := by
    have hmul : 100 * 100 ≤ approachSpeed k.spacing q.interval * (100 + c.grade) := Nat.mul_le_mul hlo (Nat.le_add_right _ _)
    unfold allowedSpeed
    omega
  refine ⟨_, _, _, elapsedTicks q.instant now q.longAgo, _, _, rfl, hlo, hhi, habove, hbelow, hv, by unfold allowedSpeed; omega,
    Nat.div_mul_le_self _ _, ?_, rfl, rfl, by rw [Nat.mul_comm]; exact hd, by rw [Nat.mul_comm]; exact hd', fun hc hk hl hage => ?_⟩
  · have hdiv := Nat.lt_mul_div_succ (c.dApp * 10000) hallowed
    rw [Nat.mul_comm (allowedSpeed _ _)] at hdiv
    exact hdiv
  · obtain ⟨-, hdapp, -, hthrow, -⟩ := hc
    obtain ⟨-, -, hguard, -⟩ := hk
    exact pass_iff_not_late hdapp hthrow hguard hl hage

end Sys2Proof.Proofs
end


section
/-! SUPPORT. What the arbiter and the planner leave of one point: a point in motion, a point without an entry, a point that is
LOST or not available (R128, R132, R148, R149); and the loss of a point. -/

namespace Sys2Proof.Proofs

open Sys2Proof Sys2Proof.Machine Sys2Proof.Spec

variable {e : Env} {y z : Yard} {i : SlotIx} {p q : PointIx}

/-! ## Changes of planning records alone -/

/-- The yards differ in planning records alone. -/
def OnlyPlans (y z : Yard) : Prop := ∃ t, z = { y with plans := t }

theorem OnlyPlans.modifyPlan (h : OnlyPlans y z) (q : PointIx) (f : Plan → Plan) : OnlyPlans y (z.modifyPlan q f) := by
  obtain ⟨t, rfl⟩ := h
  unfold Yard.modifyPlan
  split
  · exact ⟨_, rfl⟩
  · exact ⟨t, rfl⟩

theorem renewHead_of_absent (h : Absent q y) : OnlyPlans y (y.renewHead e q) := by
  cases hr : y.planOf q with
  | none => exact ⟨y.plans, by rw [Yard.renewHead, hr]⟩
  | some r => exact ⟨_, renewHead_eq hr (.inr (waitingOf_of_absent h))⟩

/-- Where nothing needs to be withdrawn, an evaluation changes the planning record, and goes on to judge the head of the queue
where there is one with a point, a configuration and a leg. -/
theorem evaluate_cases_of_absent (e : Env) (h : Absent q y) : OnlyPlans y (y.evaluate e q) ∨
    ∃ z en pt cfg leg, OnlyPlans y z ∧ y.pointOf q = some pt ∧ e.ladder.config q = some cfg ∧ (y.queueOf q).head? = some en ∧
      y.evaluate e q = z.judgeHead e q cfg pt en leg := by
  obtain ⟨t, ht⟩ := renewHead_of_absent (e := e) h
  unfold Yard.evaluate
  dsimp only
  rw [ht]
  have honly : OnlyPlans y { y with plans := t } := ⟨t, rfl⟩
  split
  · exact .inl (honly.modifyPlan q _)
  next en hen =>
    split
    next pt cfg leg hpt hcfg hleg => exact .inr ⟨_, en, pt, cfg, leg, honly.modifyPlan q _, hpt, hcfg, hen, rfl⟩
    · exact .inl honly

/-- The evaluation of a LOST point changes its planning record alone (R148 case 3). -/
theorem evaluate_of_lost {x : Point} (h : Absent q y) (hx : y.pointOf q = some x) (hl : x.state.isLost = true) :
    OnlyPlans y (y.evaluate e q) := by
  obtain hsame | ⟨z, en, pt, cfg, leg, hz, hpt, -, -, hev⟩ := evaluate_cases_of_absent e h
  · exact hsame
  · rw [hx, Option.some.injEq] at hpt
    subst hpt
    rw [hev]
    cases hst : x.state with
    | lost c =>
      rw [judgeHead_unjudged (by rw [← liesFor_serves, hst]; exact Lie.noConfusion) (by rw [hst]; rfl)]
      exact hz.modifyPlan q _
    | proved | moving | returning | faulty =>
      rw [hst] at hl
      cases hl

/-- The evaluation of a point at rest that is barred or FAULTY, and has no entry, moves no point (R149 case 4). -/
theorem evaluate_of_unavailable {x : Point} (h : Absent q y) (hx : y.pointOf q = some x) (hu : x.unavailable = true) :
    SameDrives y (y.evaluate e q) := by
  obtain ⟨t, ht⟩ | ⟨z, en, pt, cfg, leg, ⟨t, ht⟩, hpt, -, -, hev⟩ := evaluate_cases_of_absent e h
  · rw [ht]
    exact ⟨rfl, rfl, rfl, rfl⟩
  · rw [hx, Option.some.injEq] at hpt
    subst hpt
    have hnone : z.waitingOf q = none := by
      rw [ht]
      exact waitingOf_of_absent h
    have hbefore : SameDrives y z := by
      rw [ht]
      exact ⟨rfl, rfl, rfl, rfl⟩
    rw [hev, Yard.judgeHead]
    refine SameDrives.trans hbefore ?_
    split
    · rw [withdrawDeadline_of_absent hnone]
      exact sameDrives_modifyPlan _ _ _
    · exact sameDrives_modifyPlan _ _ _
    · rw [if_pos hu, Yard.divertAtHead, withdrawFor_of_absent hnone]
      exact sameDrives_divertEarly _ _ _ _

theorem evaluate_of_unavailable_empty (hq : y.queueOf q = []) (h : Absent q y) : OnlyPlans y (y.evaluate e q) :=
  evaluate_of_empty hq (waitingOf_of_absent h)

/-- With an empty queue a point keeps its record in its evaluation: at most its entry is withdrawn. -/
theorem pointOf_evaluate_of_empty (hq : y.queueOf q = []) : (y.evaluate e q).pointOf q = y.pointOf q := by
  have hwithdraw : ∀ i, (y.withdrawFor e q i).pointOf q = y.pointOf q := fun i => by
    unfold Yard.withdrawFor
    repeat' split
    · exact pointOf_dropWaiting q y
    all_goals rfl
  have hrenew : (y.renewHead e q).pointOf q = y.pointOf q := by
    unfold Yard.renewHead
    repeat' split
    · rfl
    · dsimp only
      rw [Yard.pointOf_congr (Yard.modifyPlan_points _ _ _)]
      exact hwithdraw _
    · dsimp only
      rw [Yard.pointOf_congr (Yard.modifyPlan_points _ _ _)]
    · rfl
  unfold Yard.evaluate
  dsimp only
  rw [queueOf_congr (queues_renewHead q y), hq]
  dsimp only [List.head?_nil]
  rw [Yard.pointOf_congr (Yard.modifyPlan_points _ _ _), hrenew]

/-! ## Points in motion, drive lines, bars -/

/-- The arbiter and the planner leave a point in motion, and its drive lines, alone. -/
theorem planClosed_moving_kept (e : Env) (p : PointIx) (x : Point) (b : Leg → Bool) (hx : x.state.inMotion = true) :
    PlanClosed e (fun y => y.pointOf p = some x ∧ ∀ l, Table.look y.drive (driveLine p l) = b l) := by
  have keep : ∀ {y z : Yard}, SameDrives y z → (y.pointOf p = some x ∧ ∀ l, Table.look y.drive (driveLine p l) = b l) →
      z.pointOf p = some x ∧ ∀ l, Table.look z.drive (driveLine p l) = b l := fun h ⟨hp, hd⟩ =>
    ⟨(Yard.pointOf_congr h.points p).trans hp, fun l => by rw [h.drive]; exact hd l⟩
  exact {
    plan := fun y q f hy => keep (sameDrives_modifyPlan q f y) hy
    speed := fun y i n hy => keep (sameDrives_modifyStarted i _ y) hy
    remove := fun _ _ hy => hy
    pop := fun _ _ _ hy _ => hy
    place := fun y w hy => by unfold Yard.placeWaiting; split <;> exact hy
    divert := fun y i q l c hy => keep (sameDrives_divertInto i q l c y) hy
    cancelled := fun _ _ hy => hy
    grant := fun y w ⟨hp, hd⟩ _ _ hel => by
      obtain ⟨origin, hl⟩ := lie_of_eligible hel
      have hne : w.point ≠ p := fun heq => by
        have hrest := notMoving_of_lie hl
        rw [heq, Yard.pointInMotion, hp, Option.map_some, hx] at hrest
        cases hrest
      exact ⟨(pointOf_grant_of_ne hne).trans hp, fun l => by rw [drive_grant hl, if_neg hne]; exact hd l⟩ }

/-- The arbiter leaves the drive lines of a point without an entry alone. -/
theorem drive_arbitrate_of_absent (h : Absent p y) (l : Leg) :
    Table.look (y.arbitrate e).drive (driveLine p l) = Table.look y.drive (driveLine p l) := by
  have hkeeps : Absent p (y.arbitrate e) ∧ Table.look (y.arbitrate e).drive (driveLine p l) = Table.look y.drive (driveLine p l) := by
    refine arbiter_keeps (P := fun z => Absent p z ∧ Table.look z.drive (driveLine p l) = Table.look y.drive (driveLine p l)) _
      (fun z w rest ⟨habs, hd⟩ hw => ?_) (fun z w rest ⟨habs, hd⟩ hw => ?_) ⟨h, rfl⟩
    all_goals obtain ⟨hne, hrest⟩ := habs.tail hw
    · refine ⟨hrest.of_waiting (waiting_expireEntry _ _ _), ?_⟩
      rw [(sameDrives_expireEntry (e := e) w .late _).drive]
      exact hd
    · refine ⟨hrest.of_waiting (waiting_grant w _), ?_⟩
      cases hl : Yard.pointLie { z with waiting := rest } w.point with
      | none =>
        rw [Yard.grant, hl]
        exact hd
      | some origin =>
        rw [drive_grant hl, if_neg hne]
        exact hd
  exact hkeeps.2

/-- The arbiter and the planner set no bar. -/
theorem planClosed_bar (e : Env) (p : PointIx) (o : Option Bool) :
    PlanClosed e (fun y => (y.pointOf p).map (fun x => x.barred) = o) := by
  have keep : ∀ {y z : Yard}, SameDrives y z → (y.pointOf p).map (fun x => x.barred) = o →
      (z.pointOf p).map (fun x => x.barred) = o := fun h hy => by rwa [Yard.pointOf_congr h.points p]
  exact {
    plan := fun y q f hy => keep (sameDrives_modifyPlan q f y) hy
    speed := fun y i n hy => keep (sameDrives_modifyStarted i _ y) hy
    remove := fun _ _ hy => hy
    pop := fun _ _ _ hy _ => hy
    place := fun y w hy => by unfold Yard.placeWaiting; split <;> exact hy
    divert := fun y i q l c hy => keep (sameDrives_divertInto i q l c y) hy
    cancelled := fun _ _ hy => hy
    grant := fun y w hy _ _ hel => by
      by_cases heq : w.point = p
      · subst heq
        obtain ⟨origin, hl⟩ := lie_of_eligible hel
        cases hx : y.pointOf w.point with
        | none =>
          rw [Yard.pointLie, hx] at hl
          cases hl
        | some x =>
          rw [pointOf_grant hx ((pointLie_of_pointOf hx).symm.trans hl)]
          rw [hx] at hy
          exact hy
      · rwa [pointOf_grant_of_ne heq] }

/-! ## The loss of a point (R128) -/

theorem not_motion_of_lie {st : PointState} {m : Leg} (h : st.lie = some m) : st.inMotion = false ∧ st.isLost = false := by
  cases st <;> simp_all [PointState.lie, PointState.inMotion, PointState.isLost]

theorem absent_cancelManual {w : Waiting} (hw : y.waitingOf p = some w) (hc : w.claim = .manual) : Absent p (y.cancelManual e p) := by
  rw [Yard.cancelManual, claimOf_of_waiting hw, hc]
  exact (arbitrate_of_absent ((absent_removeWaiting p y).of_waiting (z := (y.removeWaiting p).raisePoint p .manualCancelled) rfl)).1

/-- A point that is being lost has no entry left (R128 step 2). -/
theorem absent_dropLost (p : PointIx) (y : Yard) : Absent p (y.dropLost e p) := by
  cases hw : y.waitingOf p with
  | none =>
    rw [Yard.dropLost, claimOf_of_absent hw]
    exact absent_of_waitingOf hw
  | some w =>
    rw [Yard.dropLost, claimOf_of_waiting hw]
    cases hc : w.claim with
    | manual => exact absent_cancelManual hw hc
    | deadline d i =>
      dsimp only
      rw [dropWaiting_of_present hw]
      exact (arbitrate_of_absent (absent_removeWaiting p y)).1

/-- The yard with a point LOST and reported, before its evaluation. -/
def reportedLost (e : Env) (p : PointIx) (c : FaultCause) (a : Yard) : Yard :=
  (((a.dropLost e p).setPointState p (.lost c)).raisePoint p .lost).reportLost

theorem losePoint_eq {x : Point} {c : FaultCause} (hx : y.pointOf p = some x) (hl : x.state.isLost = false) :
    y.losePoint e p c = (reportedLost e p c (if x.state.inMotion then y.freeDrive e p else y)).evaluate e p := by
  rw [Yard.losePoint, hx]
  dsimp only
  rw [hl]
  rfl

theorem pointOf_setPointState {x : Point} (hx : y.pointOf p = some x) (st : PointState) :
    (y.setPointState p st).pointOf p = some { x with state := st } := by
  rw [Yard.setPointState, Yard.pointOf_modifyPoint, if_pos rfl, hx]
  rfl

/-- What is known of a point just lost, before and after its evaluation. -/
theorem reportedLost_spec {x : Point} {a : Yard} (c : FaultCause) (hx : a.pointOf p = some x) :
    (reportedLost e p c a).pointOf p = some { x with state := .lost c } ∧ Absent p (reportedLost e p c a) ∧
      Raised (reportedLost e p c a) (.point p) 1 := by
  refine ⟨?_, ?_, Raised.reportLost (raised_raisePoint p .lost _)⟩
  · rw [reportedLost, Yard.pointOf_congr (Yard.reportLost_points _), Yard.pointOf_congr (Yard.raisePoint_points _ _ _)]
    exact pointOf_setPointState ((pointOf_dropLost p a).trans hx) _
  · exact (absent_dropLost (e := e) p a).of_waiting (by simp [reportedLost])

theorem pointOf_freeDrive {x : Point} (hx : y.pointOf p = some x) (hm : x.state.inMotion = true) :
    (y.freeDrive e p).pointOf p = some x ∧ ∀ l, Table.look (y.freeDrive e p).drive (driveLine p l) = false := by
  refine (planClosed_moving_kept e p x (fun _ => false) hm).arbitrate ⟨hx, fun l => ?_⟩
  change Table.look (y.releaseDrive p).drive (driveLine p l) = false
  rw [Yard.look_releaseDrive, if_pos rfl]

/-- A point that was not LOST becomes so: its record, its entry, its notice, and the planning records alone changed after. -/
theorem losePoint_spec {x : Point} (c : FaultCause) (hx : y.pointOf p = some x) (hl : x.state.isLost = false) :
    ∃ a, a = (if x.state.inMotion then y.freeDrive e p else y) ∧ OnlyPlans (reportedLost e p c a) (y.losePoint e p c) ∧
      (y.losePoint e p c).pointOf p = some { x with state := .lost c } ∧ Absent p (y.losePoint e p c) ∧
      Raised (y.losePoint e p c) (.point p) 1 := by
  have ha : (if x.state.inMotion then y.freeDrive e p else y).pointOf p = some x := by
    split
    next hm => exact (pointOf_freeDrive hx hm).1
    · exact hx
  obtain ⟨hpoint, habsent, hraised⟩ := reportedLost_spec (e := e) c ha
  obtain ⟨t, ht⟩ := evaluate_of_lost (e := e) habsent hpoint rfl
  rw [losePoint_eq hx hl, ht]
  exact ⟨_, rfl, ⟨t, rfl⟩, hpoint, habsent, hraised⟩

theorem standing_reportedLost (p : PointIx) (c : FaultCause) (a : Yard) :
    ∃ b : Yard, b.standing = a.standing ∧ reportedLost e p c a = b.reportLost :=
  ⟨_, by simp, rfl⟩

/-- The control and the tracker's part of a yard that has lost a point (R128, R163, R169). -/
theorem losePoint_standing {x : Point} (c : FaultCause) (hx : y.pointOf p = some x) (hl : x.state.isLost = false) :
    (y.losePoint e p c).lead = y.lead ∧ (y.losePoint e p c).sections = y.sections ∧ (y.losePoint e p c).queues = y.queues ∧
      (y.losePoint e p c).crest = y.crest ∧ ∃ b : Yard, b.control = y.control ∧ (y.losePoint e p c).control = b.reportLost.control ∧
        (∀ k n, Raised b.reportLost k n → Raised (y.losePoint e p c) k n) := by
  have ha : (if x.state.inMotion then y.freeDrive e p else y).standing = y.standing := by split <;> simp
  obtain ⟨b, hb, heq⟩ := standing_reportedLost (e := e) p c (if x.state.inMotion then y.freeDrive e p else y)
  rw [ha] at hb
  obtain ⟨hlead, hsections, hqueues, -, hcrest, -, -, hcontrol⟩ := Yard.standing_ext hb
  have hstanding : (y.losePoint e p c).standing = b.reportLost.standing := by
    rw [losePoint_eq hx hl, Yard.standing_evaluate, heq]
  obtain ⟨hlead', hsections', hqueues', -, hcrest', -, -, hcontrol'⟩ := Yard.standing_ext hstanding
  refine ⟨hlead'.trans (by simpa using hlead), hsections'.trans (by simpa using hsections), hqueues'.trans (by simpa using hqueues),
    hcrest'.trans (by simpa using hcrest), b, hcontrol, hcontrol', fun k n hr => ?_⟩
  rw [losePoint_eq hx hl, heq]
  exact (planClosed_raised e k n).evaluate p hr

theorem reportLost_control {b : Yard} : b.reportLost.control.lost = b.control.lost + 1 ∧
    (b.control.mode = .humping → b.control.lost = 0 → b.reportLost.control.mode = .halted ∧
      b.reportLost.control.halt = b.control.halt ||| reasonBit 4 ∧ Raised b.reportLost .device 1) ∧
    (b.control.mode ≠ .humping ∨ b.control.lost ≠ 0 → b.reportLost.control.mode = b.control.mode) := by
  unfold Yard.reportLost
  dsimp only
  split
  next h0 =>
    refine ⟨?_, fun hm _ => ?_, fun h => ?_⟩
    · unfold Yard.enterCause
      split <;> rfl
    · rw [enterCause_of_humping (y := b.modifyControl fun m => { m with lost := m.lost + 1 }) .lostPoint hm]
      exact ⟨rfl, rfl, raised_raiseDevice .halted b⟩
    · have hm : b.control.mode ≠ .humping := h.resolve_right fun hne => hne h0
      unfold Yard.enterCause
      split
      next hh => exact absurd hh hm
      all_goals rfl
  next h0 => exact ⟨rfl, fun _ h => absurd h h0, fun _ => rfl⟩

end Sys2Proof.Proofs
end


section
/-! PROOFS. The end of a return (R128, R136) and the detection changes of a point (R127, R135). -/

namespace Sys2Proof.Proofs

open Sys2Proof Sys2Proof.Machine Sys2Proof.Spec

variable {e : Env} {y z : Yard} {s : State} {i : SlotIx} {p q : PointIx} {x : Point}

/-- Settles O38: a failed return is the loss of a point in motion. -/
theorem failedReturnLosesPoint : Obligations.FailedReturnLosesPoint := by
  intro p s x origin expiry kind hx hst hexp
  have hstate : s.yard.pointStateOf p = some (.returning origin expiry kind) := by
    rw [Yard.pointStateOf, hx, Option.map_some, hst]
  have hmotion : x.state.inMotion = true := by rw [hst]; rfl
  have hnot : x.state.isLost = false := by rw [hst]; rfl
  have hreturn : s.yard.returnFailed s.env p = s.yard.losePoint s.env p .returnFailed := by
    rw [Yard.returnFailed, hstate]
    dsimp only
    rw [if_pos (show atOrAfter s.env.now _ = true from hexp)]
  have hexec : exec (.returnFailed p) s = .next (s.withYard (s.yard.returnFailed s.env p)) := rfl
  rw [hreturn] at hexec
  obtain ⟨a, ha, ⟨plans, hplans⟩, hpoint, habsent, hraised⟩ := losePoint_spec (e := s.env) .returnFailed hx hnot
  obtain ⟨hlead, hsections, hqueues, hcrest, b, hbcontrol, hcontrol, -⟩ := losePoint_standing (e := s.env) .returnFailed hx hnot
  obtain ⟨hlost, hhalted, -⟩ := reportLost_control (b := b)
  rw [hbcontrol, ← hcontrol] at hlost hhalted
  refine ⟨_, hexec, hpoint, fun l => ?_, waitingOf_of_absent habsent, hraised, hlost, fun ⟨hm, h0⟩ => ?_,
    hlead, hsections, hqueues, hcrest⟩
  · rw [if_pos hmotion] at ha
    have hfree := pointOf_freeDrive (e := s.env) hx hmotion
    rw [← ha] at hfree
    obtain ⟨-, hdrive⟩ := (planClosed_moving_kept s.env p x (fun _ => false) hmotion).dropLost p hfree
    change Table.look (s.yard.losePoint s.env p .returnFailed).drive _ = _
    rw [hplans]
    simpa [reportedLost] using hdrive l
  · obtain ⟨hmode, hhalt, -⟩ := hhalted hm h0
    exact ⟨hmode, hhalt⟩

/-! ## Detection changes (R127) -/

theorem proves_eq (n r : Bool) : proves n r = provedLeg n r := by cases n <;> cases r <;> rfl

/-- The levels as a detection change stores them. -/
def stored (p : PointIx) (n r : Bool) (y : Yard) : Yard := y.modifyPoint p (fun w => { w with detectN := n, detectR := r })

theorem stored_eq (hx : y.pointOf p = some x) (n r : Bool) :
    stored p n r y = { y with points := Table.put y.points p (some { x with detectN := n, detectR := r }) } := by
  rw [stored, Yard.modifyPoint, hx]

theorem pointOf_stored (hx : y.pointOf p = some x) (n r : Bool) :
    (stored p n r y).pointOf p = some { x with detectN := n, detectR := r } := by
  rw [stored, Yard.pointOf_modifyPoint, if_pos rfl, hx]
  rfl

theorem detectionChange_eq (hx : y.pointOf p = some x) (n r : Bool) :
    y.detectionChange e p n r = (stored p n r y).actOnDetection e p x.state (provedLeg n r) := by
  rw [Yard.detectionChange, hx]
  rfl

/-- A detection change of a point, executed. -/
theorem exec_detection {line : LineIx} {n r : Bool} (hdue : (Table.look s.lines line).due = true)
    (hrole : (Table.look s.lines line).role = .detectN p ∨ (Table.look s.lines line).role = .detectR p)
    (hn : n = roleLevel (takeDue s.lines (.point p)) (.detectN p)) (hr : r = roleLevel (takeDue s.lines (.point p)) (.detectR p)) :
    exec (.filteredTransition line) s =
      .next (({ s with lines := takeDue s.lines (.point p) }).withYard (s.yard.detectionChange s.env p n r)) := by
  have hconsumer : (Table.look s.lines line).role.consumer = .point p := by
    obtain h | h := hrole <;> rw [h] <;> rfl
  rw [exec_transition hdue, hconsumer, hn, hr]
  rfl

/-- A detection change that the state of the point does not act on (R127). -/
theorem levelsStored_of_idle {n r : Bool} (lines : Table 256 Line) (hx : s.yard.pointOf p = some x)
    (h : (stored p n r s.yard).actOnDetection s.env p x.state (provedLeg n r) = stored p n r s.yard) :
    LevelsStored s (({ s with lines := lines }).withYard (s.yard.detectionChange s.env p n r)) p x n r := by
  rw [detectionChange_eq hx, h, stored_eq hx]
  exact settledFrom_withYard { s with lines := lines } _

/-! ## A point at rest that loses its leg -/

/-- The cause of a point at rest that does not prove its leg any more. -/
def restCause (n r : Bool) : FaultCause := if proves n r = none then .detectionLost else .unexpectedMove

theorem actOnDetection_of_rest {n r : Bool} {m : Leg} (hl : x.state.lie = some m) (hne : proves n r ≠ some m) (a : Yard) :
    a.actOnDetection e p x.state (provedLeg n r) = a.losePoint e p (restCause n r) := by
  rw [proves_eq] at hne
  rw [restCause, proves_eq]
  cases hst : x.state <;> rw [hst] at hl <;> simp only [PointState.lie, reduceCtorEq, Option.some.injEq] at hl
  all_goals
    subst hl
    cases hp : provedLeg n r with
    | none => rfl
    | some k =>
      have hk : k ≠ _ := fun heq => hne (by rw [hp, heq])
      simp only [Yard.actOnDetection, if_neg hk, reduceCtorEq, if_false]

theorem dropLost_of_absent (h : y.waitingOf p = none) : y.dropLost e p = y := by
  rw [Yard.dropLost, claimOf_of_absent h]

theorem waitingOf_of_nil (h : y.waiting = []) (p : PointIx) : y.waitingOf p = none := by rw [Yard.waitingOf, h]; rfl

/-- A MANUAL entry of a point that is lost is reported as cancelled (R128, R134). -/
theorem losePoint_cancels {w : Waiting} (c : FaultCause) (hx : y.pointOf p = some x) (hl : x.state.isLost = false)
    (hm : x.state.inMotion = false) (hw : y.waitingOf p = some w) (hc : w.claim = .manual) :
    Raised (y.losePoint e p c) (.point p) 3 := by
  have hclosed := planClosed_raised e (.point p) 3
  rw [losePoint_eq hx hl, if_neg (by rw [hm]; exact Bool.noConfusion)]
  refine hclosed.evaluate p (Raised.reportLost ?_)
  have hdrop : Raised (y.dropLost e p) (.point p) 3 := by
    rw [Yard.dropLost, claimOf_of_waiting hw, hc]
    dsimp only
    rw [Yard.cancelManual, claimOf_of_waiting hw, hc]
    exact hclosed.arbitrate (raised_raisePoint p .manualCancelled _)
  have hset : Raised ((y.dropLost e p).setPointState p (.lost c)) (.point p) 3 := Raised.of_notices hdrop (by simp)
  exact Raised.raise hset (.point p) _

/-- What the loss of a point at rest leaves where nothing waits (R148 case 3). -/
theorem losePoint_unheard (c : FaultCause) (hx : y.pointOf p = some x) (hl : x.state.isLost = false)
    (hm : x.state.inMotion = false) (hw : y.waiting = []) :
    (y.losePoint e p c).drive = y.drive ∧ (y.losePoint e p c).slotsInUse = y.slotsInUse ∧
      ∀ a h rest leg, y.planOf p = some a → y.queueOf p = h :: rest → e.ladder.config p ≠ none →
        (y.startedAt h.slot).bind (fun k => k.legAt p) = some leg →
        planned (y.losePoint e p c) p = some (.waitingPoint, some h.slot, some leg) := by
  obtain ⟨hpoint, habsent, -⟩ := reportedLost_spec (e := e) c hx
  have hdrop : y.dropLost e p = y := dropLost_of_absent (waitingOf_of_nil hw p)
  have hbefore : reportedLost e p c y = ((y.setPointState p (.lost c)).raisePoint p .lost).reportLost := by rw [reportedLost, hdrop]
  rw [losePoint_eq hx hl, if_neg (by rw [hm]; exact Bool.noConfusion)]
  obtain ⟨plans, hplans⟩ := evaluate_of_lost (e := e) habsent hpoint rfl
  refine ⟨by rw [hplans, hbefore]; simp, by rw [hplans, hbefore]; simp, fun a h rest leg ha hq hcfg hleg => ?_⟩
  obtain ⟨cfg, hcfg⟩ := Option.ne_none_iff_exists'.mp hcfg
  have hqueues : (reportedLost e p c y).queueOf p = h :: rest := by
    rw [queueOf_congr (y := y) (by rw [hbefore]; simp), hq]
  have hslots : (reportedLost e p c y).slots = y.slots := by rw [hbefore]; simp
  have hcut : (reportedLost e p c y).startedAt h.slot = y.startedAt h.slot := by
    rw [Yard.startedAt, Yard.startedAt, Yard.cutAt_congr hslots]
  have hplan : (reportedLost e p c y).planOf p = some a := (planOf_congr (by rw [hbefore]; simp) p).trans ha
  rw [evaluate_unjudged (judges_of_cons hqueues hpoint hcfg (by rw [hcut]; exact hleg)) hplan (.inr (waitingOf_of_absent habsent))
    (by rw [← liesFor_serves]; exact Lie.noConfusion) rfl]
  exact planned_of_planOf (planOf_putPlan _ _ _)

theorem lostAtRest {n r : Bool} {m : Leg} (lines : Table 256 Line) (hx : s.yard.pointOf p = some x) (hl : x.state.lie = some m)
    (hne : proves n r ≠ some m) :
    LostAtRest s (({ s with lines := lines }).withYard (s.yard.detectionChange s.env p n r)) p x n r := by
  rw [detectionChange_eq hx, actOnDetection_of_rest hl hne]
  have hx' := pointOf_stored hx n r
  rw [stored_eq hx] at hx' ⊢
  obtain ⟨hmotion, hlost⟩ := not_motion_of_lie hl
  obtain ⟨-, -, -, hpoint, habsent, hraised⟩ := losePoint_spec (e := s.env) (restCause n r) hx' hlost
  obtain ⟨hlead, hsections, hqueues, hcrest, b, hbcontrol, hcontrol, hnotices⟩ :=
    losePoint_standing (e := s.env) (restCause n r) hx' hlost
  obtain ⟨hcount, hhalts, hstays⟩ := reportLost_control (b := b)
  rw [hbcontrol, ← hcontrol] at hcount hhalts hstays
  refine ⟨hpoint, hraised, waitingOf_of_absent habsent, fun w hw hc => ?_, hcount, fun hm h0 => ?_, fun h => hstays h, fun hw => ?_,
    hlead, hsections, hqueues, hcrest⟩
  · exact losePoint_cancels (restCause n r) hx' hlost hmotion hw hc
  · obtain ⟨hmode, hhalt, hdevice⟩ := hhalts hm h0
    exact ⟨hmode, hhalt, hnotices _ _ hdevice⟩
  · exact losePoint_unheard (e := s.env) (restCause n r) hx' hlost hmotion hw

/-! ## The end of a motion (R135, R136) -/

/-- The yard as a return or a throw ends, before the arbiter acts: the state of the point, its drive lines and its slot. -/
def ended (p : PointIx) (st : PointState) (y : Yard) : Yard := releaseSlot p (y.setPointState p st)

theorem pointOf_ended (hx : y.pointOf p = some x) (st : PointState) : (ended p st y).pointOf p = some { x with state := st } := by
  exact pointOf_setPointState hx st

theorem pointOf_ended_of_ne (h : p ≠ q) (st : PointState) (y : Yard) : (ended p st y).pointOf q = y.pointOf q := by
  change Yard.pointOf (Yard.setPointState p st y) q = _
  rw [Yard.setPointState, Yard.pointOf_modifyPoint, if_neg h]

theorem drive_ended (st : PointState) (l : Leg) (y : Yard) : Table.look (ended p st y).drive (driveLine p l) = false := by
  change Table.look (Yard.releaseDrive p _).drive _ = _
  rw [Yard.look_releaseDrive, if_pos rfl]

theorem ended_fields (p : PointIx) (st : PointState) (y : Yard) :
    (ended p st y).queues = y.queues ∧ (ended p st y).plans = y.plans ∧ (ended p st y).slots = y.slots ∧
      (ended p st y).tracks = y.tracks ∧ (ended p st y).waiting = y.waiting ∧ (ended p st y).slotsInUse = y.slotsInUse - 1 := by
  simp [ended, releaseSlot]

/-- The arbiter leaves the point whose motion has ended and its drive lines, where it has no entry. -/
theorem arbitrated_end (hx : y.pointOf p = some x) (habs : Absent p y) (st : PointState) :
    ((ended p st y).arbitrate e).pointOf p = some { x with state := st } ∧ Absent p ((ended p st y).arbitrate e) ∧
      ∀ l, Table.look ((ended p st y).arbitrate e).drive (driveLine p l) = false := by
  obtain ⟨-, -, -, -, hwaiting, -⟩ := ended_fields p st y
  have habsent : Absent p (ended p st y) := habs.of_waiting hwaiting
  exact ⟨(pointOf_arbitrate_of_absent habsent).trans (pointOf_ended hx st), (arbitrate_of_absent habsent).1,
    fun l => (drive_arbitrate_of_absent habsent l).trans (drive_ended st l y)⟩

/-! ## A return that reaches its origin (R136) -/

/-- The yard as a return has ended, before the point is evaluated. -/
def returned (e : Env) (p : PointIx) (m : Leg) (y : Yard) : Yard := ((ended p (.faulty m .throwFailed) y).arbitrate e).raisePoint p .faulty

theorem completeReturn_eq (m : Leg) (y : Yard) : y.completeReturn e p m = (returned e p m y).evaluate e p := rfl

theorem returned_spec (hx : y.pointOf p = some x) (habs : Absent p y) (m : Leg) :
    (returned e p m y).pointOf p = some { x with state := .faulty m .throwFailed } ∧ Absent p (returned e p m y) ∧
      ∀ l, Table.look (returned e p m y).drive (driveLine p l) = false := by
  obtain ⟨hpoint, habsent, hdrive⟩ := arbitrated_end (e := e) hx habs (.faulty m .throwFailed)
  refine ⟨?_, habsent.of_waiting (Yard.raisePoint_waiting _ _ _), fun l => ?_⟩
  · rw [returned, Yard.pointOf_congr (Yard.raisePoint_points _ _ _), hpoint]
  · rw [returned, Yard.raisePoint_drive, hdrive]

theorem returned_unheard (hw : y.waiting = []) (m : Leg) :
    returned e p m y = (ended p (.faulty m .throwFailed) y).raisePoint p .faulty := by
  obtain ⟨-, -, -, -, hwaiting, -⟩ := ended_fields p (.faulty m .throwFailed) y
  rw [returned, Yard.arbitrate_nil (hwaiting.trans hw)]

/-- The cut at the head of the queue of a point that is FAULTY in the other leg is diverted (R149 case 4). -/
theorem completeReturn_diverts {a : Plan} {h : QueueEntry} {rest : List QueueEntry} {c : Cut} {k : Started} {leg m : Leg} {f : TrackIx}
    (hx : y.pointOf p = some x) (hw : y.waiting = []) (ha : y.planOf p = some a) (hq : y.queueOf p = h :: rest)
    (hcfg : e.ladder.config p ≠ none) (hc : y.cutAt h.slot = some c) (hl : c.onLadder = true) (hk : c.started = some k)
    (hleg : k.legAt p = some leg) (hne : leg ≠ m) (hf : e.ladder.fallback p m = some f) :
    (y.completeReturn e p m).startedAt h.slot = some (divertedTo e.ladder k p f .pointUnavailable) ∧
      Raised (y.completeReturn e p m) (.cut h.slot) 4 ∧
      planned (y.completeReturn e p m) p = some (.diverted, some h.slot, some m) ∧
      AxlesMoved y (y.completeReturn e p m) k.resolved f c.axles := by
  obtain ⟨cfg, hcfg⟩ := Option.ne_none_iff_exists'.mp hcfg
  obtain ⟨hpoint, habsent, -⟩ := returned_spec (e := e) hx (absent_of_waitingOf (waitingOf_of_nil hw p)) m
  obtain ⟨hqueues, hplans, hslots, htracks, -, -⟩ := ended_fields p (.faulty m .throwFailed) y
  have hreturned := returned_unheard (e := e) (p := p) hw m
  have hcut : (returned e p m y).cutAt h.slot = some c :=
    (Yard.cutAt_congr (by rw [hreturned, Yard.raisePoint_slots, hslots]) _).trans hc
  have hplan : (returned e p m y).planOf p = some a :=
    (planOf_congr (by rw [hreturned, Yard.raisePoint_plans, hplans]) p).trans ha
  have hqueue : (returned e p m y).queueOf p = h :: rest :=
    (queueOf_congr (by rw [hreturned, Yard.raisePoint_queues, hqueues]) p).trans hq
  have hj : Judges e (returned e p m y) p h { x with state := .faulty m .throwFailed } cfg leg :=
    judges_of_cons hqueue hpoint hcfg (by rw [startedAt_of_cutAt hcut, hk]; exact hleg)
  rw [completeReturn_eq, evaluate_unavailable hj hplan (waitingOf_of_absent habsent) rfl hne.symm
    ((unavailable_iff _).mpr (.inr ⟨m, _, rfl⟩))]
  obtain ⟨hstarted, hraised, hdiverted, haxles⟩ := divertEarly_at_head (e := e) (cause := .pointUnavailable)
    (y := putPlan p (judgedPlan a h leg) (returned e p m y)) (q := p) (m := m) hcut hl hk (pointLie_of_pointOf hpoint) hf (planOf_putPlan _ _ _)
  refine ⟨hstarted, hraised, hdiverted, axlesMoved_of_tracks haxles ?_ rfl⟩
  change y.tracks = (returned e p m y).tracks
  rw [hreturned, Yard.raisePoint_tracks, htracks]

theorem completeReturn_spec (hx : y.pointOf p = some x) (habs : Absent p y) (m : Leg) :
    (y.completeReturn e p m).pointOf p = some { x with state := .faulty m .throwFailed } ∧
      (∀ l, Table.look (y.completeReturn e p m).drive (driveLine p l) = false) ∧ Raised (y.completeReturn e p m) (.point p) 2 ∧
      SameDrives (returned e p m y) (y.completeReturn e p m) := by
  obtain ⟨hpoint, habsent, hdrive⟩ := returned_spec (e := e) hx habs m
  have hsame := evaluate_of_unavailable (e := e) habsent hpoint ((unavailable_iff _).mpr (.inr ⟨m, _, rfl⟩))
  rw [completeReturn_eq]
  exact ⟨(Yard.pointOf_congr hsame.points p).trans hpoint, fun l => by rw [hsame.drive, hdrive],
    (planClosed_raised e (.point p) 2).evaluate p (raised_raisePoint p .faulty _), hsame⟩

theorem completeReturn_unheard (hx : y.pointOf p = some x) (hw : y.waiting = []) (m : Leg) :
    (y.completeReturn e p m).slotsInUse = y.slotsInUse - 1 ∧ (y.completeReturn e p m).waiting = [] ∧
      (∀ q, q ≠ p → (y.completeReturn e p m).pointOf q = y.pointOf q) ∧
      (y.queueOf p = [] → (y.completeReturn e p m).slots = y.slots) := by
  have habs : Absent p y := absent_of_waitingOf (waitingOf_of_nil hw p)
  obtain ⟨-, -, -, hsame⟩ := completeReturn_spec (e := e) hx habs m
  obtain ⟨-, habsent, -⟩ := returned_spec (e := e) hx habs m
  have hreturned := returned_unheard (e := e) (p := p) hw m
  obtain ⟨hqueues, -, hslots, -, hwaiting, hinuse⟩ := ended_fields p (.faulty m .throwFailed) y
  refine ⟨?_, ?_, fun q hq => ?_, fun hempty => ?_⟩
  · rw [hsame.slotsInUse, hreturned, Yard.raisePoint_slotsInUse, hinuse]
  · rw [hsame.waiting, hreturned, Yard.raisePoint_waiting, hwaiting, hw]
  · rw [Yard.pointOf_congr hsame.points, hreturned, Yard.pointOf_congr (Yard.raisePoint_points _ _ _), pointOf_ended_of_ne hq.symm]
  · have hqueue : (returned e p m y).queueOf p = [] :=
      (queueOf_congr (by rw [hreturned, Yard.raisePoint_queues, hqueues]) p).trans hempty
    obtain ⟨plans, hplans⟩ := evaluate_of_unavailable_empty (e := e) hqueue habsent
    rw [completeReturn_eq, hplans, hreturned]
    exact (Yard.raisePoint_slots p .faulty _).trans hslots

theorem returnCompleted {n r : Bool} {origin : Leg} {expiry : Instant} {kind : ThrowKind} (lines : Table 256 Line)
    (hx : s.yard.pointOf p = some x) (hst : x.state = .returning origin expiry kind) (hp : proves n r = some origin)
    (hw : s.yard.waitingOf p = none) :
    ReturnCompleted s (({ s with lines := lines }).withYard (s.yard.detectionChange s.env p n r)) p x origin n r := by
  have hact : ∀ a : Yard, a.actOnDetection s.env p x.state (provedLeg n r) = a.completeReturn s.env p origin := fun a => by
    rw [hst, ← proves_eq, hp]
    exact if_pos rfl
  rw [detectionChange_eq hx, hact]
  have hx' := pointOf_stored hx n r
  have hsame := stored_eq hx n r
  obtain ⟨hwaiting, hqueues, hslots, htracks, hplans⟩ : (stored p n r s.yard).waiting = s.yard.waiting ∧
      (stored p n r s.yard).queues = s.yard.queues ∧ (stored p n r s.yard).slots = s.yard.slots ∧
      (stored p n r s.yard).tracks = s.yard.tracks ∧ (stored p n r s.yard).plans = s.yard.plans := by
    rw [hsame]
    exact ⟨rfl, rfl, rfl, rfl, rfl⟩
  have hother : ∀ q, q ≠ p → (stored p n r s.yard).pointOf q = s.yard.pointOf q := fun q hq => by
    rw [stored, Yard.pointOf_modifyPoint, if_neg hq.symm]
  have hinuse : (stored p n r s.yard).slotsInUse = s.yard.slotsInUse := by rw [hsame]
  have hstanding : ((stored p n r s.yard).completeReturn s.env p origin).standing = s.yard.standing := by
    rw [Yard.standing_completeReturn, stored, Yard.standing_modifyPoint]
  generalize stored p n r s.yard = b at *
  obtain ⟨hlead, hsections, hqueues', -, hcrest, -, -, hcontrol⟩ := Yard.standing_ext hstanding
  have habs : Absent p b := (absent_of_waitingOf hw).of_waiting hwaiting
  obtain ⟨hpoint, hdrive, hraised, -⟩ := completeReturn_spec (e := s.env) hx' habs origin
  have hunheard := fun hnil => completeReturn_unheard (e := s.env) (m := origin) hx' (hwaiting.trans hnil)
  have hdiverts := fun hnil a h rest c k leg f => completeReturn_diverts (e := s.env) (m := origin) (a := a) (h := h) (rest := rest)
    (c := c) (k := k) (leg := leg) (f := f) hx' (hwaiting.trans hnil)
  generalize b.completeReturn s.env p origin = z at *
  refine ⟨hpoint, hdrive, hraised, ?_, hlead, hsections, hqueues', hcrest, fun hnil => ?_⟩
  · rw [← hcontrol]
    rfl
  · obtain ⟨hfree, hnone, hothers, hcuts⟩ := hunheard hnil
    refine ⟨hfree.trans (by rw [hinuse]), hnone, fun q hq => (hothers q hq).trans (hother q hq),
      fun hempty => (hcuts ((queueOf_congr hqueues p).trans hempty)).trans hslots,
      fun a h rest c k leg f ha hq hcfg hc hl hk hleg hne hf => ?_⟩
    obtain ⟨hstarted, hcut, hplanned, haxles⟩ := hdiverts hnil a h rest c k leg f ((planOf_congr hplans p).trans ha)
      ((queueOf_congr hqueues p).trans hq) hcfg ((Yard.cutAt_congr hslots _).trans hc) hl hk hleg hne hf
    exact ⟨hstarted, hcut, hplanned, axlesMoved_of_tracks haxles htracks.symm rfl⟩

/-! ## The rows of the table -/

theorem detectionRows : DetectionRows := by
  intro line p s n r hdue hrole hn hr
  refine ⟨_, exec_detection hdue hrole hn hr, rfl, rfl, fun hnone => ?_, fun x hx => ⟨fun m hl hp => ?_, fun m hl hp => ?_,
    fun l origin expiry kind hst hp => ?_, fun origin expiry kind hst => ⟨fun hp => ?_, fun hp hw => ?_⟩, fun c hst => ?_⟩⟩
  · rw [Yard.detectionChange, hnone]
    exact settledFrom_withYard { s with lines := takeDue s.lines (.point p) } s.yard
  · refine levelsStored_of_idle _ hx ?_
    rw [← proves_eq, hp]
    cases hst : x.state <;> rw [hst] at hl <;> simp only [PointState.lie, reduceCtorEq, Option.some.injEq] at hl
    all_goals exact if_pos hl.symm
  · exact lostAtRest _ hx hl hp
  · refine levelsStored_of_idle _ hx ?_
    rw [hst]
    rw [proves_eq] at hp
    cases hshown : provedLeg n r with
    | none => rfl
    | some k => exact if_neg fun heq => hp (by rw [hshown, heq])
  · refine levelsStored_of_idle _ hx ?_
    rw [hst]
    rw [proves_eq] at hp
    cases hshown : provedLeg n r with
    | none => rfl
    | some k => exact if_neg fun heq => hp (by rw [hshown, heq])
  · exact returnCompleted _ hx hst hp hw
  · refine levelsStored_of_idle _ hx ?_
    rw [hst]
    rfl

theorem throw_completed {target origin : Leg} {expiry : Instant} {kind : ThrowKind} {n r : Bool} (hx : y.pointOf p = some x)
    (hst : x.state = .moving target origin expiry kind) (hp : provedLeg n r = some target) :
    y.detectionChange e p n r = ((ended p (.proved target) (stored p n r y)).arbitrate e).evaluate e p := by
  rw [detectionChange_eq hx, hst, hp]
  exact if_pos rfl

theorem throwCompletion : ThrowCompletion := by
  intro line p s x target origin expiry kind n r hdue hrole hn hr hx hst hp
  rw [proves_eq] at hp
  refine ⟨_, _, exec_detection hdue hrole hn hr, rfl, ?_⟩
  rw [throw_completed hx hst hp, ended, Yard.setPointState, Yard.modifyPoint, pointOf_stored hx, stored_eq hx]
  dsimp only
  rw [table_put_put]
  exact settledFrom_withYard { s with lines := takeDue s.lines (.point p) } _

/-- Settles O28: the rows of the table, the completed throw with what follows it, and its end where nothing is planned. -/
theorem proofOfTargetCompletesThrow : Obligations.ProofOfTargetCompletesThrow := by
  refine ⟨detectionRows, throwCompletion, fun line p s x target origin expiry kind hdue hrole hp hx hst hq hw => ?_⟩
  have hexec := exec_detection hdue hrole rfl rfl
  rw [throw_completed hx hst hp] at hexec
  generalize roleLevel (takeDue s.lines (.point p)) (.detectN p) = n at *
  generalize roleLevel (takeDue s.lines (.point p)) (.detectR p) = r at *
  have hx' := pointOf_stored hx n r
  rw [stored_eq hx] at hx' hexec
  obtain ⟨hpoint, habsent, hdrive⟩ := arbitrated_end (e := s.env) hx' (absent_of_waitingOf (y := s.yard) hw) (.proved target)
  obtain ⟨hqueues, -, -, -, hwaiting, hinuse⟩ := ended_fields p (.proved target)
    { s.yard with points := Table.put s.yard.points p (some { x with detectN := n, detectR := r }) }
  obtain ⟨plans, hplans⟩ := evaluate_of_empty (e := s.env)
    ((queueOf_congr ((queues_of_standing (Yard.standing_arbitrate s.env _)).trans hqueues) p).trans hq) (waitingOf_of_absent habsent)
  rw [hplans] at hexec
  refine ⟨_, hexec, ?_, hdrive, ?_, fun hnil => ?_, rfl, ?_⟩
  · change Option.map _ (Yard.pointOf (Yard.arbitrate s.env _) p) = _
    rw [hpoint]
    rfl
  · change Option.map _ (Yard.pointOf (Yard.arbitrate s.env _) p) = _
    rw [hpoint]
    rfl
  · change (Yard.arbitrate s.env _).slotsInUse = _
    rw [Yard.arbitrate_nil (hwaiting.trans hnil), hinuse]
  · change (Yard.arbitrate s.env _).control.mode = _
    rw [(Yard.standing_ext (Yard.standing_arbitrate s.env _)).2.2.2.2.2.2.2]
    simp [ended, releaseSlot]

end Sys2Proof.Proofs
end


section
/-! PROOFS. The requests on points (section 7.6): the common checks, THROW (R138), BAR and UNBAR (R139), RESTORE (R140). -/

namespace Sys2Proof.Proofs

open Sys2Proof Sys2Proof.Machine Sys2Proof.Spec

variable {e : Env} {y z : Yard} {s : State} {p q : PointIx} {x : Point}

/-! ## The common checks -/

theorem point?_ofNat (p : PointIx) : point? (BitVec.ofNat 8 p.val) = some p :=
  index?_eq_some.mpr (by rw [BitVec.toNat_ofNat]; omega)

theorem ofNat_point {b : Byte} (h : b.toNat = p.val) : BitVec.ofNat 8 p.val = b := by
  rw [← h, BitVec.ofNat_toNat, BitVec.setWidth_eq]

theorem legByte_eq (l : Leg) : legByte l = legCode l := by cases l <;> rfl

theorem leg?_legCode (l : Leg) : leg? (legCode l) = some l := by cases l <;> rfl

theorem leg?_eq_none {b : Byte} : leg? b = none ↔ 1 < b.toNat := by
  have zero_or_one : ¬ 1 < b.toNat ↔ b = 0 ∨ b = 1 := by bv_omega
  unfold leg?
  split_ifs <;> simp_all

section Checked

variable {c : Byte → Instr} {body : PointIx → Point → State → Reply × State}

/-- A request that goes through `onPoint` makes the common checks. -/
theorem pointChecks_of_onPoint
    (hc : ∀ b s, exec (c b) s = serve ((codeOf (c b)).getD 0) (payloadOf (c b)) (onPoint b body) s) : PointChecks c := by
  refine fun s b => ⟨fun hm => refuses_of_serve (hc b s) ?_, fun hm => ⟨fun hb => refuses_of_serve (hc b s) ?_,
    fun p hb hx => refuses_of_serve (hc b s) ?_⟩⟩
  · rw [onPoint, if_pos hm]
    rfl
  · rw [onPoint, if_neg hm, point?, index?_eq_none.mpr hb]
    rfl
  · rw [onPoint, if_neg hm, point?, index?_eq_some.mpr hb]
    dsimp only
    rw [hx]
    dsimp only
    rw [refuseAt, ofNat_point hb]

/-- Past the common checks the request's own body answers. -/
theorem answers_onPoint {i : Instr} {r : Reply} {t : State}
    (hc : exec i s = serve ((codeOf i).getD 0) (payloadOf i) (onPoint (BitVec.ofNat 8 p.val) body) s) (hm : s.mode ≠ .setup)
    (hx : s.yard.pointOf p = some x) (hb : body p x s = (r, t)) : Answers i s r t :=
  answers_of_serve hc ((onPoint_pass hm (point?_ofNat p) hx).trans hb)

end Checked

theorem settledFrom_answered (s : State) (y : Yard) :
    SettledFrom { s with link := (s.withYard y).link } y (s.withYard y) := settledFrom_withYard s y

/-- What a request on a point leaves alone, whose yard keeps what the arbiter and the planner leave. -/
theorem request_frame {w : Yard} (h : w.standing = s.yard.standing) :
    (s.withYard w).pending = s.pending ∧ (s.withYard w).lines = s.lines ∧ (s.withYard w).heads = s.heads ∧
      (s.withYard w).ladder = s.ladder ∧ (s.withYard w).clock = s.clock ∧ (s.withYard w).yard.control.mode = s.yard.control.mode ∧
      (s.withYard w).yard.lead = s.yard.lead ∧ (s.withYard w).yard.sections = s.yard.sections ∧
      (s.withYard w).yard.queues = s.yard.queues ∧ (s.withYard w).yard.crest = s.yard.crest ∧
      (s.withYard w).yard.pendingList = s.yard.pendingList := by
  obtain ⟨hlead, hsections, hqueues, hlist, hcrest, -, -, hcontrol⟩ := Yard.standing_ext h
  exact ⟨rfl, rfl, rfl, rfl, rfl, congrArg (fun m => m.mode) hcontrol, hlead, hsections, hqueues, hcrest, hlist⟩

/-! ## THROW (R138) -/

theorem insertWaiting_of_manual {w : Waiting} (h : w.claim = .manual) (now : Instant) (l : List Waiting) :
    insertWaiting now w l = l ++ [w] := by
  have hall : l.takeWhile (fun v => !standsBefore now w v) = l := by
    have hsplit := List.takeWhile_append_dropWhile (p := fun v => !standsBefore now w v) (l := l)
    rwa [insertWaiting_manual h, List.append_nil] at hsplit
  rw [insertWaiting, insertWaiting_manual h, hall]

theorem refuses_throw {leg : Byte} {l : Leg} {st : Status} (hm : s.mode ≠ .setup) (hx : s.yard.pointOf p = some x)
    (hl : leg? leg = some l) (h : s.yard.throwRefusal p x = some st) :
    Refuses (.throw (BitVec.ofNat 8 p.val) leg) s st [BitVec.ofNat 8 p.val] := by
  refine answers_onPoint (body := throwBody leg) rfl hm hx ?_
  rw [throwBody, hl]
  dsimp only
  rw [h]
  rfl

theorem answers_throw {l : Leg} (hm : s.mode ≠ .setup) (hx : s.yard.pointOf p = some x) (h : s.yard.throwRefusal p x = none) :
    (x.state.lie = some l → Answers (.throw (BitVec.ofNat 8 p.val) (legCode l)) s (doneWith [0])
      (s.withYard (s.yard.throwInPosition s.env p l))) ∧
    (x.state.lie ≠ some l → Answers (.throw (BitVec.ofNat 8 p.val) (legCode l)) s (doneWith [1])
      (s.withYard (s.yard.throwPlaced s.env p l))) := by
  refine ⟨fun hlie => ?_, fun hlie => ?_⟩
  all_goals
    refine answers_onPoint (body := throwBody (legCode l)) rfl hm hx ?_
    rw [throwBody, leg?_legCode]
    dsimp only
    rw [h]
    dsimp only
  · rw [if_pos hlie]
  · rw [if_neg hlie]

/-- A throw into the leg the point lies in, with an empty queue and no entry: the planning record alone is written besides. -/
theorem throwInPosition_spec (hx : y.pointOf p = some x) (l : Leg) (hw : y.waitingOf p = none) (hq : y.queueOf p = []) :
    ∃ plans, y.throwInPosition e p l =
      { y with points := Table.put y.points p (some { x with state := .proved l }), plans := plans } := by
  rw [Yard.throwInPosition, Yard.setPointState, Yard.modifyPoint, hx]
  obtain ⟨plans, h⟩ := evaluate_of_empty (e := e)
    (y := { y with points := Table.put y.points p (some { x with state := .proved l }) }) hq hw
  exact ⟨plans, h⟩

/-- The yard with a MANUAL entry placed behind the list. -/
def manualPlaced (p : PointIx) (l : Leg) (y : Yard) : Yard :=
  { y with waiting := y.waiting ++ [{ point := p, target := l, claim := .manual }] }

theorem throwPlaced_eq (hw : y.waitingOf p = none) (l : Leg) : y.throwPlaced e p l = (manualPlaced p l y).arbitrate e := by
  rw [Yard.throwPlaced, placeWaiting_of_absent (w := { point := p, target := l, claim := .manual }) (absent_of_waitingOf hw),
    insertWaiting_of_manual rfl]
  rfl

/-- The yard as a throw that was placed is granted at once. -/
theorem throwPlaced_granted {m l : Leg} {cfg : PointConfig} (hx : y.pointOf p = some x) (hm : x.state.lie = some m)
    (hb : x.barred = false) (hclear : y.sectionClear (.point p) = true) (hfreeze : y.control.freezeFlag = false)
    (hcfg : e.ladder.config p = some cfg) (hw : y.waiting = []) (hslots : y.slotsInUse < e.ladder.consts.slots) :
    (y.throwPlaced e p l).pointOf p = some { x with state := .moving l m (e.now + BitVec.ofNat 32 (10 * cfg.tThrow)) .manual } ∧
      (∀ q, q ≠ p → (y.throwPlaced e p l).pointOf q = y.pointOf q) ∧ (y.throwPlaced e p l).waiting = [] ∧
      (y.throwPlaced e p l).slotsInUse = y.slotsInUse + 1 ∧
      (∀ k, Table.look (y.throwPlaced e p l).drive (driveLine p k) = (k == l)) ∧ (y.throwPlaced e p l).slots = y.slots := by
  obtain ⟨w, hwdef⟩ : ∃ w : Waiting, w = { point := p, target := l, claim := .manual } := ⟨_, rfl⟩
  obtain ⟨hwp, hwt, hwc⟩ : w.point = p ∧ w.target = l ∧ w.claim = .manual := by rw [hwdef]; exact ⟨rfl, rfl, rfl⟩
  have hlie : y.pointLie p = some m := (pointLie_of_pointOf hx).trans hm
  have hlist : (manualPlaced p l y).waiting = [w] := by rw [manualPlaced, hw, hwdef]; rfl
  have hempty : ({ manualPlaced p l y with waiting := [] } : Yard) = y := by rw [manualPlaced, ← hw]
  have hel : (manualPlaced p l y).eligible w = true := by
    rw [eligible_eq (show (manualPlaced p l y).pointOf w.point = some x by rw [hwp]; exact hx), hm, hb, hwp]
    exact hclear
  have hexp : w.expired e.now = false := notExpired_of_claim fun d i h => by rw [hwc] at h; cases h
  have hthrow : y.throwPlaced e p l = y.grant e w := by
    rw [throwPlaced_eq (waitingOf_of_absent (by intro v hv; rw [hw] at hv; cases hv)),
      arbitrate_granted (rest := []) hlist hslots hfreeze hexp hel, hempty,
      Yard.arbitrate_nil ((waiting_grant w y).trans hw)]
  have hgrant : y.pointLie w.point = some m := by rw [hwp]; exact hlie
  rw [hthrow]
  refine ⟨?_, fun q hq => pointOf_grant_of_ne (by rw [hwp]; exact hq.symm), (waiting_grant w y).trans hw, slotsInUse_grant hgrant,
    fun k => ?_, slots_grant w y⟩
  · have hpoint := pointOf_grant (e := e) (w := w) (by rw [hwp]; exact hx) hm
    rw [hwp, hwt, hwc, throwTicks_of_config hcfg] at hpoint
    exact hpoint
  · rw [drive_grant hgrant, if_pos hwp, hwt]
    cases l <;> cases k <;> rfl

theorem throwPlaced_shut {l : Leg} (hw : y.waitingOf p = none) (hslots : e.ladder.consts.slots ≤ y.slotsInUse) :
    y.throwPlaced e p l = manualPlaced p l y := by
  rw [throwPlaced_eq hw]
  exact arbitrate_of_shut (.inl hslots)

theorem throw_refusals (s : State) (p : PointIx) (x : Point) (leg : Byte) (hm : s.mode ≠ .setup) (hx : s.yard.pointOf p = some x)
    (hleg : leg.toNat ≤ 1) :
    (x.state.inMotion = true → Refuses (.throw (BitVec.ofNat 8 p.val) leg) s .busy [BitVec.ofNat 8 p.val]) ∧
    ((∃ c, x.state = .lost c) → Refuses (.throw (BitVec.ofNat 8 p.val) leg) s .notProved [BitVec.ofNat 8 p.val]) ∧
    ((∃ m, x.state.lie = some m) →
      (x.barred = true → Refuses (.throw (BitVec.ofNat 8 p.val) leg) s .barred [BitVec.ofNat 8 p.val]) ∧
      (x.barred = false →
        (s.yard.waitingOf p ≠ none → Refuses (.throw (BitVec.ofNat 8 p.val) leg) s .busy [BitVec.ofNat 8 p.val]) ∧
        (s.yard.waitingOf p = none →
          (s.yard.sectionState (.point p) ≠ some .clear →
            Refuses (.throw (BitVec.ofNat 8 p.val) leg) s .occupied [BitVec.ofNat 8 p.val]) ∧
          (s.yard.sectionState (.point p) = some .clear →
            (s.yard.queueOf p ≠ [] → Refuses (.throw (BitVec.ofNat 8 p.val) leg) s .busy [BitVec.ofNat 8 p.val]) ∧
            (s.yard.queueOf p = [] → s.yard.control.freezeFlag = true →
              Refuses (.throw (BitVec.ofNat 8 p.val) leg) s .frozen [BitVec.ofNat 8 p.val]))))) := by
  obtain ⟨l, hl⟩ : ∃ l, leg? leg = some l := Option.ne_none_iff_exists'.mp fun hnone => by
    have hbig := leg?_eq_none.mp hnone
    omega
  refine ⟨fun hmotion => refuses_throw hm hx hl ?_, fun ⟨c, hc⟩ => refuses_throw hm hx hl ?_, fun ⟨m, hlie⟩ => ?_⟩
  · rw [Yard.throwRefusal, if_pos hmotion]
  · rw [Yard.throwRefusal, hc]
    rfl
  obtain ⟨hrest, hkept⟩ := not_motion_of_lie hlie
  refine ⟨fun hb => refuses_throw hm hx hl ?_, fun hb => ⟨fun hw => refuses_throw hm hx hl ?_, fun hw =>
    ⟨fun hclear => refuses_throw hm hx hl ?_, fun hclear => ⟨fun hq => refuses_throw hm hx hl ?_, fun hq hf => refuses_throw hm hx hl ?_⟩⟩⟩⟩
  all_goals simp_all [Yard.throwRefusal, Yard.sectionClear, Option.isSome_iff_ne_none]

/-- Settles O56: THROW's checks in their order, and its two outcomes. -/
theorem throwProvesPlacesOrStarts : Obligations.ThrowProvesPlacesOrStarts := by
  refine ⟨fun leg => pointChecks_of_onPoint (body := throwBody leg) fun b s => rfl, fun s p x leg hm hx => ⟨fun hleg => ?_,
    throw_refusals s p x leg hm hx⟩, fun s p x m l cfg hm hx hlie hb hw hclear hq hf hcfg => ?_⟩
  · refine answers_onPoint (body := throwBody leg) rfl hm hx ?_
    rw [throwBody, leg?_eq_none.mpr hleg]
    rfl
  obtain ⟨hrest, hkept⟩ := not_motion_of_lie hlie
  have hpass : s.yard.throwRefusal p x = none := by simp [Yard.throwRefusal, hrest, hkept, hb, hw, hclear, hq, hf]
  obtain ⟨hposition, hplaced⟩ := answers_throw (l := l) hm hx hpass
  by_cases hlm : l = m
  · subst hlm
    obtain ⟨hpending, hlines, hheads, hladder, hclock, hmode, hlead, hsections, hqueues, hcrest, hlist⟩ :=
      request_frame (Yard.standing_throwInPosition s.env p l s.yard)
    refine ⟨_, hpending, hlines, hheads, hladder, hclock, hmode, hlead, hsections, hqueues, hcrest, hlist, fun _ => ?_,
      fun hne => absurd rfl hne⟩
    obtain ⟨plans, hplans⟩ := throwInPosition_spec (e := s.env) hx l hw hq
    refine ⟨hposition hlie, ?_⟩
    have hsettled := settledFrom_answered s (s.yard.throwInPosition s.env p l)
    rw [show s.yard.throwInPosition s.env p l = _ from by rw [Yard.throwInPosition, Yard.setPointState, Yard.modifyPoint, hx]] at hsettled
    rw [hplans]
    refine ⟨Table.look_put_self _ _ _, fun q hq => Table.look_put_of_ne _ _ hq.symm, rfl, rfl, rfl, rfl, ?_⟩
    rw [← hplans, Yard.throwInPosition, Yard.setPointState, Yard.modifyPoint, hx]
    exact hsettled
  · obtain ⟨hpending, hlines, hheads, hladder, hclock, hmode, hlead, hsections, hqueues, hcrest, hlist⟩ :=
      request_frame (Yard.standing_throwPlaced s.env p l s.yard)
    refine ⟨_, hpending, hlines, hheads, hladder, hclock, hmode, hlead, hsections, hqueues, hcrest, hlist, fun heq => absurd heq hlm,
      fun _ => ⟨hplaced fun heq => hlm ?_, fun hnil hfree => throwPlaced_granted hx hlie hb hclear hf hcfg hnil hfree, fun hshut => ?_⟩⟩
    · rw [hlie, Option.some.injEq] at heq
      exact heq.symm
    · rw [throwPlaced_shut hw hshut]
      exact ⟨rfl, rfl, rfl, rfl, rfl⟩

/-! ## BAR and UNBAR (R139) -/

theorem setBar_eq (hx : y.pointOf p = some x) (b : Bool) :
    y.setBar p b = { y with points := Table.put y.points p (some { x with barred := b }) } := by
  rw [Yard.setBar, Yard.modifyPoint, hx]

theorem pointOf_setBar (hx : y.pointOf p = some x) (b : Bool) : (y.setBar p b).pointOf p = some { x with barred := b } := by
  rw [setBar_eq hx]
  exact Table.look_put_self _ _ _

/-- The yard with the bar set and an entry of the point out of the list, as the arbiter leaves it (R132, R139). -/
theorem dropWaiting_setBar (hx : y.pointOf p = some x) (b : Bool) :
    ∃ w : Yard, w = { y with points := Table.put y.points p (some { x with barred := b }),
                             waiting := y.waiting.filter (fun a => a.point ≠ p) } ∧
      (y.setBar p b).dropWaiting e p = if y.waitingOf p = none then w else w.arbitrate e := by
  refine ⟨_, rfl, ?_⟩
  rw [setBar_eq hx]
  cases hw : y.waitingOf p with
  | none =>
    have hkept : y.waiting.filter (fun a => a.point ≠ p) = y.waiting :=
      List.filter_eq_self.mpr fun a ha => by simpa using absent_of_waitingOf hw a ha
    have hdrop : ∀ u : Yard, u.waitingOf p = none → u.dropWaiting e p = u := fun u hu => by rw [Yard.dropWaiting, hu]; rfl
    rw [if_pos rfl, hkept]
    exact hdrop _ hw
  | some v =>
    rw [if_neg (Option.some_ne_none v)]
    refine Eq.trans (dropWaiting_of_present (w := v)
      (y := { y with points := Table.put y.points p (some { x with barred := b }) }) hw) ?_
    rw [removeWaiting_eq]

/-- The bar set, the entry withdrawn and the arbiter done: the point, its drive lines and the list (R132, R139). -/
theorem barred_spec (hx : y.pointOf p = some x) :
    ((y.setBar p true).dropWaiting e p).pointOf p = some { x with barred := true } ∧
      Absent p ((y.setBar p true).dropWaiting e p) ∧
      ∀ k, Table.look ((y.setBar p true).dropWaiting e p).drive (driveLine p k) = Table.look y.drive (driveLine p k) := by
  refine ⟨(pointOf_dropWaiting p _).trans (pointOf_setBar hx true), ?_⟩
  have hdrive : (y.setBar p true).drive = y.drive := by rw [setBar_eq hx]
  cases hw : (y.setBar p true).waitingOf p with
  | none =>
    have hdrop : (y.setBar p true).dropWaiting e p = y.setBar p true := by rw [Yard.dropWaiting, hw]; rfl
    rw [hdrop, hdrive]
    exact ⟨absent_of_waitingOf hw, fun k => rfl⟩
  | some v =>
    rw [dropWaiting_of_present hw]
    have habs := absent_removeWaiting p (y.setBar p true)
    exact ⟨(arbitrate_of_absent habs).1, fun k => (drive_arbitrate_of_absent habs k).trans (by rw [← hdrive]; rfl)⟩

theorem bar_effect (hm : s.mode ≠ .setup) (hx : s.yard.pointOf p = some x) {m : Leg} (hlie : x.state.lie = some m) (hb : x.barred = false) :
    ∃ t, Answers (.bar (BitVec.ofNat 8 p.val)) s ok t ∧ t.yard.pointOf p = some { x with barred := true } ∧
      t.yard.waitingOf p = none ∧ t.yard.lead = s.yard.lead ∧ t.yard.sections = s.yard.sections ∧
      t.yard.queues = s.yard.queues ∧ t.yard.control.mode = s.yard.control.mode ∧
      (∀ k, Table.look t.yard.drive (driveLine p k) = Table.look s.yard.drive (driveLine p k)) ∧
      ∃ w : Yard, w = { s.yard with
          points := Table.put s.yard.points p (some { x with barred := true }),
          waiting := s.yard.waiting.filter (fun a => a.point ≠ p) } ∧
        SettledFrom { s with link := t.link }
          ((if s.yard.waitingOf p = none then w else w.arbitrate s.env).evaluate s.env p) t := by
  obtain ⟨hrest, hkept⟩ := not_motion_of_lie hlie
  have hanswer : Answers (.bar (BitVec.ofNat 8 p.val)) s ok (s.withYard (s.yard.bar s.env p)) := by
    refine answers_onPoint (body := barBody) rfl hm hx ?_
    rw [barBody, hrest, hkept, hb]
    rfl
  obtain ⟨hpoint, habsent, hdrive⟩ := barred_spec (e := s.env) hx
  have hsame : SameDrives ((s.yard.setBar p true).dropWaiting s.env p) (s.yard.bar s.env p) :=
    evaluate_of_unavailable habsent hpoint ((unavailable_iff _).mpr (.inl rfl))
  obtain ⟨-, -, -, -, -, hmode, hlead, hsections, hqueues, -, -⟩ := request_frame (Yard.standing_bar s.env p s.yard)
  obtain ⟨w, hw, hdrop⟩ := dropWaiting_setBar (e := s.env) hx true
  refine ⟨_, hanswer, (Yard.pointOf_congr hsame.points p).trans hpoint, waitingOf_of_absent (habsent.of_waiting hsame.waiting),
    hlead, hsections, hqueues, hmode, fun k => ?_, w, hw, ?_⟩
  · change Table.look (s.yard.bar s.env p).drive _ = _
    rw [hsame.drive, hdrive]
  · rw [← hdrop]
    exact settledFrom_answered s _

theorem unbar_effect (hm : s.mode ≠ .setup) (hx : s.yard.pointOf p = some x) (hb : x.barred = true) :
    ∃ t, Answers (.unbar (BitVec.ofNat 8 p.val)) s ok t ∧
      (t.yard.pointOf p).map (fun z => z.barred) = some false ∧
      (s.yard.queueOf p = [] → t.yard.pointOf p = some { x with barred := false }) ∧ t.yard.lead = s.yard.lead ∧
      t.yard.sections = s.yard.sections ∧ t.yard.queues = s.yard.queues ∧
      SettledFrom { s with link := t.link }
        (({ s.yard with points := Table.put s.yard.points p (some { x with barred := false }) } : Yard).evaluate s.env p) t := by
  have hanswer : Answers (.unbar (BitVec.ofNat 8 p.val)) s ok (s.withYard ((s.yard.setBar p false).evaluate s.env p)) := by
    refine answers_onPoint (body := unbarBody) rfl hm hx ?_
    rw [unbarBody, if_pos hb]
    rfl
  have hpoint := pointOf_setBar hx false
  obtain ⟨-, -, -, -, -, -, hlead, hsections, hqueues, -, -⟩ := request_frame (s := s) (w := (s.yard.setBar p false).evaluate s.env p)
    (by simp)
  refine ⟨_, hanswer, ?_, fun hq => ?_, hlead, hsections, hqueues, ?_⟩
  · exact (planClosed_bar s.env p (some false)).evaluate p (by rw [hpoint]; rfl)
  · exact (pointOf_evaluate_of_empty (by rw [setBar_eq hx]; exact hq)).trans hpoint
  · rw [← setBar_eq hx]
    exact settledFrom_answered s _

/-! ## RESTORE (R140) -/

theorem provedLeg_none (x : Point) (h : x.detectN = x.detectR) : provedLeg x.detectN x.detectR = none := by
  rw [h]
  cases x.detectR <;> rfl

theorem provedLeg_some (x : Point) (h : x.detectN ≠ x.detectR) :
    provedLeg x.detectN x.detectR = some (if x.detectN = true then .N else .R) := by
  cases hn : x.detectN <;> cases hr : x.detectR <;> rw [hn, hr] at h <;> first | exact absurd rfl h | rfl

/-- The yard with a point restored to PROVED, before its evaluation (R140, R163). -/
def restored (p : PointIx) (x : Point) (l : Leg) (y : Yard) : Yard :=
  { y with
    points := Table.put y.points p (some { x with state := .proved l }),
    control := { y.control with lost := if x.state.isLost = true then y.control.lost - 1 else y.control.lost } }

theorem restorePoint_eq (hx : y.pointOf p = some x) (l : Leg) : y.restorePoint e p x.state.isLost l = (restored p x l y).evaluate e p := by
  unfold Yard.restorePoint restored
  rw [Yard.setPointState, Yard.modifyPoint, hx]
  cases x.state.isLost <;> rfl

theorem restore_effect (hm : s.mode ≠ .setup) (hx : s.yard.pointOf p = some x) (hrest : x.state.inMotion = false)
    (hnot : x.state.isProved = false) (hd : x.detectN ≠ x.detectR) :
    ∃ l t, l = (if x.detectN = true then Leg.N else Leg.R) ∧
      Answers (.restore (BitVec.ofNat 8 p.val)) s (doneWith [legCode l]) t ∧
      (t.yard.pointOf p).map (fun z => z.barred) = some x.barred ∧
      (s.yard.queueOf p = [] → t.yard.pointOf p = some { x with state := .proved l }) ∧
      t.yard.control =
        { s.yard.control with
            lost := if x.state.isLost = true then s.yard.control.lost - 1 else s.yard.control.lost,
            permit := t.yard.control.permit } ∧
      t.yard.sections = s.yard.sections ∧ t.yard.queues = s.yard.queues ∧
      SettledFrom { s with link := t.link } ((restored p x l s.yard).evaluate s.env p) t := by
  obtain ⟨l, hl⟩ : ∃ l, l = (if x.detectN = true then Leg.N else Leg.R) := ⟨_, rfl⟩
  have hshown : provedLeg x.detectN x.detectR = some l := by rw [hl]; exact provedLeg_some x hd
  have hanswer : Answers (.restore (BitVec.ofNat 8 p.val)) s (doneWith [legCode l])
      (s.withYard ((restored p x l s.yard).evaluate s.env p)) := by
    refine answers_onPoint (body := restoreBody) rfl hm hx ?_
    rw [restoreBody, hrest, hnot, hshown]
    change (doneWith [legByte l], s.withYard (s.yard.restorePoint s.env p x.state.isLost l)) = _
    rw [legByte_eq, restorePoint_eq hx]
  have hpoint : (restored p x l s.yard).pointOf p = some { x with state := .proved l } := Table.look_put_self _ _ _
  have hbar := (planClosed_bar s.env p (some x.barred)).evaluate p (y := restored p x l s.yard) (by rw [hpoint]; rfl)
  have hempty : s.yard.queueOf p = [] → ((restored p x l s.yard).evaluate s.env p).pointOf p = some { x with state := .proved l } :=
    fun hq => Eq.trans (pointOf_evaluate_of_empty (y := restored p x l s.yard) hq) hpoint
  obtain ⟨-, hsections, hqueues, -, -, -, -, hcontrol⟩ := Yard.standing_ext (Yard.standing_evaluate s.env p (restored p x l s.yard))
  refine ⟨l, _, hl, hanswer, ?_⟩
  generalize (restored p x l s.yard).evaluate s.env p = z at *
  refine ⟨hbar, hempty, ?_, hsections, hqueues, settledFrom_answered s z⟩
  change { z.control with permit := permitLaw z } = _
  rw [hcontrol]
  rfl

/-- Settles O57: the state checks of the three requests, and their effects. -/
theorem barUnbarRestoreChangePoint : Obligations.BarUnbarRestoreChangePoint := by
  refine ⟨pointChecks_of_onPoint (body := barBody) fun b s => rfl, pointChecks_of_onPoint (body := unbarBody) fun b s => rfl,
    pointChecks_of_onPoint (body := restoreBody) fun b s => rfl, fun s p x hm hx => ⟨fun hmotion => ⟨?_, ?_⟩, fun ⟨c, hc⟩ => ?_,
    fun ⟨l, hl⟩ => ?_, fun ⟨m, hlie⟩ => ⟨fun hb => ?_, bar_effect hm hx hlie⟩, fun hb => ?_, unbar_effect hm hx,
    fun hstate => ?_⟩⟩
  · refine answers_onPoint (body := barBody) rfl hm hx ?_
    rw [barBody, if_pos hmotion]
    rfl
  · refine answers_onPoint (body := restoreBody) rfl hm hx ?_
    rw [restoreBody, if_pos hmotion]
    rfl
  · refine answers_onPoint (body := barBody) rfl hm hx ?_
    rw [barBody, hc]
    rfl
  · refine answers_onPoint (body := restoreBody) rfl hm hx ?_
    rw [restoreBody, hl]
    rfl
  · refine answers_onPoint (body := barBody) rfl hm hx ?_
    obtain ⟨hrest, hkept⟩ := not_motion_of_lie hlie
    rw [barBody, hrest, hkept, hb]
    rfl
  · refine answers_onPoint (body := unbarBody) rfl hm hx ?_
    rw [unbarBody, hb]
    rfl
  · have hfaulted : x.state.inMotion = false ∧ x.state.isProved = false := by
      obtain ⟨l, c, h⟩ | ⟨c, h⟩ := hstate <;> rw [h] <;> exact ⟨rfl, rfl⟩
    obtain ⟨hrest, hnot⟩ := hfaulted
    refine ⟨fun hd => ?_, fun hd => restore_effect hm hx hrest hnot hd⟩
    refine answers_onPoint (body := restoreBody) rfl hm hx ?_
    rw [restoreBody, hrest, hnot, provedLeg_none x hd]
    rfl

end Sys2Proof.Proofs
end


section
/-! SUPPORT. What losses and disturbances leave of cuts, sections, queues, tracks and the crest unit (R55, R57): the changes
beside these, and the closure of properties that read these alone. -/

namespace Sys2Proof.Proofs

open Sys2Proof Sys2Proof.Machine Sys2Proof.Spec

variable {e : Env} {x y z : Yard} {i : SlotIx} {sid : SectionId}

/-! ## Changes beside the traffic -/

/-- The cuts, the sections, the queues, the tracks, the crest unit and the pending list are the same. -/
structure SameTraffic (y z : Yard) : Prop where
  slots : z.slots = y.slots
  lead : z.lead = y.lead
  sections : z.sections = y.sections
  queues : z.queues = y.queues
  tracks : z.tracks = y.tracks
  crest : z.crest = y.crest
  pendingList : z.pendingList = y.pendingList

namespace SameTraffic

theorem refl (y : Yard) : SameTraffic y y := ⟨rfl, rfl, rfl, rfl, rfl, rfl, rfl⟩

theorem trans (h : SameTraffic x y) (k : SameTraffic y z) : SameTraffic x z :=
  ⟨k.slots.trans h.slots, k.lead.trans h.lead, k.sections.trans h.sections, k.queues.trans h.queues, k.tracks.trans h.tracks,
    k.crest.trans h.crest, k.pendingList.trans h.pendingList⟩

theorem cutAt (h : SameTraffic y z) (i : SlotIx) : z.cutAt i = y.cutAt i := Yard.cutAt_congr h.slots i

theorem sectionOf (h : SameTraffic y z) (sid : SectionId) : z.sectionOf sid = y.sectionOf sid := sectionOf_of_fields h.lead h.sections sid

theorem modifyPlan (q : PointIx) (f : Plan → Plan) (y : Yard) : SameTraffic y (y.modifyPlan q f) := by
  constructor <;> simp

theorem setPointState (p : PointIx) (st : PointState) (y : Yard) : SameTraffic y (y.setPointState p st) := by constructor <;> simp

theorem placeWaiting (w : Waiting) (y : Yard) : SameTraffic y (y.placeWaiting e w) := by
  unfold Yard.placeWaiting
  split <;> constructor <;> rfl

theorem grant {w : Waiting} (h : y.eligible w = true) : SameTraffic y (y.grant e w) := by
  obtain ⟨origin, hl⟩ := lie_of_eligible h
  rw [grant_of_lie hl]
  unfold Yard.grantPlanned
  split <;> constructor <;> simp

theorem enterCause (c : HaltCause) (y : Yard) : SameTraffic y (y.enterCause c) := by
  unfold Yard.enterCause
  split <;> constructor <;> rfl

theorem reportLost (y : Yard) : SameTraffic y y.reportLost := by
  unfold Yard.reportLost
  dsimp only
  split
  · exact trans (y := y.modifyControl _) ⟨rfl, rfl, rfl, rfl, rfl, rfl, rfl⟩ (enterCause _ _)
  · exact ⟨rfl, rfl, rfl, rfl, rfl, rfl, rfl⟩

theorem reportDisturbed (y : Yard) : SameTraffic y y.reportDisturbed := by
  unfold Yard.reportDisturbed
  dsimp only
  split
  · exact trans (y := y.modifyControl _) ⟨rfl, rfl, rfl, rfl, rfl, rfl, rfl⟩ (enterCause _ _)
  · exact ⟨rfl, rfl, rfl, rfl, rfl, rfl, rfl⟩

end SameTraffic

/-! ## Closure of properties of the traffic -/

/-- What a cut has done, without what the planner decides of it: track, route, speed and diversions. -/
def bare (x : Started) : Started := { x with resolved := 0, cause := none, route := [], speed := none, diversions := [] }

/-- A change of started fields that keeps what a cut has done. -/
def Passive (f : Started → Started) : Prop := ∀ z, bare (f z) = bare z

/-- A property of the traffic that the planner's changes of cuts and tracks keep. -/
structure TrafficClosed (P : Yard → Prop) : Prop where
  congr : ∀ {y z}, SameTraffic y z → P y → P z
  started : ∀ {y} i {f}, Passive f → P y → P (y.modifyStarted i f)
  reserve : ∀ {y} t n, P y → P (y.reserve t n)
  release : ∀ {y} t n, P y → P (y.release t n)

namespace TrafficClosed

variable {P : Yard → Prop}

theorem reroute (h : TrafficClosed P) (i : SlotIx) (t : TrackIx) (c : Option ResolutionCause) (hy : P y) : P (y.reroute e i t c) := by
  unfold Yard.reroute
  repeat' split
  · exact hy
  · exact h.started i (fun _ => rfl) hy
  · exact h.started i (fun _ => rfl) (h.reserve _ _ (h.release _ _ hy))
  all_goals exact hy

theorem divertInto (h : TrafficClosed P) (i : SlotIx) (q : PointIx) (l : Leg) (c : DiversionCause) (hy : P y) :
    P (y.divertInto e i q l c) := by
  unfold Yard.divertInto
  split
  · exact h.congr (y := Yard.modifyStarted i _ _) ⟨rfl, rfl, rfl, rfl, rfl, rfl, rfl⟩ (h.started i (fun _ => rfl) (h.reroute i _ none hy))
  · exact hy

theorem plan (h : TrafficClosed P) (e : Env) : PlanClosed e P where
  plan _ q f := h.congr (.modifyPlan q f _)
  speed _ i _ := h.started i fun _ => rfl
  remove _ _ := h.congr ⟨rfl, rfl, rfl, rfl, rfl, rfl, rfl⟩
  pop y _ _ hy _ := h.congr (y := y) ⟨rfl, rfl, rfl, rfl, rfl, rfl, rfl⟩ hy
  place _ w := h.congr (.placeWaiting w _)
  divert _ i q l c := h.divertInto i q l c
  cancelled _ _ := h.congr ⟨rfl, rfl, rfl, rfl, rfl, rfl, rfl⟩
  grant _ _ hy _ _ hel := h.congr (.grant hel) hy

theorem freeDrive (h : TrafficClosed P) (p : PointIx) (hy : P y) : P (y.freeDrive e p) :=
  (h.plan e).arbitrate (h.congr (y := y) ⟨rfl, rfl, rfl, rfl, rfl, rfl, rfl⟩ hy)

theorem losePoint (h : TrafficClosed P) (p : PointIx) (c : FaultCause) (hy : P y) : P (y.losePoint e p c) := by
  have finish : ∀ a : Yard, P a → P ((((a.setPointState p (.lost c)).raisePoint p .lost).reportLost).evaluate e p) := fun a ha =>
    (h.plan e).evaluate p (h.congr (.reportLost _) (h.congr (y := a.setPointState p (.lost c)) ⟨rfl, rfl, rfl, rfl, rfl, rfl, rfl⟩
      (h.congr (.setPointState p _ _) ha)))
  unfold Yard.losePoint
  dsimp only
  split
  · split
    · exact hy
    · refine finish _ ((h.plan e).dropLost p ?_)
      split
      · exact h.freeDrive p hy
      · exact hy
  · exact hy

theorem sectionTold (h : TrafficClosed P) (sid : SectionId) (hy : P y) : P (y.sectionTold e sid) := by
  unfold Yard.sectionTold
  repeat' split
  · exact hy
  · exact h.losePoint _ _ hy
  · exact (h.plan e).sectionNotClear _ hy

/-- The cascade keeps a property of the traffic that its own changes of queues and sections keep. -/
theorem cascade (h : TrafficClosed P) (e : Env) (hqueue : ∀ {y} q l, l.Sublist (y.queueOf q) → P y → P (y.putQueue q l))
    (hmark : ∀ {y} c sid, y.trusted sid = true → P y → P (y.markDisturbed c sid))
    (hstrike : ∀ {y} sid i, y.sectionDisturbed sid = true → P y → P (y.removeOccupant sid i)) :
    CascadeClosed e noDebts (fun (_ : Unit) y => P y) where
  plan _ := h.plan e
  losePoint _ _ p c := h.losePoint p c
  raised _ _ _ _ := h.congr ⟨rfl, rfl, rfl, rfl, rfl, rfl, rfl⟩
  queue _ _ q l := hqueue q l
  mark _ _ c sid := hmark c sid
  told _ _ sid hy := h.congr (.reportDisturbed _) (h.sectionTold sid hy)
  strike _ _ sid i := hstrike sid i
  release _ _ c hy := by
    unfold Yard.releaseLost
    split
    · exact h.release _ _ hy
    · exact hy

end TrafficClosed

/-! ## Cuts -/

/-- What holds of the record in a slot, where the planner's changes of its started fields keep it. -/
theorem trafficClosed_cut {Q : Option Cut → Prop}
    (hstarted : ∀ c f, Passive f → Q (some c) → Q (some { c with started := c.started.map f })) :
    TrafficClosed (fun y => Q (y.cutAt i)) where
  congr h hy := by rwa [h.cutAt i]
  started {y} j f hf hy := by
    rw [Yard.cutAt_modifyStarted]
    split
    · cases hc : y.cutAt i with
      | none => simpa [hc] using hy
      | some c => simpa [hc] using hstarted c f hf (hc ▸ hy)
    · exact hy
  reserve _ _ hy := hy
  release _ _ hy := hy

/-- The cascade keeps what holds of the record in a slot if the planner's changes of its started fields keep it. -/
theorem cascadeClosed_of_cut (e : Env) (i : SlotIx) {Q : Option Cut → Prop}
    (hstarted : ∀ c f, Passive f → Q (some c) → Q (some { c with started := c.started.map f })) :
    CascadeClosed e noDebts (fun (_ : Unit) y => Q (y.cutAt i)) := by
  refine (trafficClosed_cut (i := i) hstarted).cascade e (fun _ _ _ hy => hy) (fun {y} c sid _ hy => ?_)
    (fun {y} sid j _ hy => ?_)
  · rwa [Yard.cutAt_congr (y := y) (by simp [Yard.markDisturbed]) i]
  · rwa [Yard.cutAt_congr (y := y) (by simp) i]

/-- Losses and disturbances keep what holds of the record in a slot if the planner's changes of its started fields and its own loss
keep it. -/
theorem lossClosed_of_cut (e : Env) (i : SlotIx) {Q : Option Cut → Prop}
    (hstarted : ∀ c f, Passive f → Q (some c) → Q (some { c with started := c.started.map f }))
    (hlost : ∀ c, c.onLadder = true → Q (some c) → Q (some { c with state := .lost })) :
    LossClosed e noDebts (fun (_ : Unit) y => Q (y.cutAt i)) where
  toCascadeClosed := cascadeClosed_of_cut e i hstarted
  lost _ y j c hc hl hy := by
    rw [Yard.cutAt_modifyCut]
    split
    next heq =>
      subst heq
      rw [hc, Option.map_some]
      exact hlost c hl (hc ▸ hy)
    · exact hy
  absorbed _ _ _ _ _ hy := hy

/-! ## Combinations -/

theorem planClosed_and {P Q : Yard → Prop} (h : PlanClosed e P) (h' : PlanClosed e Q) : PlanClosed e (fun y => P y ∧ Q y) where
  plan y q f hy := ⟨h.plan y q f hy.1, h'.plan y q f hy.2⟩
  speed y i n hy := ⟨h.speed y i n hy.1, h'.speed y i n hy.2⟩
  remove y p hy := ⟨h.remove y p hy.1, h'.remove y p hy.2⟩
  pop y w rest hy hw := ⟨h.pop y w rest hy.1 hw, h'.pop y w rest hy.2 hw⟩
  place y w hy := ⟨h.place y w hy.1, h'.place y w hy.2⟩
  divert y i q l c hy := ⟨h.divert y i q l c hy.1, h'.divert y i q l c hy.2⟩
  cancelled y p hy := ⟨h.cancelled y p hy.1, h'.cancelled y p hy.2⟩
  grant y w hy h1 h2 h3 := ⟨h.grant y w hy.1 h1 h2 h3, h'.grant y w hy.2 h1 h2 h3⟩

theorem planClosed_or {P Q : Yard → Prop} (h : PlanClosed e P) (h' : PlanClosed e Q) : PlanClosed e (fun y => P y ∨ Q y) where
  plan y q f := .imp (h.plan y q f) (h'.plan y q f)
  speed y i n := .imp (h.speed y i n) (h'.speed y i n)
  remove y p := .imp (h.remove y p) (h'.remove y p)
  pop y w rest hy hw := hy.imp (h.pop y w rest · hw) (h'.pop y w rest · hw)
  place y w := .imp (h.place y w) (h'.place y w)
  divert y i q l c := .imp (h.divert y i q l c) (h'.divert y i q l c)
  cancelled y p := .imp (h.cancelled y p) (h'.cancelled y p)
  grant y w hy h1 h2 h3 := hy.imp (h.grant y w · h1 h2 h3) (h'.grant y w · h1 h2 h3)

theorem cascadeClosed_and {P Q : Unit → Yard → Prop} (h : CascadeClosed e noDebts P) (h' : CascadeClosed e noDebts Q) :
    CascadeClosed e noDebts (fun d y => P d y ∧ Q d y) where
  plan d := planClosed_and (h.plan d) (h'.plan d)
  losePoint d y p c hy := ⟨h.losePoint d y p c hy.1, h'.losePoint d y p c hy.2⟩
  raised d y k n hy := ⟨h.raised d y k n hy.1, h'.raised d y k n hy.2⟩
  queue d y q l hl hy := ⟨h.queue d y q l hl hy.1, h'.queue d y q l hl hy.2⟩
  mark d y c sid ht hy := ⟨h.mark d y c sid ht hy.1, h'.mark d y c sid ht hy.2⟩
  told d y sid hy := ⟨h.told d y sid hy.1, h'.told d y sid hy.2⟩
  strike d y sid i hs hy := ⟨h.strike d y sid i hs hy.1, h'.strike d y sid i hs hy.2⟩
  release d y c hy := ⟨h.release d y c hy.1, h'.release d y c hy.2⟩

theorem cascadeClosed_or {P Q : Unit → Yard → Prop} (h : CascadeClosed e noDebts P) (h' : CascadeClosed e noDebts Q) :
    CascadeClosed e noDebts (fun d y => P d y ∨ Q d y) where
  plan d := planClosed_or (h.plan d) (h'.plan d)
  losePoint d y p c := .imp (h.losePoint d y p c) (h'.losePoint d y p c)
  raised d y k n := .imp (h.raised d y k n) (h'.raised d y k n)
  queue d y q l hl := .imp (h.queue d y q l hl) (h'.queue d y q l hl)
  mark d y c sid ht := .imp (h.mark d y c sid ht) (h'.mark d y c sid ht)
  told d y sid := .imp (h.told d y sid) (h'.told d y sid)
  strike d y sid i hs := .imp (h.strike d y sid i hs) (h'.strike d y sid i hs)
  release d y c := .imp (h.release d y c) (h'.release d y c)

end Sys2Proof.Proofs
end


section
/-! SUPPORT. The planner at one point (R146 to R151): it plans for the cut at the head of the point's queue alone. Properties
that its changes keep, with what is known when each is made; and the head cut of a planning record. -/

namespace Sys2Proof.Proofs

open Sys2Proof Sys2Proof.Machine Sys2Proof.Spec

variable {e : Env} {y z : Yard} {i j : SlotIx} {q : PointIx} {S : PointIx → Prop} {P : Yard → Prop}

/-! ## Closure under the planner's changes -/

/-- The atomic changes of the planner and the arbiter at the points of a set: records that name the head of the queue or the cut
they named before, diversions and tests of the head of the queue. -/
structure HeadClosed (e : Env) (S : PointIx → Prop) (P : Yard → Prop) : Prop where
  plan : ∀ y q f, S q → (∀ r, (f r).head = r.head ∨ (f r).head = y.queueHead q) → P y → P (y.modifyPlan q f)
  speed : ∀ y q i n, S q → y.queueHead q = some i → P y → P (y.modifyStarted i (fun x => { x with speed := some n }))
  divert : ∀ y q i l c, S q → y.queueHead q = some i → P y → P (y.divertInto e i q l c)
  remove : ∀ y p, P y → P (y.removeWaiting p)
  pop : ∀ y w rest, P y → y.waiting = w :: rest → S w.point ∧ P { y with waiting := rest }
  place : ∀ y w, S w.point → y.sectionClear (.point w.point) = true → P y → P (y.placeWaiting e w)
  grant : ∀ y w, S w.point → P y → P (y.grant e w)

namespace HeadClosed

theorem divertEarly (h : HeadClosed e S P) (hq : S q) (hi : y.queueHead q = some i) (c : DiversionCause) (hy : P y) :
    P (y.divertEarly e q i c) := by
  unfold Yard.divertEarly
  split
  next m _ =>
    refine h.plan _ q _ hq (fun r => .inr ?_) (h.divert y q i m c hq hi hy)
    rw [queueHead_of_queues (queues_of_standing (Yard.standing_divertInto e i q m c y)), hi]
  · exact hy

theorem arbitrate (h : HeadClosed e S P) (hy : P y) : P (y.arbitrate e) := by
  refine arbiter_keeps _ (fun z w rest hz hw => ?_) (fun z w rest hz hw => ?_) hy
  all_goals obtain ⟨hpoint, hrest⟩ := h.pop z w rest hz hw
  · unfold Yard.expireEntry
    split
    next i hi => exact h.divertEarly hpoint hi _ hrest
    · exact hrest
  · exact h.grant _ w hpoint hrest

theorem dropWaiting (h : HeadClosed e S P) (p : PointIx) (hy : P y) : P (y.dropWaiting e p) := by
  unfold Yard.dropWaiting
  split
  · exact h.arbitrate (h.remove y p hy)
  · exact hy

theorem withdrawFor (h : HeadClosed e S P) (p : PointIx) (i : SlotIx) (hy : P y) : P (y.withdrawFor e p i) := by
  unfold Yard.withdrawFor
  repeat' split
  · exact h.dropWaiting p hy
  all_goals exact hy

theorem withdrawDeadline (h : HeadClosed e S P) (p : PointIx) (hy : P y) : P (y.withdrawDeadline e p) := by
  unfold Yard.withdrawDeadline
  split
  · exact h.dropWaiting p hy
  · exact hy

theorem divertAtHead (h : HeadClosed e S P) (hq : S q) (hi : y.queueHead q = some i) (c : DiversionCause) (hy : P y) :
    P (y.divertAtHead e q i c) :=
  h.divertEarly hq ((queueHead_of_queues (queues_of_standing (Yard.standing_withdrawFor e q i y)) q).trans hi) c (h.withdrawFor q i hy)

theorem testHead (h : HeadClosed e S P) {cfg : PointConfig} {en : QueueEntry} {leg : Leg} (hq : S q)
    (hclear : y.sectionClear (.point q) = true) (hi : y.queueHead q = some en.slot) (hy : P y) : P (y.testHead e q cfg en leg) := by
  obtain ⟨t, ht⟩ : ∃ t, throwTest e.ladder.consts cfg en e.now = t := ⟨_, rfl⟩
  have htested : P ((y.modifyStarted en.slot (fun x => { x with speed := some t.allowed })).modifyPlan q (fun r => { r with test := some t })) :=
    h.plan _ q _ hq (fun r => .inl rfl) (h.speed y q en.slot t.allowed hq hi hy)
  unfold Yard.testHead
  rw [ht]
  dsimp only
  split
  · have hrequested := h.plan _ q (fun r => { r with state := .requested }) hq (fun r => .inl rfl) htested
    split
    · exact hrequested
    · refine h.arbitrate (h.place _ _ hq ?_ hrequested)
      rw [← hclear]
      unfold Yard.sectionClear Yard.sectionState
      rw [sectionOf_of_standing (y := y) (by simp)]
  · exact h.divertAtHead hq ((queueHead_of_queues (y := y) (queues_of_standing (by simp)) q).trans hi) _ htested

theorem judgeHead (h : HeadClosed e S P) {cfg : PointConfig} {pt : Point} {en : QueueEntry} {leg : Leg} (hq : S q)
    (hi : y.queueHead q = some en.slot) (hy : P y) : P (y.judgeHead e q cfg pt en leg) := by
  unfold Yard.judgeHead
  split
  · exact h.plan _ q _ hq (fun r => .inl rfl) (h.withdrawDeadline q hy)
  · exact h.plan _ q _ hq (fun r => .inl rfl) hy
  · split
    · exact h.divertAtHead hq hi _ hy
    · split
      next hclear => exact h.testHead hq hclear hi hy
      · exact h.plan _ q _ hq (fun r => .inl rfl) hy

theorem renewHead (h : HeadClosed e S P) (hq : S q) (hy : P y) : P (y.renewHead e q) := by
  have hwritten : ∀ a : Yard, a.queues = y.queues → P a → P (a.modifyPlan q (fun p => { p with head := y.queueHead q, test := none })) :=
    fun a ha hpa => h.plan a q _ hq (fun r => .inr (queueHead_of_queues ha q).symm) hpa
  unfold Yard.renewHead
  split
  · split
    · exact hy
    · dsimp only
      split
      · exact hwritten _ (queues_of_standing (Yard.standing_withdrawFor e q _ y)) (h.withdrawFor q _ hy)
      · exact hwritten _ rfl hy
  · exact hy

theorem evaluate (h : HeadClosed e S P) (hq : S q) (hy : P y) : P (y.evaluate e q) := by
  have hrenewed := h.renewHead hq hy
  unfold Yard.evaluate
  dsimp only
  split
  next hnil =>
    refine h.plan _ q _ hq (fun r => .inr ?_) hrenewed
    rw [queueHead_of_nil (List.head?_eq_none_iff.mp hnil)]
    rfl
  next en hen =>
    have hi : (y.renewHead e q).queueHead q = some en.slot := by rw [Yard.queueHead, hen]; rfl
    split
    · refine h.judgeHead hq ((queueHead_of_queues (queues_of_standing (Yard.standing_modifyPlan q _ _)) q).trans hi) ?_
      exact h.plan _ q _ hq (fun r => .inr hi.symm) hrenewed
    · exact hrenewed

theorem cancelManual (h : HeadClosed e S P) (hraised : ∀ {y : Yard} k n, P y → P (y.raise k n)) (p : PointIx) (hy : P y) :
    P (y.cancelManual e p) := by
  unfold Yard.cancelManual
  split
  · exact h.arbitrate (hraised _ _ (h.remove y p hy))
  · exact hy

theorem sectionNotClear (h : HeadClosed e S P) (hraised : ∀ {y : Yard} k n, P y → P (y.raise k n)) (hq : S q) (hy : P y) :
    P (y.sectionNotClear e q) := by
  unfold Yard.sectionNotClear
  split
  · exact h.arbitrate (h.plan _ q _ hq (fun r => .inl rfl) (h.remove y q hy))
  · exact h.cancelManual hraised q hy
  · exact hy

/-- A property of the traffic is kept by the loss of a point too. -/
theorem losePoint (h : HeadClosed e S P) (hsame : ∀ {y z : Yard}, SameTraffic y z → P y → P z) (hq : S q) (c : FaultCause) (hy : P y) :
    P (y.losePoint e q c) := by
  have hdropped : ∀ a : Yard, P a → P (a.dropLost e q) := fun a ha => by
    unfold Yard.dropLost
    split
    · exact h.dropWaiting q ha
    · exact h.cancelManual (fun _ _ => hsame ⟨rfl, rfl, rfl, rfl, rfl, rfl, rfl⟩) q ha
    · exact ha
  have hlost : ∀ a : Yard, P a → P ((((a.setPointState q (.lost c)).raisePoint q .lost).reportLost).evaluate e q) := fun a ha =>
    h.evaluate hq (hsame (.reportLost _) (hsame (y := a.setPointState q (.lost c)) ⟨rfl, rfl, rfl, rfl, rfl, rfl, rfl⟩
      (hsame (.setPointState q _ _) ha)))
  unfold Yard.losePoint
  dsimp only
  split
  · split
    · exact hy
    · refine hlost _ (hdropped _ ?_)
      split
      · exact h.arbitrate (hsame (y := y) ⟨rfl, rfl, rfl, rfl, rfl, rfl, rfl⟩ hy)
      · exact hy
  · exact hy

end HeadClosed

/-! ## The head cut of a planning record (R146) -/

/-- The cut heads the queue of the point and the record of its plan. -/
def Heads (q : PointIx) (i : SlotIx) (y : Yard) : Prop := y.queueHead q = some i ∧ (y.planOf q).map (fun r => r.head) = some (some i)

theorem Heads.congr (h : Heads q i y) (hqueues : z.queues = y.queues) (hplans : z.plans = y.plans) : Heads q i z := by
  rw [Heads, queueHead_of_queues hqueues, planOf_congr hplans]
  exact h

/-- A change of a plan that writes no other head than that of the queue. -/
theorem Heads.modifyPlan (h : Heads q i y) (p : PointIx) {f : Plan → Plan}
    (hf : ∀ r, (f r).head = r.head ∨ (f r).head = y.queueHead p) : Heads q i (y.modifyPlan p f) := by
  obtain ⟨hqueue, hplan⟩ := h
  refine ⟨(queueHead_of_queues (by simp) q).trans hqueue, ?_⟩
  obtain ⟨r, hr, hhead⟩ := Option.map_eq_some_iff.mp hplan
  rw [Yard.planOf_modifyPlan]
  split
  next heq =>
    subst heq
    rw [hr, Option.map_some, Option.map_some]
    obtain hf | hf := hf r
    · rw [hf, hhead]
    · rw [hf, hqueue]
  · exact hplan

theorem headClosed_heads (e : Env) (q : PointIx) (i : SlotIx) : HeadClosed e (fun _ => True) (Heads q i) where
  plan _ p _ _ hf hy := hy.modifyPlan p hf
  speed _ _ _ _ _ _ hy := hy.congr (by simp) (by simp)
  divert _ _ _ _ _ _ _ hy := hy.congr (queues_of_standing (by simp)) (planOf_divertInto _ _ _)
  remove _ _ hy := hy.congr rfl rfl
  pop _ _ _ hy _ := ⟨trivial, hy.congr rfl rfl⟩
  place _ _ _ _ hy := by
    unfold Yard.placeWaiting
    split
    all_goals exact hy.congr rfl rfl
  grant _ _ _ hy := by
    unfold Yard.grant Yard.grantPlanned
    repeat' split
    · exact (hy.congr (by simp) (by simp)).modifyPlan _ fun r => .inl rfl
    · exact hy.congr (by simp) (by simp)
    · exact hy

/-- An evaluation takes the head of the queue for the head cut of the plan. -/
theorem heads_evaluate {h : QueueEntry} {rest : List QueueEntry} (hq : y.queueOf q = h :: rest) (hplan : (y.planOf q).isSome = true) :
    Heads q h.slot (y.evaluate e q) := by
  have hclosed := headClosed_heads e q h.slot
  have hrenewed : Heads q h.slot (y.renewHead e q) := by
    have hhead := queueHead_of_cons hq
    have hwritten : ∀ a : Yard, a.queues = y.queues → (a.planOf q).isSome = true →
        Heads q h.slot (a.modifyPlan q (fun p => { p with head := y.queueHead q, test := none })) := fun a ha hsome => by
      obtain ⟨b, hb⟩ := Option.isSome_iff_exists.mp hsome
      refine ⟨(queueHead_of_queues (by simpa using ha) q).trans hhead, ?_⟩
      rw [Yard.planOf_modifyPlan, if_pos rfl, hb, hhead]
      rfl
    obtain ⟨r, hr⟩ := Option.isSome_iff_exists.mp hplan
    rw [Yard.renewHead, hr]
    dsimp only
    split
    next heq => exact ⟨hhead, by rw [hr, ← hhead, ← heq]; rfl⟩
    · cases r.head with
      | none => exact hwritten y rfl hplan
      | some k => exact hwritten _ (queues_of_standing (by simp)) ((planClosed_hasPlan e q).withdrawFor q k hplan)
  have hqueue := (queueOf_congr (queues_renewHead (e := e) q y) q).trans hq
  unfold Yard.evaluate
  dsimp only
  rw [hqueue]
  dsimp only [List.head?_cons]
  split
  next leg _ _ _ =>
    have hnamed : Heads q h.slot ((y.renewHead e q).modifyPlan q (fun r => { r with head := some h.slot, needed := some leg })) :=
      hrenewed.modifyPlan q fun r => .inr hrenewed.1.symm
    exact hclosed.judgeHead trivial hnamed.1 hnamed
  · exact hrenewed

/-! ## A cut that heads no queue (R146) -/

/-- The slot holds the record and heads no queue of the points of a set, which the waiting entries are for. -/
structure Headless (S : PointIx → Prop) (i : SlotIx) (o : Option Cut) (y : Yard) : Prop where
  queues : ∀ r, S r → y.queueHead r ≠ some i
  waiting : ∀ w ∈ y.waiting, S w.point
  cut : y.cutAt i = o

theorem Headless.congr {o : Option Cut} (h : Headless S i o y) (hqueues : z.queues = y.queues)
    (hwaiting : ∀ w ∈ z.waiting, w ∈ y.waiting ∨ S w.point) (hcut : z.cutAt i = y.cutAt i) : Headless S i o z :=
  ⟨fun r hr => by rw [queueHead_of_queues hqueues]; exact h.queues r hr, fun w hw => (hwaiting w hw).elim (h.waiting w) id,
    hcut.trans h.cut⟩

theorem mem_insertWaiting {now : Instant} {w v : Waiting} {l : List Waiting} (h : v ∈ insertWaiting now w l) : v ∈ l ∨ v = w := by
  rw [insertWaiting, List.mem_append, List.mem_cons] at h
  obtain h | h | h := h
  · exact .inl (List.takeWhile_subset _ h)
  · exact .inr h
  · exact .inl (List.dropWhile_subset _ h)

theorem mem_placeWaiting {w v : Waiting} (hv : v ∈ (y.placeWaiting e w).waiting) : v ∈ y.waiting ∨ v = w := by
  unfold Yard.placeWaiting at hv
  split at hv
  · exact .inl hv
  · exact mem_insertWaiting hv

theorem waiting_divertInto (l : Leg) (c : DiversionCause) (y : Yard) : (y.divertInto e i q l c).waiting = y.waiting :=
  (sameDrives_divertInto i q l c y).waiting

/-- The planner leaves such a cut alone. -/
theorem headClosed_headless (e : Env) (S : PointIx → Prop) (i : SlotIx) (o : Option Cut) : HeadClosed e S (Headless S i o) where
  plan y q f _ _ hy := hy.congr (by simp) (fun w hw => .inl (by simpa using hw)) (Yard.cutAt_congr (by simp) i)
  speed y q k n hq hk hy := by
    have hne : k ≠ i := fun heq => hy.queues q hq (heq ▸ hk)
    exact hy.congr (by simp) (fun w hw => .inl (by simpa using hw)) (by rw [Yard.cutAt_modifyStarted, if_neg hne])
  divert y q k l c hq hk hy := by
    have hne : k ≠ i := fun heq => hy.queues q hq (heq ▸ hk)
    exact hy.congr (queues_of_standing (by simp)) (fun w hw => .inl (by rwa [waiting_divertInto] at hw)) (cutAt_divertInto_of_ne hne y)
  remove _ _ hy := hy.congr rfl (fun w hw => .inl (List.mem_of_mem_filter hw)) rfl
  pop _ w _ hy hw := ⟨hy.waiting w (by rw [hw]; exact List.mem_cons_self),
    hy.congr rfl (fun v hv => .inl (by rw [hw]; exact List.mem_cons_of_mem _ hv)) rfl⟩
  place y w hw _ hy := hy.congr (SameTraffic.placeWaiting w y).queues
    (fun v hv => (mem_placeWaiting hv).imp_right fun heq => by rwa [heq]) ((SameTraffic.placeWaiting w y).cutAt i)
  grant _ w _ hy := hy.congr (queues_of_standing (by simp)) (fun v hv => .inl (by rwa [waiting_grant] at hv))
    (Yard.cutAt_congr (slots_grant w _) i)

/-- The cut heads no queue at all. -/
theorem headless_everywhere {o : Option Cut} (h : ∀ r, y.queueHead r ≠ some i) (hc : y.cutAt i = o) : Headless (fun _ => True) i o y :=
  ⟨fun r _ => h r, fun _ _ => trivial, hc⟩

theorem Headless.traffic {o : Option Cut} (h : SameTraffic y z) (hy : Headless (fun _ => True) i o y) : Headless (fun _ => True) i o z :=
  hy.congr h.queues (fun _ _ => .inr trivial) (h.cutAt i)

/-! ## A point that the planner goes by (R148) -/

/-- The point has no entry, and its record and plan stand. -/
structure Apart (q : PointIx) (pt : Option Point) (r : Option Plan) (y : Yard) : Prop where
  absent : Absent q y
  point : y.pointOf q = pt
  plan : y.planOf q = r

theorem Apart.congr {pt : Option Point} {r : Option Plan} (h : Apart q pt r y) (hwaiting : ∀ w ∈ z.waiting, w ∈ y.waiting ∨ w.point ≠ q)
    (hpoint : z.pointOf q = y.pointOf q) (hplan : z.planOf q = y.planOf q) : Apart q pt r z :=
  ⟨fun w hw => (hwaiting w hw).elim (h.absent w) id, hpoint.trans h.point, hplan.trans h.plan⟩

/-- The planner at other points leaves such a point alone. -/
theorem headClosed_apart (e : Env) (q : PointIx) (pt : Option Point) (r : Option Plan) : HeadClosed e (· ≠ q) (Apart q pt r) where
  plan y p f hp _ hy := hy.congr (fun w hw => .inl (by simpa using hw)) (Yard.pointOf_congr (by simp) q)
    (by rw [Yard.planOf_modifyPlan, if_neg hp])
  speed y p k n _ _ hy := hy.congr (fun w hw => .inl (by simpa using hw)) (Yard.pointOf_congr (by simp) q) (planOf_congr (by simp) q)
  divert y p k l c _ _ hy := hy.congr (fun w hw => .inl (by rwa [waiting_divertInto] at hw))
    (Yard.pointOf_congr (sameDrives_divertInto k p l c y).points q) (planOf_congr (planOf_divertInto l c y) q)
  remove _ _ hy := hy.congr (fun w hw => .inl (List.mem_of_mem_filter hw)) rfl rfl
  pop y w rest hy hw := ⟨hy.absent w (by rw [hw]; exact List.mem_cons_self),
    hy.congr (fun v hv => .inl (by rw [hw]; exact List.mem_cons_of_mem _ hv)) rfl rfl⟩
  place y w hw _ hy := by
    refine hy.congr (fun v hv => (mem_placeWaiting hv).imp_right fun heq => by rwa [heq]) ?_ ?_
    all_goals
      unfold Yard.placeWaiting
      split <;> rfl
  grant y w hw hy := hy.congr (fun v hv => .inl (by rwa [waiting_grant] at hv)) (pointOf_grant_of_ne hw) (planOf_grant_of_ne hw y)

/-! ## A point that is not tested (R148, R149) -/

/-- An evaluation that moves no point and makes no entry. -/
structure Quiet (q : PointIx) (y z : Yard) : Prop where
  drives : SameDrives y z
  standing : z.standing = y.standing
  plans : ∀ p, p ≠ q → z.planOf p = y.planOf p
  cuts : ∀ j, y.queueHead q ≠ some j → z.cutAt j = y.cutAt j

theorem Quiet.modifyPlan (h : Quiet q y z) (f : Plan → Plan) : Quiet q y (z.modifyPlan q f) :=
  ⟨h.drives.trans (sameDrives_modifyPlan q f z), (Yard.standing_modifyPlan q f z).trans h.standing,
    fun p hp => by rw [Yard.planOf_modifyPlan, if_neg (Ne.symm hp)]; exact h.plans p hp,
    fun j hj => (Yard.cutAt_congr (by simp) j).trans (h.cuts j hj)⟩

theorem Quiet.refl (q : PointIx) (y : Yard) : Quiet q y y := ⟨⟨rfl, rfl, rfl, rfl⟩, rfl, fun _ _ => rfl, fun _ _ => rfl⟩

theorem Quiet.absent (h : Quiet q y z) (hy : Absent q y) : Absent q z := hy.of_waiting h.drives.waiting

theorem Quiet.queueHead (h : Quiet q y z) (p : PointIx) : z.queueHead p = y.queueHead p := queueHead_of_queues (queues_of_standing h.standing) p

/-- A point without an entry, whose section is not CLEAR, is not tested and not thrown. -/
theorem quiet_evaluate (e : Env) (h : Absent q y) (hclear : y.sectionClear (.point q) = false) : Quiet q y (y.evaluate e q) := by
  have hrenewed : Quiet q y (y.renewHead e q) := by
    unfold Yard.renewHead
    split
    · split
      · exact .refl q y
      · dsimp only
        split
        · rw [withdrawFor_of_absent (waitingOf_of_absent h)]
          exact (Quiet.refl q y).modifyPlan _
        · exact (Quiet.refl q y).modifyPlan _
    · exact .refl q y
  unfold Yard.evaluate
  dsimp only
  split
  · exact hrenewed.modifyPlan _
  next en hen =>
    split
    next pt cfg leg _ _ _ =>
      have hnamed := hrenewed.modifyPlan (fun r => { r with head := some en.slot, needed := some leg })
      have hhead : (y.renewHead e q).queueHead q = some en.slot := by rw [Yard.queueHead, hen]; rfl
      generalize (y.renewHead e q).modifyPlan q (fun r => { r with head := some en.slot, needed := some leg }) = z at hnamed
      have hnone := waitingOf_of_absent (hnamed.absent h)
      unfold Yard.judgeHead
      split
      · rw [withdrawDeadline_of_absent hnone]
        exact hnamed.modifyPlan _
      · exact hnamed.modifyPlan _
      · split
        · rw [Yard.divertAtHead, withdrawFor_of_absent hnone]
          exact ⟨hnamed.drives.trans (sameDrives_divertEarly _ _ _ _), (Yard.standing_divertEarly e q _ _ z).trans hnamed.standing,
            fun p hp => (planOf_divertEarly_of_ne (Ne.symm hp) z).trans (hnamed.plans p hp),
            fun j hj => (cutAt_divertEarly_of_ne (fun heq => hj (by rw [← hrenewed.queueHead q, hhead, heq])) z).trans (hnamed.cuts j hj)⟩
        · have hshut : z.sectionClear (.point q) = false := by
            rw [← hclear]
            unfold Yard.sectionClear Yard.sectionState
            rw [sectionOf_of_standing hnamed.standing]
          rw [hshut, if_neg Bool.false_ne_true]
          exact hnamed.modifyPlan _
    · exact hrenewed

end Sys2Proof.Proofs
end


section
/-! PROOFS. The start and the end of freeze (R170), and what its end tells the planner. -/

namespace Sys2Proof.Proofs

open Sys2Proof Sys2Proof.Machine Sys2Proof.Spec

variable {e : Env} {y z : Yard} {s : State} {i j : SlotIx} {p q : PointIx}

/-! ## Every point with a queue is evaluated (R146) -/

/-- A point with a queue is evaluated, one without is not. -/
def evaluateQueued (e : Env) (y : Yard) (q : PointIx) : Yard := if (y.queueOf q).isEmpty then y else y.evaluate e q

theorem evaluateHeads_eq (y : Yard) : y.evaluateHeads e = (List.finRange 40).foldl (evaluateQueued e) y := rfl

theorem heads_foldl (l : List PointIx) (h : Heads p i y) : Heads p i (l.foldl (evaluateQueued e) y) := by
  induction l generalizing y with
  | nil => exact h
  | cons q l ih =>
    refine ih ?_
    unfold evaluateQueued
    split
    · exact h
    · exact (headClosed_heads e p i).evaluate trivial h

theorem head_foldl (l : List PointIx) (hq : y.queueHead p = some i) (hp : (y.planOf p).isSome = true) :
    (l.foldl (evaluateQueued e) y).queueHead p = some i ∧ ((l.foldl (evaluateQueued e) y).planOf p).isSome = true := by
  induction l generalizing y with
  | nil => exact ⟨hq, hp⟩
  | cons q l ih =>
    refine ih ?_ ?_
    all_goals
      unfold evaluateQueued
      split
    · exact hq
    · exact (queueHead_of_queues (queues_of_standing (Yard.standing_evaluate e q y)) p).trans hq
    · exact hp
    · exact (planClosed_hasPlan e p).evaluate q hp

/-- Every point with a queue is evaluated, and its planning record names the head. -/
theorem heads_evaluateHeads (hq : y.queueHead p = some i) (hp : (y.planOf p).isSome = true) :
    Heads p i (y.evaluateHeads e) := by
  obtain ⟨before, behind, hsplit⟩ := List.append_of_mem (List.mem_finRange p)
  obtain ⟨hhead, hplan⟩ := head_foldl (e := e) before hq hp
  rw [evaluateHeads_eq, hsplit, List.foldl_append, List.foldl_cons]
  refine heads_foldl behind ?_
  generalize before.foldl (evaluateQueued e) y = z at *
  unfold evaluateQueued
  cases hqueue : z.queueOf p with
  | nil =>
    rw [queueHead_of_nil hqueue] at hhead
    cases hhead
  | cons h rest =>
    rw [queueHead_of_cons hqueue, Option.some.injEq] at hhead
    rw [← hhead]
    exact heads_evaluate hqueue hplan

/-! ## Start and end of freeze (R170) -/

theorem exec_freeze {line : LineIx} {k : Fin 4} (hdue : (Table.look s.lines line).due = true)
    (hrole : (Table.look s.lines line).role = .freezeKey k) :
    exec (.filteredTransition line) s = .next (({ s with lines := takeDue s.lines .freeze }).withYard
      (s.yard.reportFreeze s.env (freezeCondition (takeDue s.lines .freeze)))) := by
  rw [exec_transition hdue, hrole]
  rfl

theorem freezeStart_spec (y : Yard) : y.freezeStart.control.freezeFlag = true ∧ Raised y.freezeStart .device 3 ∧
    y.freezeStart.points = y.points ∧ y.freezeStart.drive = y.drive ∧ y.freezeStart.waiting = y.waiting ∧
    (y.control.mode = .humping →
      y.freezeStart.control.mode = .halted ∧ y.freezeStart.control.halt = y.control.halt ||| reasonBit 6) := by
  refine ⟨?_, Raised.enterCause (raised_raiseDevice .freezeOn _) _, by simp [Yard.freezeStart], by simp [Yard.freezeStart],
    by simp [Yard.freezeStart], fun hm => ?_⟩
  · unfold Yard.freezeStart Yard.enterCause
    split <;> rfl
  · rw [Yard.freezeStart, enterCause_of_humping .freeze (by simpa [Yard.modifyControl] using hm)]
    exact ⟨rfl, rfl⟩

/-- The yard with freeze over, before the arbiter and the planner go on. -/
def thawed (y : Yard) : Yard := (y.modifyControl (fun m => { m with freezeFlag := false })).raiseDevice .freezeOff

theorem freezeEnd_eq (y : Yard) :
    y.freezeEnd e = if y.control.mode = .setup then thawed y else ((thawed y).arbitrate e).evaluateHeads e := rfl

theorem standing_freezeEnd (y : Yard) : (y.freezeEnd e).standing = (thawed y).standing := by
  rw [freezeEnd_eq]
  split
  · rfl
  · rw [standing_evaluateHeads, Yard.standing_arbitrate]

theorem raised_freezeEnd (y : Yard) : Raised (y.freezeEnd e) .device 4 := by
  have hraised : Raised (thawed y) .device 4 := raised_raiseDevice .freezeOff _
  have hclosed := planClosed_raised e .device 4
  rw [freezeEnd_eq]
  split
  · exact hraised
  · exact hclosed.evaluateHeads (hclosed.arbitrate hraised)

theorem freezeEnd_moving {x : Point} (hx : y.pointOf p = some x) (hm : x.state.inMotion = true) :
    (y.freezeEnd e).pointOf p = some x := by
  have hclosed := planClosed_moving_kept e p x (fun l => Table.look y.drive (driveLine p l)) hm
  have hthawed : (thawed y).pointOf p = some x ∧ ∀ l, Table.look (thawed y).drive (driveLine p l) = Table.look y.drive (driveLine p l) :=
    ⟨hx, fun l => rfl⟩
  rw [freezeEnd_eq]
  split
  · exact hthawed.1
  · exact (hclosed.evaluateHeads (hclosed.arbitrate hthawed)).1

theorem freezeEnd_heads {r : Plan} (hm : y.control.mode ≠ .setup) (hq : y.queueHead q = some i) (hr : y.planOf q = some r) :
    ((y.freezeEnd e).planOf q).map (fun a => a.head) = some (some i) := by
  rw [freezeEnd_eq, if_neg hm]
  refine (heads_evaluateHeads ?_ ?_).2
  · exact (queueHead_of_queues (queues_of_standing (Yard.standing_arbitrate e (thawed y))) q).trans hq
  · exact (planClosed_hasPlan e q).arbitrate (y := thawed y) (by rw [show (thawed y).planOf q = some r from hr]; rfl)

/-- The first entry of the list is granted as freeze ends, and its throw goes on. -/
theorem freezeEnd_grants {w : Waiting} {rest : List Waiting} {x : Point} {m : Leg} {cfg : PointConfig} (hsetup : y.control.mode ≠ .setup)
    (hw : y.waiting = w :: rest) (hslots : y.slotsInUse < e.ladder.consts.slots) (hx : y.pointOf w.point = some x)
    (hm : x.state.lie = some m) (hb : x.barred = false) (hclear : y.sectionClear (.point w.point) = true)
    (hcfg : e.ladder.config w.point = some cfg) (hexp : ∀ d i, w.claim = .deadline d i → laterThan e.now d = false) :
    (y.freezeEnd e).pointOf w.point =
      some { x with state := .moving w.target m (e.now + BitVec.ofNat 32 (10 * cfg.tThrow)) w.claim.kind } := by
  have hel : (thawed y).eligible w = true := by
    rw [eligible_eq (show (thawed y).pointOf w.point = some x from hx), hm, hb]
    exact hclear
  have hlie : ({ thawed y with waiting := rest } : Yard).pointLie w.point = some m :=
    (pointLie_of_pointOf (y := { thawed y with waiting := rest }) hx).trans hm
  have hgranted := pointOf_grant (e := e) (w := w) (y := { thawed y with waiting := rest }) hx hm
  rw [throwTicks_of_config hcfg] at hgranted
  have hclosed := planClosed_moving_kept e w.point
    { x with state := .moving w.target m (e.now + BitVec.ofNat 32 (10 * cfg.tThrow)) w.claim.kind } (fun l => w.target == l) rfl
  rw [freezeEnd_eq, if_neg hsetup, arbitrate_granted (y := thawed y) hw hslots rfl (notExpired_of_claim hexp) hel]
  exact (hclosed.evaluateHeads (hclosed.arbitrate ⟨hgranted, fun l => by rw [drive_grant hlie, if_pos rfl]⟩)).1

/-- Settles O27: freeze starts as a cause of the mode controller; its end lets the arbiter, then the planner go on. -/
theorem freezeStartHaltsHump : Obligations.FreezeStartHaltsHump := by
  refine ⟨fun line k s hdue hrole hflag hcond => ?_, fun line k s hdue hrole hflag hcond => ?_⟩
  all_goals have hexec := exec_freeze hdue hrole
  all_goals rw [hcond, Yard.reportFreeze, hflag] at hexec
  · rw [if_neg Bool.noConfusion, if_pos rfl] at hexec
    obtain ⟨hon, hraised, hpoints, hdrive, hwaiting, hhalts⟩ := freezeStart_spec s.yard
    generalize s.yard.freezeStart = z at *
    refine ⟨_, hexec, hon, hraised, ?_, hpoints, hdrive, hwaiting, hhalts⟩
    by_contra hpermit
    obtain ⟨-, hoff, -⟩ := (permitLaw_withYard { s with lines := takeDue s.lines .freeze } z).mp (by simpa using hpermit)
    rw [show (State.withYard { s with lines := takeDue s.lines .freeze } z).yard.control.freezeFlag = true from hon] at hoff
    cases hoff
  · rw [if_neg Bool.noConfusion, if_neg Bool.noConfusion] at hexec
    obtain ⟨hlead, hsections, hqueues, -, -, -, -, hcontrol⟩ := Yard.standing_ext (standing_freezeEnd (e := s.env) s.yard)
    have hsetup : s.mode = .setup → s.yard.freezeEnd s.env = thawed s.yard := fun hm => by rw [freezeEnd_eq]; exact if_pos hm
    have hraised := raised_freezeEnd (e := s.env) s.yard
    have hmoving := fun p x => freezeEnd_moving (e := s.env) (y := s.yard) (p := p) (x := x)
    have hheads := fun q i r => freezeEnd_heads (e := s.env) (y := s.yard) (q := q) (i := i) (r := r)
    have hgrants := fun w rest x m cfg => freezeEnd_grants (e := s.env) (y := s.yard) (w := w) (rest := rest) (x := x) (m := m) (cfg := cfg)
    generalize s.yard.freezeEnd s.env = z at *
    refine ⟨_, hexec, ?_, hraised, ?_, ?_, hlead, hsections, hqueues, rfl, fun hm => ?_, fun hm => ⟨hmoving,
      fun q i r => hheads q i r hm, fun w rest x m cfg => hgrants w rest x m cfg hm⟩⟩
    · exact congrArg (fun c => c.freezeFlag) hcontrol
    · exact congrArg (fun c => c.mode) hcontrol
    · exact congrArg (fun c => c.halt) hcontrol
    · rw [hsetup hm]
      exact ⟨rfl, rfl, rfl⟩

end Sys2Proof.Proofs
end


section
/-! PROOFS. The resolution of a destination by closure and room (R113). -/

namespace Sys2Proof.Proofs

open Sys2Proof Sys2Proof.Machine Sys2Proof.Spec

variable {y : Yard} {l : Ladder} {t r : TrackIx} {axles : Nat} {cause : Option ResolutionCause}

/-- Steps 2 and 3 of R113 for the track that step 1 gives. -/
def judgedTrack (y : Yard) (l : Ladder) (axles : Nat) (r : TrackIx × Option ResolutionCause) : TrackIx × Option ResolutionCause :=
  if y.closed l r.1 then (l.rejectTrack, some .trackClosed)
  else if l.hasRoom r.1 (y.trackOf r.1) (y.trackOf r.1).reserved axles then r
  else (l.rejectTrack, some .trackFull)

theorem resolution_block (code : Byte) : y.resolution l (.block code) axles = judgedTrack y l axles (y.lookup l code) := rfl

theorem resolution_track : y.resolution l (.track t) axles =
    if l.trackInUse t then judgedTrack y l axles (t, none) else (l.rejectTrack, some .noBlock) := rfl

theorem rejectTrack_of_some (h : l.consts.reject = some r) : l.rejectTrack = r := by rw [Ladder.rejectTrack, h, Option.getD_some]

theorem isReject_iff (h : l.consts.reject = some r) : l.isReject t = true ↔ t = r := by
  rw [Ladder.isReject, h, beq_iff_eq, Option.some.injEq, eq_comm]

/-- What the two tests answer, by closure and room; the reject track passes both. -/
theorem judgedTrack_spec (h : l.consts.reject = some r) :
    (t = r → judgedTrack y l axles (t, cause) = (r, cause)) ∧
      (t ≠ r → y.covered l t = true → judgedTrack y l axles (t, cause) = (r, some .trackClosed)) ∧
      (t ≠ r → y.covered l t = false → 0 < (y.trackOf t).capacity →
        (y.trackOf t).capacity < (y.trackOf t).fill + (y.trackOf t).reserved + axles →
        judgedTrack y l axles (t, cause) = (r, some .trackFull)) ∧
      (t ≠ r → y.covered l t = false →
        ((y.trackOf t).capacity = 0 ∨ (y.trackOf t).fill + (y.trackOf t).reserved + axles ≤ (y.trackOf t).capacity) →
        judgedTrack y l axles (t, cause) = (t, cause)) := by
  have hreject : t ≠ r → l.isReject t = false := fun hne => by
    rw [Bool.eq_false_iff]
    exact fun h' => hne ((isReject_iff h).mp h')
  refine ⟨fun heq => ?_, fun hne hc => ?_, fun hne hc h0 hfull => ?_, fun hne hc hroom => ?_⟩
  · subst heq
    have hyes : l.isReject t = true := (isReject_iff h).mpr rfl
    simp [judgedTrack, Yard.closed, Ladder.hasRoom, hyes]
  · simp [judgedTrack, Yard.closed, hreject hne, hc, rejectTrack_of_some h]
  · have hnot : ¬ (y.trackOf t).fill + (y.trackOf t).reserved + axles ≤ (y.trackOf t).capacity := by omega
    have hpos : ¬ (y.trackOf t).capacity = 0 := by omega
    simp [judgedTrack, Yard.closed, Ladder.hasRoom, hreject hne, hc, hnot, hpos, rejectTrack_of_some h]
  · simp only [judgedTrack, Yard.closed, Ladder.hasRoom, hreject hne, hc, Bool.false_and, Bool.false_or, Bool.or_eq_true, beq_iff_eq,
      decide_eq_true_eq, if_pos hroom, if_neg Bool.false_ne_true]

/-- Settles O43: a block code is judged at the track of its lookup, a direct track in use at itself. -/
theorem directTrackResolvesByClosureAndRoom : Obligations.DirectTrackResolvesByClosureAndRoom := by
  refine ⟨fun y l code t r cause axles hr hlookup => ?_, fun y l t r axles hr => ⟨fun hunused => ?_, fun hused => ?_⟩⟩
  · rw [resolution_block, hlookup]
    exact judgedTrack_spec hr
  · rw [resolution_track, hunused, rejectTrack_of_some hr]
    rfl
  · rw [resolution_track, if_pos hused]
    exact judgedTrack_spec hr

end Sys2Proof.Proofs
end


section
/-! PROOFS. The configuration requests SET POINT, SET YARD (R8 to R12) and SET LINE (R22 to R29). -/

namespace Sys2Proof.Proofs

open Sys2Proof Sys2Proof.Machine Sys2Proof.Spec

variable {s : State}

/-! ## Coded fields (R184) -/

theorem yesNo?_eq_none_iff {b : Byte} : yesNo? b = none ↔ ¬ b.toNat ≤ 1 := by rw [yesNo?_eq_none, Nat.not_le]

theorem target?_eq_none {k i : Byte} : target? k i = none ↔ ¬ TargetInRange k i := by
  unfold target? TargetInRange point? track?
  split_ifs with h0 h1 h2
  · simp [h0]
  · simp [h1, index?_eq_none, Nat.lt_iff_add_one_le]
  · simp [h2, index?_eq_none, Nat.lt_iff_add_one_le]
  · refine iff_of_true rfl ?_
    rintro (h | ⟨h, -⟩ | ⟨h, -⟩) <;> contradiction

theorem trackOrNone?_eq_none {b : Byte} : trackOrNone? b = none ↔ ¬ TrackOrNoneInRange b := by
  unfold trackOrNone? TrackOrNoneInRange track?
  split_ifs with h
  · simp [h]
  · rw [Option.map_eq_none_iff, index?_eq_none, not_or]
    exact ⟨fun hb => ⟨h, by omega⟩, fun ⟨_, hb⟩ => by omega⟩

/-- A field in range is read. -/
theorem exists_of_inRange {α : Type} {o : Option α} {P : Prop} (h : o = none ↔ ¬ P) (hp : P) : ∃ a, o = some a :=
  Option.ne_none_iff_exists'.mp fun hn => h.mp hn hp

theorem index?_ofNat {n : Nat} (hn : n ≤ 256) (i : Fin n) : index? n (BitVec.ofNat 8 i.val) = some i :=
  index?_eq_some.mpr (by rw [BitVec.toNat_ofNat]; omega)

theorem index?_of_lt {n : Nat} {b : Byte} (h : b.toNat < n) : index? n b = some ⟨b.toNat, h⟩ := index?_eq_some.mpr rfl

theorem target?_code (t : Target) : target? (targetCode t).1 (targetCode t).2 = some t := by
  cases t with
  | none => rfl
  | point p => exact congrArg (Option.map Target.point) (index?_ofNat (by decide) p)
  | track u => exact congrArg (Option.map Target.track) (index?_ofNat (by decide) u)

theorem trackOrNone?_code (t : Option TrackIx) : trackOrNone? (trackCode t) = some t := by
  cases t with
  | none => rfl
  | some u =>
    have hne : BitVec.ofNat 8 u.val ≠ 255 := by
      intro h
      have hnat := congrArg BitVec.toNat h
      rw [BitVec.toNat_ofNat] at hnat
      have hlt := u.isLt
      simp at hnat
      omega
    rw [trackCode, trackOrNone?, if_neg hne, track?, index?_ofNat (by decide) u]
    rfl

/-! ## The first field out of range -/

/-- The field with a number is the first that fails. -/
def FirstFailing (P : Nat → Prop) (n : Nat) : Prop := ¬ P n ∧ ∀ m, m < n → P m

theorem FirstFailing.unique {P : Nat → Prop} {n m : Nat} (hn : FirstFailing P n) (hm : FirstFailing P m) : n = m := by
  obtain ⟨hbad, hbelow⟩ := hn
  obtain ⟨hbad', hbelow'⟩ := hm
  rcases lt_trichotomy n m with h | h | h
  · exact absurd (hbelow' n h) hbad
  · exact h
  · exact absurd (hbelow m h) hbad'

section Point

variable (f : PointFields)

/-- The fields of SET POINT from 2 on are read in their order: to the first that fails, or to a record in range (R8, R9). -/
theorem pointConfig?_cases (h0 : PointFieldInRange f 0) (h1 : PointFieldInRange f 1) :
    (∃ n, pointConfig? f = .error n ∧ FirstFailing (PointFieldInRange f) n) ∨
      ∃ c, pointConfig? f = .ok c ∧ PointInRange c ∧ ∀ n, PointFieldInRange f n := by
  by_cases h2 : PointFieldInRange f 2
  case neg =>
    refine .inl ⟨2, ?_, h2, fun m hm => by interval_cases m <;> assumption⟩
    rw [pointConfig?, yesNo?_eq_none_iff.mpr h2]
  obtain ⟨root, hroot⟩ := exists_of_inRange yesNo?_eq_none_iff h2
  by_cases h3 : PointFieldInRange f 3
  case neg =>
    refine .inl ⟨3, ?_, h3, fun m hm => by interval_cases m <;> assumption⟩
    simp only [pointConfig?, hroot, target?_eq_none.mpr h3]
  obtain ⟨normal, hnormal⟩ := exists_of_inRange target?_eq_none h3
  by_cases h4 : PointFieldInRange f 4
  case neg =>
    refine .inl ⟨4, ?_, h4, fun m hm => by interval_cases m <;> assumption⟩
    simp only [pointConfig?, hroot, hnormal, target?_eq_none.mpr h4]
  obtain ⟨reverse, hreverse⟩ := exists_of_inRange target?_eq_none h4
  have field {lo hi n : Nat} (h : ¬ (lo ≤ n ∧ n ≤ hi)) : inRange lo hi n = false := by
    rw [Bool.eq_false_iff, ne_eq, inRange_iff]
    exact h
  by_cases h5 : PointFieldInRange f 5
  case neg =>
    refine .inl ⟨5, ?_, h5, fun m hm => by interval_cases m <;> assumption⟩
    simp [pointConfig?, hroot, hnormal, hreverse, field h5]
  by_cases h6 : PointFieldInRange f 6
  case neg =>
    refine .inl ⟨6, ?_, h6, fun m hm => by interval_cases m <;> assumption⟩
    simp [pointConfig?, hroot, hnormal, hreverse, inRange_iff.mpr h5, field h6]
  by_cases h7 : PointFieldInRange f 7
  case neg =>
    refine .inl ⟨7, ?_, h7, fun m hm => by interval_cases m <;> assumption⟩
    simp [pointConfig?, hroot, hnormal, hreverse, inRange_iff.mpr h5, inRange_iff.mpr h6,
      field (lo := 0) (hi := 50) (n := f.grade.toNat) fun h => h7 h.2]
  have hgrade : inRange 0 50 f.grade.toNat = true := inRange_iff.mpr ⟨Nat.zero_le _, h7⟩
  by_cases h8 : PointFieldInRange f 8
  case neg =>
    refine .inl ⟨8, ?_, h8, fun m hm => by interval_cases m <;> assumption⟩
    simp [pointConfig?, hroot, hnormal, hreverse, inRange_iff.mpr h5, inRange_iff.mpr h6, hgrade, trackOrNone?_eq_none.mpr h8]
  obtain ⟨nf, hnf⟩ := exists_of_inRange trackOrNone?_eq_none h8
  by_cases h9 : PointFieldInRange f 9
  case neg =>
    refine .inl ⟨9, ?_, h9, fun m hm => by interval_cases m <;> assumption⟩
    simp [pointConfig?, hroot, hnormal, hreverse, inRange_iff.mpr h5, inRange_iff.mpr h6, hgrade, hnf, trackOrNone?_eq_none.mpr h9]
  obtain ⟨rf, hrf⟩ := exists_of_inRange trackOrNone?_eq_none h9
  by_cases h10 : PointFieldInRange f 10
  case neg =>
    refine .inl ⟨10, ?_, h10, fun m hm => by interval_cases m <;> assumption⟩
    simp [pointConfig?, hroot, hnormal, hreverse, inRange_iff.mpr h5, inRange_iff.mpr h6, hgrade, hnf, hrf, field h10]
  refine .inr ⟨_, by simp [pointConfig?, hroot, hnormal, hreverse, inRange_iff.mpr h5, inRange_iff.mpr h6, hgrade, hnf, hrf,
    inRange_iff.mpr h10]; rfl, ?_, fun n => ?_⟩
  · obtain ⟨hlow5, hhigh5⟩ := h5
    obtain ⟨hlow6, hhigh6⟩ := h6
    obtain ⟨hlow10, hhigh10⟩ := h10
    exact ⟨hlow5, hhigh5, hlow6, hhigh6, h7, hlow10, hhigh10⟩
  · by_cases hn : n ≤ 10
    · interval_cases n <;> assumption
    · match n, hn with
      | k + 11, _ => trivial

variable {f}

theorem pointConfig?_fields (p : PointIx) {c : PointConfig} (h : PointInRange c) : pointConfig? (pointFields p c) = .ok c := by
  obtain ⟨h1, h2, h3, h4, h5, h6, h7⟩ := h
  have hd : (BitVec.ofNat 16 c.dApp).toNat = c.dApp := by rw [BitVec.toNat_ofNat]; omega
  have ht : (BitVec.ofNat 16 c.tThrow).toNat = c.tThrow := by rw [BitVec.toNat_ofNat]; omega
  have hg : (BitVec.ofNat 8 c.grade).toNat = c.grade := by rw [BitVec.toNat_ofNat]; omega
  have hs : (BitVec.ofNat 16 c.stall).toNat = c.stall := by rw [BitVec.toNat_ofNat]; omega
  have hin {lo hi n : Nat} (hlo : lo ≤ n) (hhi : n ≤ hi) : inRange lo hi n = true := inRange_iff.mpr ⟨hlo, hhi⟩
  simp only [pointConfig?, pointFields, yesNo?_boolCode, target?_code, hd, ht, hg, hs, hin h1 h2, hin h3 h4, hin (Nat.zero_le _) h5,
    hin h6 h7, trackOrNone?_code, Bool.not_true, Bool.false_eq_true, if_false]

end Point

section Yard

variable (f : YardFields)

/-- The fields of SET YARD are read in their order: to the first that fails, or to all (R11, R12). -/
theorem constants?_cases : (∃ n, constants? f = .error n ∧ FirstFailing (YardFieldInRange f) n) ∨
    ∃ k, constants? f = .ok k ∧ ∀ n, YardFieldInRange f n := by
  have h0 : YardFieldInRange f 0 := trivial
  have field {lo hi n : Nat} (h : ¬ (lo ≤ n ∧ n ≤ hi)) : inRange lo hi n = false := by
    rw [Bool.eq_false_iff, ne_eq, inRange_iff]
    exact h
  by_cases h1 : YardFieldInRange f 1
  case neg =>
    refine .inl ⟨1, ?_, h1, fun m hm => by interval_cases m; assumption⟩
    simp [constants?, field h1]
  by_cases h2 : YardFieldInRange f 2
  case neg =>
    refine .inl ⟨2, ?_, h2, fun m hm => by interval_cases m <;> assumption⟩
    simp [constants?, inRange_iff.mpr h1, field (lo := 0) (hi := 1000) (n := f.guard.toNat) fun h => h2 h.2]
  have hguard : inRange 0 1000 f.guard.toNat = true := inRange_iff.mpr ⟨Nat.zero_le _, h2⟩
  by_cases h3 : YardFieldInRange f 3
  case neg =>
    refine .inl ⟨3, ?_, h3, fun m hm => by interval_cases m <;> assumption⟩
    simp [constants?, inRange_iff.mpr h1, hguard, field h3]
  have hcouple : YardFieldInRange f 4 ↔ inRange 50 (f.gIn.toNat - 50) f.gCpl.toNat = true := by
    obtain ⟨hlow, -⟩ := h3
    rw [inRange_iff]
    change _ ∧ _ ↔ _
    omega
  by_cases h4 : YardFieldInRange f 4
  case neg =>
    refine .inl ⟨4, ?_, h4, fun m hm => by interval_cases m <;> assumption⟩
    simp [constants?, inRange_iff.mpr h1, hguard, inRange_iff.mpr h3, Bool.eq_false_iff.mpr fun h => h4 (hcouple.mpr h)]
  by_cases h5 : YardFieldInRange f 5
  case neg =>
    refine .inl ⟨5, ?_, h5, fun m hm => by interval_cases m <;> assumption⟩
    simp [constants?, inRange_iff.mpr h1, hguard, inRange_iff.mpr h3, hcouple.mp h4, field h5]
  by_cases h6 : YardFieldInRange f 6
  case neg =>
    refine .inl ⟨6, ?_, h6, fun m hm => by interval_cases m <;> assumption⟩
    simp [constants?, inRange_iff.mpr h1, hguard, inRange_iff.mpr h3, hcouple.mp h4, inRange_iff.mpr h5, field h6]
  by_cases h7 : YardFieldInRange f 7
  case neg =>
    refine .inl ⟨7, ?_, h7, fun m hm => by interval_cases m <;> assumption⟩
    simp [constants?, inRange_iff.mpr h1, hguard, inRange_iff.mpr h3, hcouple.mp h4, inRange_iff.mpr h5, inRange_iff.mpr h6,
      trackOrNone?_eq_none.mpr h7]
  obtain ⟨reject, hreject⟩ := exists_of_inRange trackOrNone?_eq_none h7
  by_cases h8 : YardFieldInRange f 8
  case neg =>
    refine .inl ⟨8, ?_, h8, fun m hm => by interval_cases m <;> assumption⟩
    simp [constants?, inRange_iff.mpr h1, hguard, inRange_iff.mpr h3, hcouple.mp h4, inRange_iff.mpr h5, inRange_iff.mpr h6, hreject,
      trackOrNone?_eq_none.mpr h8]
  obtain ⟨default, hdefault⟩ := exists_of_inRange trackOrNone?_eq_none h8
  refine .inr ⟨_, by simp [constants?, inRange_iff.mpr h1, hguard, inRange_iff.mpr h3, hcouple.mp h4, inRange_iff.mpr h5,
    inRange_iff.mpr h6, hreject, hdefault]; rfl, fun n => ?_⟩
  by_cases hn : n ≤ 8
  · interval_cases n <;> assumption
  · match n, hn with
    | k + 9, _ => trivial

theorem constants?_fields {k : Constants} (h : ConstantsInRange k) : constants? (yardFields k) = .ok k := by
  obtain ⟨h1, h2, h3, h4, h5, h6, h7, h8, h9, h10, h11⟩ := h
  have hword {n : Nat} (hn : n ≤ 10000) : (BitVec.ofNat 16 n).toNat = n := by rw [BitVec.toNat_ofNat]; omega
  have hspacing : (BitVec.ofNat 8 k.spacing).toNat = k.spacing := by rw [BitVec.toNat_ofNat]; omega
  have hslots : (BitVec.ofNat 8 k.slots).toNat = k.slots := by rw [BitVec.toNat_ofNat]; omega
  have hin {lo hi n : Nat} (hlo : lo ≤ n) (hhi : n ≤ hi) : inRange lo hi n = true := inRange_iff.mpr ⟨hlo, hhi⟩
  simp only [constants?, yardFields, hspacing, hslots, hword (show k.guard ≤ 10000 by omega), hword h5,
    hword (show k.gCpl ≤ 10000 by omega), hword (show k.leadStall ≤ 10000 by omega), hin h1 h2, hin (Nat.zero_le _) h3, hin h4 h5,
    hin h6 (show k.gCpl ≤ k.gIn - 50 by omega), hin h8 h9, hin h10 h11, trackOrNone?_code, Bool.not_true, Bool.false_eq_true, if_false]

end Yard

/-! ## SET POINT and SET YARD -/

section Requests

variable {f : PointFields} {g : YardFields} {p : PointIx}

theorem setPoint_refuses_point (hm : s.mode = .setup) (h : point? f.point = none) : Refuses (.setPoint f) s .badValue [0] := by
  apply refuses_of_serve (body := setPointBody f) rfl
  simp only [setPointBody, hm, h, ne_eq, not_true_eq_false, if_false]
  rfl

theorem setPoint_refuses_use (hm : s.mode = .setup) (hp : point? f.point = some p) (h : yesNo? f.inUse = none) :
    Refuses (.setPoint f) s .badValue [1] := by
  apply refuses_of_serve (body := setPointBody f) rfl
  simp only [setPointBody, hm, hp, h, ne_eq, not_true_eq_false, if_false]
  rfl

theorem setPoint_refuses_field {n : Nat} (hm : s.mode = .setup) (hp : point? f.point = some p) (hu : yesNo? f.inUse = some true)
    (h : pointConfig? f = .error n) : Refuses (.setPoint f) s .badValue [BitVec.ofNat 8 n] := by
  apply refuses_of_serve (body := setPointBody f) rfl
  simp only [setPointBody, hm, hp, hu, h, ne_eq, not_true_eq_false, if_false]
  rfl

theorem setPoint_replaces {c : PointConfig} (hm : s.mode = .setup) (hp : point? f.point = some p) (hu : yesNo? f.inUse = some true)
    (h : pointConfig? f = .ok c) :
    Answers (.setPoint f) s ok { s with ladder := { s.ladder with points := Table.put s.ladder.points p (some c) } } := by
  apply answers_of_serve (body := setPointBody f) rfl
  simp only [setPointBody, hm, hp, hu, h, ne_eq, not_true_eq_false, if_false]
  rfl

theorem setPoint_removes (hm : s.mode = .setup) (hp : point? f.point = some p) (hu : yesNo? f.inUse = some false) :
    Answers (.setPoint f) s ok { s with ladder := { s.ladder with points := Table.put s.ladder.points p none } } := by
  apply answers_of_serve (body := setPointBody f) rfl
  simp only [setPointBody, hm, hp, hu, ne_eq, not_true_eq_false, if_false]
  rfl

theorem setYard_refuses_field {n : Nat} (hm : s.mode = .setup) (h : constants? g = .error n) :
    Refuses (.setYard g) s .badValue [BitVec.ofNat 8 n] := by
  apply refuses_of_serve (body := setYardBody g) rfl
  simp only [setYardBody, hm, h, ne_eq, not_true_eq_false, if_false]
  rfl

theorem setYard_replaces {k : Constants} (hm : s.mode = .setup) (h : constants? g = .ok k) :
    Answers (.setYard g) s ok { s with ladder := { s.ladder with consts := k } } := by
  apply answers_of_serve (body := setYardBody g) rfl
  simp only [setYardBody, hm, h, ne_eq, not_true_eq_false, if_false]
  rfl

theorem yesNo?_one {b : Byte} (h : b = 1) : yesNo? b = some true := yesNo?_eq_some.mpr h

/-- The first field of SET POINT out of range is named. -/
theorem setPoint_refuses_first {n : Nat} (hm : s.mode = .setup) (huse : n ≤ 1 ∨ f.inUse = 1) (h : FirstFailing (PointFieldInRange f) n) :
    Refuses (.setPoint f) s .badValue [BitVec.ofNat 8 n] := by
  obtain ⟨hbad, hbelow⟩ := h
  match n, hbad, hbelow, huse with
  | 0, hbad, _, _ => exact setPoint_refuses_point hm (index?_eq_none.mpr (Nat.lt_of_not_le hbad))
  | 1, hbad, hbelow, _ =>
    exact setPoint_refuses_use hm (index?_of_lt (Nat.lt_succ_of_le (hbelow 0 (by omega))))
      (yesNo?_eq_none_iff.mpr hbad)
  | k + 2, hbad, hbelow, huse =>
    have hone : f.inUse = 1 := huse.resolve_left (by omega)
    have hpoint : point? f.point = some ⟨_, Nat.lt_succ_of_le (hbelow 0 (by omega))⟩ := index?_of_lt _
    obtain ⟨m, herror, hfirst⟩ | ⟨c, -, -, hall⟩ := pointConfig?_cases f (hbelow 0 (by omega)) (hbelow 1 (by omega))
    · rw [FirstFailing.unique ⟨hbad, hbelow⟩ hfirst]
      exact setPoint_refuses_field hm hpoint (yesNo?_one hone) herror
    · exact absurd (hall _) hbad

/-- Settles O45: the fields are read in their order, to the first that fails or to the record. -/
theorem configurationRequestsReplaceRecords : Obligations.ConfigurationRequestsReplaceRecords := by
  refine fun s => ⟨fun hm => ⟨fun p c hc => ?_, fun p f hp hu => ?_, fun k hk => setYard_replaces hm (constants?_fields hk)⟩,
    fun hm => ⟨fun f n _ huse hbad hbelow => setPoint_refuses_first hm huse ⟨hbad, hbelow⟩, fun p f hp hu hall => ?_,
      fun g n hbad hbelow => ?_⟩, fun hm => ⟨fun f => ?_, fun g => ?_⟩⟩
  · exact setPoint_replaces hm (index?_ofNat (by decide) p) rfl (pointConfig?_fields p hc)
  · exact setPoint_removes hm (index?_eq_some.mpr hp) (yesNo?_eq_some.mpr hu)
  · obtain ⟨n, -, hbad, -⟩ | ⟨c, hok, hc, -⟩ := pointConfig?_cases f (hall 0) (hall 1)
    · exact absurd (hall n) hbad
    · exact ⟨c, hc, setPoint_replaces hm (index?_eq_some.mpr hp) (yesNo?_one hu) hok⟩
  · obtain ⟨m, herror, hfirst⟩ | ⟨k, -, hall⟩ := constants?_cases g
    · rw [FirstFailing.unique ⟨hbad, hbelow⟩ hfirst]
      exact setYard_refuses_field hm herror
    · exact absurd (hall n) hbad
  · apply refuses_of_serve (body := setPointBody f) rfl
    rw [setPointBody, if_pos hm]
    rfl
  · apply refuses_of_serve (body := setYardBody g) rfl
    rw [setYardBody, if_pos hm]
    rfl

end Requests

/-! ## SET LINE (R22, R23) -/

theorem role?_of_names {kind index : Byte} {role : Role} (h : NamesRole kind index role) : role? kind index = .ok role := by
  cases role with
  | unused | stop =>
    subst h
    rfl
  | sensorA i | sensorB i | detectN i | detectR i | freezeKey i =>
    obtain ⟨rfl, hi⟩ := h
    simp [role?, index?_eq_some.mpr hi]

/-- The role of a line is read, or one of its two fields fails. -/
theorem role?_cases (kind index level cls : Byte) :
    (∃ n, role? kind index = .error n ∧ FirstFailing (LineFieldInRange kind index level cls) n) ∨
      ∃ role, role? kind index = .ok role ∧ LineFieldInRange kind index level cls 1 ∧ LineFieldInRange kind index level cls 2 := by
  have indexed {n : Nat} (f : Fin n → Role) (hkind : kind.toNat ≤ 6) (hrange : LineFieldInRange kind index level cls 2 ↔ index.toNat < n)
      (hrole : role? kind index = match index? n index with | some i => .ok (f i) | none => .error 2) :
      (∃ n, role? kind index = .error n ∧ FirstFailing (LineFieldInRange kind index level cls) n) ∨
        ∃ role, role? kind index = .ok role ∧ LineFieldInRange kind index level cls 1 ∧ LineFieldInRange kind index level cls 2 := by
    by_cases h : index.toNat < n
    · exact .inr ⟨f ⟨_, h⟩, by rw [hrole, index?_of_lt h], hkind, hrange.mpr h⟩
    · refine .inl ⟨2, by rw [hrole, index?_eq_none.mpr (by omega)], fun h2 => h (hrange.mp h2), fun m hm => ?_⟩
      interval_cases m
      · trivial
      · exact hkind
  by_cases h0 : kind = 0
  · subst h0
    exact .inr ⟨.unused, rfl, Nat.zero_le _, by simp [LineFieldInRange]⟩
  by_cases h1 : kind = 1
  · subst h1
    exact indexed Role.sensorA (by decide) (by simp [LineFieldInRange, Nat.lt_succ_iff]) rfl
  by_cases h2 : kind = 2
  · subst h2
    exact indexed Role.sensorB (by decide) (by simp [LineFieldInRange, Nat.lt_succ_iff]) rfl
  by_cases h3 : kind = 3
  · subst h3
    exact indexed Role.detectN (by decide) (by simp [LineFieldInRange, Nat.lt_succ_iff]) rfl
  by_cases h4 : kind = 4
  · subst h4
    exact indexed Role.detectR (by decide) (by simp [LineFieldInRange, Nat.lt_succ_iff]) rfl
  by_cases h5 : kind = 5
  · subst h5
    exact .inr ⟨.stop, rfl, show 5 ≤ 6 by decide, by simp [LineFieldInRange]⟩
  by_cases h6 : kind = 6
  · subst h6
    exact indexed Role.freezeKey (by decide) (by simp [LineFieldInRange, Nat.lt_succ_iff]) rfl
  · refine .inl ⟨1, by simp only [role?, h0, h1, h2, h3, h4, h5, h6, if_false], fun h => ?_, fun m hm => ?_⟩
    · change kind.toNat ≤ 6 at h
      bv_omega
    · interval_cases m
      trivial

theorem level?_eq_none {b : Byte} : level? b = none ↔ ¬ b.toNat ≤ 1 := by
  have zero_or_one : b.toNat ≤ 1 ↔ b = 0 ∨ b = 1 := by bv_omega
  unfold level?
  split_ifs <;> simp_all

theorem class?_eq_none {b : Byte} : class? b = none ↔ ¬ b.toNat ≤ 1 := by
  have zero_or_one : b.toNat ≤ 1 ↔ b = 0 ∨ b = 1 := by bv_omega
  unfold class?
  split_ifs <;> simp_all

section SetLine

variable {line kind index level cls : Byte}

theorem setLine_refuses {n : Nat} (hm : s.mode = .setup) (h : FirstFailing (LineFieldInRange kind index level cls) n) :
    Refuses (.setLine line kind index level cls) s .badValue [BitVec.ofNat 8 n] := by
  apply refuses_of_serve (body := setLineBody line kind index level cls) rfl
  obtain ⟨k, herror, hfirst⟩ | ⟨role, hrole, h1, h2⟩ := role?_cases kind index level cls
  · rw [h.unique hfirst]
    simp only [setLineBody, hm, herror, ne_eq, not_true_eq_false, if_false]
    rfl
  by_cases h3 : LineFieldInRange kind index level cls 3
  case neg =>
    rw [h.unique (m := 3) ⟨h3, fun m hm => by interval_cases m <;> trivial⟩]
    simp only [setLineBody, hm, hrole, level?_eq_none.mpr h3, ne_eq, not_true_eq_false, if_false]
    rfl
  obtain ⟨active, hactive⟩ := exists_of_inRange level?_eq_none h3
  by_cases h4 : LineFieldInRange kind index level cls 4
  case neg =>
    rw [h.unique (m := 4) ⟨h4, fun m hm => by interval_cases m <;> trivial⟩]
    simp only [setLineBody, hm, hrole, hactive, class?_eq_none.mpr h4, ne_eq, not_true_eq_false, if_false]
    rfl
  obtain ⟨hbad, -⟩ := h
  refine absurd ?_ hbad
  by_cases hn : n ≤ 4
  · interval_cases n <;> trivial
  · match n, hn with
    | k + 5, _ => trivial

theorem setLine_accepted {role : Role} {a : Level} {c : FilterClass} (hm : s.mode = .setup) (hr : NamesRole kind index role)
    (hl : level? level = some a) (hc : class? cls = some c) :
    Answers (.setLine line kind index level cls) s ok (s.setLine line.toFin role a c) := by
  apply answers_of_serve (body := setLineBody line kind index level cls) rfl
  simp only [setLineBody, hm, role?_of_names hr, hl, hc, ne_eq, not_true_eq_false, if_false]
  rfl

end SetLine

/-! ## The stop and freeze conditions in SETUP -/

section Flags

variable {e : Env} {y : Yard}

theorem enterCause_of_setup (cause : HaltCause) (h : y.control.mode = .setup) : y.enterCause cause = y := by
  rw [Yard.enterCause, h]

theorem reportStop_of_setup (on : Bool) (h : y.control.mode = .setup) :
    y.reportStop on = { y with control := { y.control with stopFlag := on } } := by
  by_cases hsame : on = y.control.stopFlag
  · rw [reportStop_of_same hsame, hsame]
  · cases on with
    | true =>
      rw [reportStop_begins (by simpa using Ne.symm hsame)]
      exact enterCause_of_setup .stopInput h
    | false => rw [reportStop_ends (by simpa using hsame)]

theorem reportFreeze_of_setup (on : Bool) (h : y.control.mode = .setup) :
    y.reportFreeze e on = { y with
      control := { y.control with freezeFlag := on },
      notices := { y.notices with device :=
        if on = y.control.freezeFlag then y.notices.device else y.notices.device ||| reasonBit (if on then 3 else 4) } } := by
  unfold Yard.reportFreeze
  by_cases hsame : on = y.control.freezeFlag
  · rw [if_pos hsame, if_pos hsame, hsame]
  · rw [if_neg hsame, if_neg hsame]
    cases on with
    | true => exact enterCause_of_setup .freeze h
    | false => exact if_pos h

end Flags

/-- The line as SET LINE leaves it. -/
theorem restarted_eq (role : Role) (a : Level) (c : FilterClass) (raw : Level) (l : Line) : l.restarted role a c raw =
    { role := role, active := a, cls := c, filtered := role != .unused && raw == a, agreement := 0, sampled := l.sampled,
      everSampled := l.everSampled, due := false } := by
  have hlevel : logicalLevel role a raw = (role != .unused && raw == a) := by cases role <;> rfl
  rw [Line.restarted, hlevel]

/-- Settles O46: the record and the filter, then the two conditions judged in SETUP. -/
theorem setLineRestartsFilter : Obligations.SetLineRestartsFilter := by
  refine ⟨fun s line kind index level cls => ⟨fun hm => ?_, fun hm n hbad hbelow => setLine_refuses hm ⟨hbad, hbelow⟩⟩,
    fun s line kind index level cls role a c hm hr hl hc => ⟨line.toFin, _, _, rfl, rfl,
      setLine_accepted (a := a) (c := c) hm hr ?_ ?_, ?_⟩⟩
  · apply refuses_of_serve (body := setLineBody line kind index level cls) rfl
    rw [setLineBody, if_pos hm]
    rfl
  · obtain ⟨rfl, rfl⟩ | ⟨rfl, rfl⟩ := hl <;> rfl
  · obtain ⟨rfl, rfl⟩ | ⟨rfl, rfl⟩ := hc <;> rfl
  · rw [State.setLine, restarted_eq]
    dsimp only
    generalize Table.put s.lines _ _ = lines
    rw [reportStop_of_setup _ hm, reportFreeze_of_setup
      (y := { s.yard with control := { s.yard.control with stopFlag := stopCondition lines } }) _ hm]
    exact settledFrom_withYard { s with lines := lines } _

end Sys2Proof.Proofs
end


section
/-! PROOFS. The requests of the cut table: ENTER and HOLD (R74 to R76), AMEND of a PENDING cut (R77, R78), WITHDRAW and RETIRE (R83,
R84). -/

namespace Sys2Proof.Proofs

open Sys2Proof Sys2Proof.Machine Sys2Proof.Spec

variable {s : State} {y : Yard} {n : Word16} {i : SlotIx} {r : Record}

/-! ## Records and free slots (R65, R66) -/

theorem slotOfNumber_of_holds (h : HoldsNumber y n i r) : y.slotOfNumber n = some i := by
  obtain ⟨hlook, hnumber, honly⟩ := h
  cases hfind : y.slotOfNumber n with
  | none =>
    have hnone := List.find?_eq_none.mp hfind i (List.mem_finRange i)
    simp [hlook, hnumber] at hnone
  | some j =>
    have hj := List.find?_some hfind
    rw [beq_iff_eq, Option.map_eq_some_iff] at hj
    obtain ⟨z, hz, hzn⟩ := hj
    rw [honly j z hz hzn]

theorem slotOfNumber_of_free (h : NumberFree y n) : y.slotOfNumber n = none := by
  refine List.find?_eq_none.mpr fun i _ => ?_
  rw [beq_iff_eq, Option.map_eq_some_iff]
  exact fun ⟨z, hz, hzn⟩ => h i z hz hzn

theorem freeSlot_of_lowest (h : LowestFree y i) : y.freeSlot = some i := by
  obtain ⟨hfree, hbelow⟩ := h
  obtain ⟨before, after, hsplit⟩ := List.append_of_mem (List.mem_finRange i)
  have hsorted : (before ++ i :: after).Pairwise (· < ·) := hsplit ▸ List.pairwise_lt_finRange 64
  obtain ⟨-, -, hacross⟩ := List.pairwise_append.mp hsorted
  rw [Yard.freeSlot, hsplit, List.find?_eq_some_iff_append]
  exact ⟨by rw [hfree]; rfl, before, after, rfl,
    fun j hj => by simpa [Option.isSome_iff_ne_none] using hbelow j (hacross j hj i List.mem_cons_self)⟩

theorem freeSlot_of_full (h : ∀ i, Table.look y.slots i ≠ none) : y.freeSlot = none :=
  List.find?_eq_none.mpr fun i _ => by simpa using h i

/-! ## Destinations (R74, R77) -/

theorem unusedTrack_eq_false {d : Destination} : s.unusedTrack d = false ↔ DestinationAccepted s d := by
  cases d with
  | block c => exact iff_of_true rfl trivial
  | track t => exact trackRefused_eq_false

theorem destination?_code (d : Destination) : destination? (destinationCode d).1 (destinationCode d).2 = some d := by
  cases d with
  | block c => rfl
  | track t => exact congrArg (Option.map Destination.track) (index?_ofNat (by decide) t)

/-- A kind and a value that are in range name a destination that is not refused. -/
theorem destination?_of_inRange {k v : Byte} (h : DestinationInRange s k v) :
    ∃ d, destination? k v = some d ∧ s.unusedTrack d = false := by
  obtain rfl | ⟨rfl, t, ht, ha⟩ := h
  · exact ⟨.block v, rfl, rfl⟩
  · refine ⟨.track t, ?_, unusedTrack_eq_false.mpr ha⟩
    exact congrArg (Option.map Destination.track) (index?_eq_some.mpr ht)

/-- Any others name none, or one that is refused. -/
theorem destination?_of_not_inRange {k v : Byte} (h : ¬ DestinationInRange s k v) :
    destination? k v = none ∨ ∃ d, destination? k v = some d ∧ s.unusedTrack d = true := by
  cases hd : destination? k v with
  | none => exact .inl rfl
  | some d =>
    refine .inr ⟨d, rfl, ?_⟩
    by_contra hused
    refine h ?_
    have haccepted := unusedTrack_eq_false.mp (Bool.eq_false_iff.mpr hused)
    unfold destination? at hd
    split_ifs at hd with h0 h1
    · exact .inl h0
    · obtain ⟨t, ht, rfl⟩ := Option.map_eq_some_iff.mp hd
      exact .inr ⟨h1, t, index?_eq_some.mp ht, haccepted⟩

/-! ## ENTER and HOLD (R74 to R76) -/

theorem append_eq (i : SlotIx) (r : Record) (y : Yard) : y.append i r =
    if y.pendingList.isEmpty then { withFreshSlot y i (some r) with pendingList := y.pendingList ++ [i] }.judgeMarker
    else { withFreshSlot y i (some r) with pendingList := y.pendingList ++ [i] } := rfl

/-- A record that is no PENDING marker is appended and no more. -/
theorem append_of_other (h : ∀ n, r ≠ .hold n false) (i : SlotIx) (y : Yard) :
    y.append i r = { withFreshSlot y i (some r) with pendingList := y.pendingList ++ [i] } := by
  rw [append_eq]
  split
  next hempty =>
    refine judgeMarker_of_other (i := i) (rest := []) ?_ fun n hn => h n ?_
    · rw [List.isEmpty_iff.mp hempty]
      rfl
    · exact Option.some.inj ((Table.look_put_self y.slots i (some r)).symm.trans hn)
  · rfl

/-- A marker that comes into an empty list with the crest IDLE is reached at once (R102). -/
theorem append_marker_reached (hempty : y.pendingList = []) (hidle : y.crest.state = .idle) (i : SlotIx) (n : Word16) :
    y.append i (.hold n false) = { withFreshSlot y i (some (.hold n true)) with pendingList := [i] }.raise .device 2 := by
  rw [append_eq, hempty, if_pos (by rfl), List.nil_append]
  refine (judgeMarker_of_idle (y := { withFreshSlot y i (some (.hold n false)) with pendingList := [i] }) (i := i) (rest := []) (n := n) rfl
    (Table.look_put_self y.slots i _) hidle).trans ?_
  simp only [withFreshSlot, Yard.putSlot, table_put_put]

theorem append_marker_kept (h : y.pendingList ≠ [] ∨ y.crest.state ≠ .idle) (i : SlotIx) (n : Word16) :
    y.append i (.hold n false) = { withFreshSlot y i (some (.hold n false)) with pendingList := y.pendingList ++ [i] } := by
  rw [append_eq]
  split
  next hempty =>
    exact judgeMarker_of_busy (y := { withFreshSlot y i (some (.hold n false)) with pendingList := y.pendingList ++ [i] })
      (h.resolve_left fun hne => hne (List.isEmpty_iff.mp hempty))
  · rfl

/-- The record that ENTER makes. -/
def enteredCut (n : Word16) (d : Destination) (axles : Byte) : Record :=
  .cut { number := n, dest := d, axles := axles.toNat, state := .pending, started := none, actual := none }

theorem enterBody_refuses_destination {k v axles : Byte} (hn : n ≠ 0) (h : ¬ DestinationInRange s k v) :
    enterBody n k v axles s = (badValue 2, s) := by
  obtain hnone | ⟨d, hd, hused⟩ := destination?_of_not_inRange h
  all_goals rw [enterBody, if_neg hn]
  · simp only [hnone]
  · simp only [hd, hused, if_true]

theorem enterBody_refuses_axles {k v axles : Byte} (hn : n ≠ 0) (h : DestinationInRange s k v)
    (ha : axles.toNat < 2 ∨ 120 < axles.toNat) : enterBody n k v axles s = (badValue 3, s) := by
  obtain ⟨d, hd, hused⟩ := destination?_of_inRange h
  rw [enterBody, if_neg hn]
  simp [hd, hused, inRange_eq_false.mpr ha]

theorem enterBody_of_accepted {d : Destination} {axles : Byte} (hn : n ≠ 0) (hd : DestinationAccepted s d) (hlo : 2 ≤ axles.toNat)
    (hhi : axles.toNat ≤ 120) :
    enterBody n (destinationCode d).1 (destinationCode d).2 axles s = s.makeRecord n (enteredCut n d axles) := by
  rw [enterBody, if_neg hn]
  simp [destination?_code, unusedTrack_eq_false.mpr hd, inRange_iff.mpr ⟨hlo, hhi⟩, enteredCut]

theorem makeRecord_duplicate (h : s.yard.slotOfNumber n = some i) : s.makeRecord n r = (refuseAt .duplicate i.val, s) := by
  rw [State.makeRecord, h]

theorem makeRecord_full (h : s.yard.slotOfNumber n = none) (hf : s.yard.freeSlot = none) :
    s.makeRecord n r = (refuse .tableFull, s) := by
  rw [State.makeRecord, h, hf]

theorem makeRecord_made (h : s.yard.slotOfNumber n = none) (hf : s.yard.freeSlot = some i) :
    s.makeRecord n r = (doneWith [byteOf i.val], s.withYard (s.yard.append i r)) := by
  rw [State.makeRecord, h, hf]

/-- Settles O50: the fields in order, then the number, the table, and the record at the tail. -/
theorem enterAndHoldAppendRecord : Obligations.EnterAndHoldAppendRecord := by
  have holdBody_of {s : State} {n : Word16} (hn : n ≠ 0) : holdBody n s = s.makeRecord n (.hold n false) := by rw [holdBody, if_neg hn]
  refine ⟨fun s n k v axles => ⟨?zero, fun hn h => ?_, fun hn h ha => ?_⟩, fun s n hn => ⟨fun d axles hd hlo hhi =>
    ⟨fun i r hi => ?_, fun hfree => ⟨fun hfull => ?_, fun i hi => ?_⟩⟩, fun i r hi => ?_, fun hfree => ⟨fun hfull => ?_, fun i hi =>
      ⟨fun ⟨hempty, hidle⟩ => ?_, fun h => ?_⟩⟩⟩⟩
  case zero =>
    rintro rfl
    exact ⟨refuses_of_serve (body := enterBody 0 k v axles) rfl rfl, refuses_of_serve (body := holdBody 0) rfl rfl⟩
  · exact refuses_of_serve (body := enterBody n k v axles) rfl (enterBody_refuses_destination hn h)
  · exact refuses_of_serve (body := enterBody n k v axles) rfl (enterBody_refuses_axles hn h ha)
  · refine refuses_of_serve (body := enterBody n _ _ axles) rfl ((enterBody_of_accepted hn hd hlo hhi).trans ?_)
    exact makeRecord_duplicate (slotOfNumber_of_holds hi)
  · refine refuses_of_serve (body := enterBody n _ _ axles) rfl ((enterBody_of_accepted hn hd hlo hhi).trans ?_)
    exact makeRecord_full (slotOfNumber_of_free hfree) (freeSlot_of_full hfull)
  · refine answersYard_of_serve (body := enterBody n _ _ axles) rfl ((enterBody_of_accepted hn hd hlo hhi).trans ?_)
    rw [makeRecord_made (slotOfNumber_of_free hfree) (freeSlot_of_lowest hi), append_of_other (r := enteredCut n d axles) nofun]
    rfl
  · exact refuses_of_serve (body := holdBody n) rfl ((holdBody_of hn).trans (makeRecord_duplicate (slotOfNumber_of_holds hi)))
  · refine refuses_of_serve (body := holdBody n) rfl ((holdBody_of hn).trans ?_)
    exact makeRecord_full (slotOfNumber_of_free hfree) (freeSlot_of_full hfull)
  · refine answersYard_of_serve (body := holdBody n) rfl ((holdBody_of hn).trans ?_)
    rw [makeRecord_made (slotOfNumber_of_free hfree) (freeSlot_of_lowest hi), append_marker_reached hempty hidle]
    rfl
  · refine answersYard_of_serve (body := holdBody n) rfl ((holdBody_of hn).trans ?_)
    rw [makeRecord_made (slotOfNumber_of_free hfree) (freeSlot_of_lowest hi), append_marker_kept h]
    rfl

/-! ## WITHDRAW and RETIRE (R83, R84) -/

theorem cutAt_of_cut {c : Cut} (h : Table.look y.slots i = some (.cut c)) : y.cutAt i = some c := by rw [Yard.cutAt, h]

theorem cutAt_of_hold {b : Bool} (h : Table.look y.slots i = some (.hold n b)) : y.cutAt i = none := by rw [Yard.cutAt, h]

theorem withdrawSlot_eq (i : SlotIx) (y : Yard) : y.withdrawSlot i =
    if y.pendingList.head? = some i then { withFreshSlot y i none with pendingList := y.pendingList.filter (fun j => j != i) }.judgeMarker
    else { withFreshSlot y i none with pendingList := y.pendingList.filter (fun j => j != i) } := rfl

/-- The crest unit without what it remembers of a slot (R98). -/
def forgotten (i : SlotIx) (z : Crest) : Crest :=
  { z with
    state := (match z.state with
      | .absorbing (some j) x => if j = i then .absorbing none x else .absorbing (some j) x
      | st => st),
    previous := (match z.previous with
      | some p => if p.slot = i then none else some p
      | none => none) }

theorem retireSlot_eq (i : SlotIx) (y : Yard) :
    y.retireSlot i = { withFreshSlot y i none with crest := forgotten i y.crest } := rfl

theorem forgotten_spec (i : SlotIx) (z : Crest) : (forgotten i z).timer = z.timer ∧ (forgotten i z).nextOrder = z.nextOrder ∧
    (forgotten i z).previous = z.previous.filter (fun p => p.slot != i) ∧
    (∀ x, z.state = .absorbing (some i) x → (forgotten i z).state = .absorbing none x) ∧
    ((∀ x, z.state ≠ .absorbing (some i) x) → (forgotten i z).state = z.state) := by
  refine ⟨rfl, rfl, ?_, fun x hx => ?_, fun h => ?_⟩
  · unfold forgotten
    cases z.previous with
    | none => rfl
    | some p => by_cases hp : p.slot = i <;> simp [Option.filter, hp]
  · simp [forgotten, hx]
  · unfold forgotten
    dsimp only
    split
    next j x hst => rw [if_neg fun heq => h x (by rw [hst, heq]), hst]
    · rfl

section Taken

variable (hn : n ≠ 0) (hi : HoldsNumber s.yard n i r)

include hn hi in
theorem withdraw_taken (h : ∀ c, r = .cut c → c.state = .pending) : withdrawBody n s = (done, s.withYard (s.yard.withdrawSlot i)) := by
  rw [withdrawBody, if_neg hn, slotOfNumber_of_holds hi]
  dsimp only
  obtain ⟨hlook, -, -⟩ := hi
  cases r with
  | hold m b => rw [cutAt_of_hold hlook]
  | cut c =>
    rw [cutAt_of_cut hlook]
    exact if_pos (h c rfl)

include hn hi in
theorem withdraw_refused {c : Cut} (hr : r = .cut c) (h : c.state ≠ .pending) : withdrawBody n s = (refuseAt .notAllowed i.val, s) := by
  subst hr
  rw [withdrawBody, if_neg hn, slotOfNumber_of_holds hi]
  dsimp only
  rw [cutAt_of_cut hi.1]
  exact if_neg h

include hn hi in
theorem retire_refused (h : ∀ c, r = .cut c → ¬ (c.state = .arrived ∨ c.state = .lost)) :
    retireBody n s = (refuseAt .notAllowed i.val, s) := by
  rw [retireBody, if_neg hn, slotOfNumber_of_holds hi]
  dsimp only
  obtain ⟨hlook, -, -⟩ := hi
  cases r with
  | hold m b => rw [cutAt_of_hold hlook]
  | cut c =>
    rw [cutAt_of_cut hlook]
    exact if_neg (h c rfl)

include hn hi in
theorem retire_taken {c : Cut} (hr : r = .cut c) (h : c.state = .arrived ∨ c.state = .lost) :
    retireBody n s = (done, s.withYard (s.yard.retireSlot i)) := by
  subst hr
  rw [retireBody, if_neg hn, slotOfNumber_of_holds hi]
  dsimp only
  rw [cutAt_of_cut hi.1]
  exact if_pos h

end Taken

/-- Settles O53: which records each of the two may name, and what it takes. -/
theorem withdrawAndRetireFreeSlot : Obligations.WithdrawAndRetireFreeSlot := by
  refine ⟨fun s => ⟨refuses_of_serve (body := withdrawBody 0) rfl rfl, refuses_of_serve (body := retireBody 0) rfl rfl⟩,
    fun s n hn => ⟨fun hfree => ⟨?_, ?_⟩, fun i r hi => ⟨fun h => ⟨?_, ?_⟩, fun c hr h => ?_, fun c hr h => ?_, fun c hr h => ?_⟩⟩⟩
  · refine refuses_of_serve (body := withdrawBody n) rfl ?_
    rw [withdrawBody, if_neg hn, slotOfNumber_of_free hfree]
    rfl
  · refine refuses_of_serve (body := retireBody n) rfl ?_
    rw [retireBody, if_neg hn, slotOfNumber_of_free hfree]
    rfl
  · refine refuses_of_serve (body := retireBody n) rfl (retire_refused hn hi fun c hr hdone => ?_)
    rw [h c hr] at hdone
    obtain hdone | hdone := hdone <;> cases hdone
  · exact answersYard_of_serve (body := withdrawBody n) rfl (withdraw_taken hn hi h)
  · refine refuses_of_serve (body := retireBody n) rfl (retire_refused hn hi fun c' hr' hdone => ?_)
    obtain rfl : c' = c := by rw [hr', Record.cut.injEq] at hr; exact hr
    obtain h | h := h <;> rw [h] at hdone <;> obtain hdone | hdone := hdone <;> cases hdone
  · exact refuses_of_serve (body := withdrawBody n) rfl (withdraw_refused hn hi hr h)
  · obtain ⟨htimer, horder, hprevious, hown, hother⟩ := forgotten_spec i s.yard.crest
    exact ⟨_, answersYard_of_serve (body := retireBody n) rfl (retire_taken hn hi hr h), htimer, horder, hprevious, hown, hother⟩

/-! ## AMEND of a PENDING cut (R77, R78) -/

theorem selectedDestination_of_inRange {k v : Byte} (h : DestinationInRange s k v) :
    ∃ d, s.selectedDestination true k v = .ok (some d) := by
  obtain ⟨d, hd, hused⟩ := destination?_of_inRange h
  exact ⟨d, by simp [State.selectedDestination, hd, hused]⟩

theorem selectedDestination_of_not_inRange {k v : Byte} (h : ¬ DestinationInRange s k v) :
    s.selectedDestination true k v = .error 3 := by
  obtain hnone | ⟨d, hd, hused⟩ := destination?_of_not_inRange h
  · simp [State.selectedDestination, hnone]
  · simp [State.selectedDestination, hd, hused]

theorem selectedDestination_code {d : Destination} (h : DestinationAccepted s d) :
    s.selectedDestination true (destinationCode d).1 (destinationCode d).2 = .ok (some d) := by
  simp [State.selectedDestination, destination?_code, unusedTrack_eq_false.mpr h]

section Amend

variable {selection k v axles a : Byte} {d : Destination}

theorem amendBody_refuses_selection (hn : n ≠ 0) (h : selection.toNat = 0 ∨ 3 < selection.toNat) :
    amendBody n selection k v axles s = (badValue 2, s) := by
  rw [amendBody, if_neg hn, inRange_eq_false.mpr (by omega)]
  rfl

/-- The selection 1 is the destination alone. -/
theorem amendBody_one (hn : n ≠ 0) (k v a : Byte) : (∀ m, s.selectedDestination true k v = .error m →
      amendBody n 1 k v a s = (badValue m, s)) ∧
    ∀ d, s.selectedDestination true k v = .ok d → amendBody n 1 k v a s = s.amendRecord n d none := by
  refine ⟨fun m h => ?_, fun d h => ?_⟩
  all_goals
    rw [amendBody, if_neg hn, if_neg (by decide),
      show s.selectedDestination (decide ((1 : Byte) = 1) || decide ((1 : Byte) = 3)) k v = _ from h]
  rfl

/-- The selection 2 is the axle count alone. -/
theorem amendBody_two (hn : n ≠ 0) (k v axles : Byte) : amendBody n 2 k v axles s =
    if inRange 2 120 axles.toNat then s.amendRecord n none (some axles.toNat) else (badValue 4, s) := by
  rw [amendBody, if_neg hn, if_neg (by decide),
    show s.selectedDestination (decide ((2 : Byte) = 1) || decide ((2 : Byte) = 3)) k v = .ok none from rfl]
  cases inRange 2 120 axles.toNat <;> simp

/-- The selection 3 is both. -/
theorem amendBody_three (hn : n ≠ 0) (k v axles : Byte) : (∀ m, s.selectedDestination true k v = .error m →
      amendBody n 3 k v axles s = (badValue m, s)) ∧
    ∀ d, s.selectedDestination true k v = .ok d → amendBody n 3 k v axles s =
      if inRange 2 120 axles.toNat then s.amendRecord n d (some axles.toNat) else (badValue 4, s) := by
  refine ⟨fun m h => ?_, fun d h => ?_⟩
  all_goals
    rw [amendBody, if_neg hn, if_neg (by decide),
      show s.selectedDestination (decide ((3 : Byte) = 1) || decide ((3 : Byte) = 3)) k v = _ from h]
  cases inRange 2 120 axles.toNat <;> simp

theorem selection_cases (hlo : 1 ≤ selection.toNat) (hhi : selection.toNat ≤ 3) : selection = 1 ∨ selection = 2 ∨ selection = 3 := by
  bv_omega

theorem amendBody_refuses_destination (hn : n ≠ 0) (hs : selection = 1 ∨ selection = 3) (h : ¬ DestinationInRange s k v) :
    amendBody n selection k v axles s = (badValue 3, s) := by
  have hbad := selectedDestination_of_not_inRange h
  obtain rfl | rfl := hs
  · exact (amendBody_one hn k v axles).1 3 hbad
  · exact (amendBody_three hn k v axles).1 3 hbad

theorem amendBody_refuses_axles (hn : n ≠ 0) (hs : selection = 2 ∨ (selection = 3 ∧ DestinationInRange s k v))
    (h : axles.toNat < 2 ∨ 120 < axles.toNat) : amendBody n selection k v axles s = (badValue 4, s) := by
  have hbad := inRange_eq_false.mpr h
  obtain rfl | ⟨rfl, hd⟩ := hs
  · rw [amendBody_two hn, hbad]
    rfl
  · obtain ⟨d, hd⟩ := selectedDestination_of_inRange hd
    rw [(amendBody_three hn k v axles).2 _ hd, hbad]
    rfl

/-- Past the checks of its fields a request comes to the record. -/
theorem amendBody_of_fields (hn : n ≠ 0) (hlo : 1 ≤ selection.toNat) (hhi : selection.toNat ≤ 3)
    (hd : selection ≠ 2 → DestinationInRange s k v) (ha : selection ≠ 1 → 2 ≤ axles.toNat ∧ axles.toNat ≤ 120) :
    ∃ d b, amendBody n selection k v axles s = s.amendRecord n d b := by
  obtain rfl | rfl | rfl := selection_cases hlo hhi
  · obtain ⟨d, hd⟩ := selectedDestination_of_inRange (hd (by decide))
    exact ⟨_, _, (amendBody_one hn k v axles).2 _ hd⟩
  · refine ⟨none, some axles.toNat, ?_⟩
    rw [amendBody_two hn, if_pos (inRange_iff.mpr (ha (by decide)))]
  · obtain ⟨d, hd⟩ := selectedDestination_of_inRange (hd (by decide))
    refine ⟨some d, some axles.toNat, ?_⟩
    rw [(amendBody_three hn k v axles).2 _ hd, if_pos (inRange_iff.mpr (ha (by decide)))]

theorem amendRecord_unknown {d : Option Destination} {b : Option Nat} (h : NumberFree s.yard n) :
    s.amendRecord n d b = (refuse .noRecord, s) := by
  rw [State.amendRecord, slotOfNumber_of_free h]

theorem amendRecord_pending {d : Option Destination} {b : Option Nat} {c : Cut} (hi : HoldsNumber s.yard n i (.cut c))
    (hc : c.state = .pending) : s.amendRecord n d b =
      (done, s.withYard { s.yard with slots := Table.put s.yard.slots i (some (.cut (amendedCut d b c))) }) := by
  rw [State.amendRecord, slotOfNumber_of_holds hi]
  dsimp only
  rw [cutAt_of_cut hi.1]
  dsimp only
  rw [if_pos hc, Yard.modifyCut, cutAt_of_cut hi.1]
  rfl

theorem amendRecord_closed {d : Option Destination} {b : Option Nat} (hi : HoldsNumber s.yard n i r)
    (h : ∀ c, r = .cut c → c.state = .arrived ∨ c.state = .lost) : s.amendRecord n d b = (refuseAt .notAllowed i.val, s) := by
  rw [State.amendRecord, slotOfNumber_of_holds hi]
  dsimp only
  obtain ⟨hlook, -, -⟩ := hi
  cases r with
  | hold m b => rw [cutAt_of_hold hlook]
  | cut c =>
    rw [cutAt_of_cut hlook]
    dsimp only
    obtain hst | hst := h c rfl <;> simp [hst, Cut.onLadder]

theorem amendRecord_counted {d : Option Destination} {b : Nat} (hi : HoldsNumber s.yard n i r)
    (h : ∀ c, r = .cut c → c.state ≠ .pending) : s.amendRecord n d (some b) = (refuseAt .notAllowed i.val, s) := by
  rw [State.amendRecord, slotOfNumber_of_holds hi]
  dsimp only
  obtain ⟨hlook, -, -⟩ := hi
  cases r with
  | hold m b => rw [cutAt_of_hold hlook]
  | cut c =>
    rw [cutAt_of_cut hlook]
    dsimp only
    rw [if_neg (h c rfl)]
    split <;> rfl

end Amend

/-- Settles O51: the selected fields in order, then the number and the record. -/
theorem amendReplacesSelectedFields : Obligations.AmendReplacesSelectedFields := by
  refine ⟨fun s n sel k v axles => ⟨?zero, fun hn h => ?_, fun hn hs h => ?_, fun hn hs h => ?_, fun hn hlo hhi hd ha hfree => ?_⟩,
    fun s n i r d axles hn hi hd hlo hhi => ⟨fun c hr hc => ?pending, fun h => ⟨fun k v => ?_, ?_⟩, fun h a => ?_⟩⟩
  case zero =>
    rintro rfl
    exact refuses_of_serve (body := amendBody 0 sel k v axles) rfl rfl
  case pending =>
    subst hr
    refine ⟨fun a => ?_, fun k v => ?_, ?_⟩
    · refine answersYard_of_serve (body := amendBody n 1 _ _ a) rfl ?_
      rw [(amendBody_one hn _ _ a).2 _ (selectedDestination_code hd), amendRecord_pending hi hc]
      rfl
    · refine answersYard_of_serve (body := amendBody n 2 k v axles) rfl ?_
      rw [amendBody_two hn, if_pos (inRange_iff.mpr ⟨hlo, hhi⟩), amendRecord_pending hi hc]
      rfl
    · refine answersYard_of_serve (body := amendBody n 3 _ _ axles) rfl ?_
      rw [(amendBody_three hn _ _ axles).2 _ (selectedDestination_code hd), if_pos (inRange_iff.mpr ⟨hlo, hhi⟩),
        amendRecord_pending hi hc]
      rfl
  · exact refuses_of_serve (body := amendBody n sel k v axles) rfl (amendBody_refuses_selection hn h)
  · exact refuses_of_serve (body := amendBody n sel k v axles) rfl (amendBody_refuses_destination hn hs h)
  · exact refuses_of_serve (body := amendBody n sel k v axles) rfl (amendBody_refuses_axles hn hs h)
  · refine refuses_of_serve (body := amendBody n sel k v axles) rfl ?_
    obtain ⟨d, b, hbody⟩ := amendBody_of_fields hn hlo hhi hd ha
    exact hbody.trans (amendRecord_unknown hfree)
  · refine refuses_of_serve (body := amendBody n 2 k v axles) rfl ?_
    rw [amendBody_two hn, if_pos (inRange_iff.mpr ⟨hlo, hhi⟩), amendRecord_counted hi h]
    rfl
  · refine refuses_of_serve (body := amendBody n 3 _ _ axles) rfl ?_
    rw [(amendBody_three hn _ _ axles).2 _ (selectedDestination_code hd), if_pos (inRange_iff.mpr ⟨hlo, hhi⟩),
      amendRecord_counted hi h]
    rfl
  · refine refuses_of_serve (body := amendBody n 1 _ _ a) rfl ?_
    rw [(amendBody_one hn _ _ a).2 _ (selectedDestination_code hd), amendRecord_closed hi h]
    rfl

end Sys2Proof.Proofs
end


section
/-! PROOFS. ACK (R173, R175). -/

namespace Sys2Proof.Proofs

open Sys2Proof Sys2Proof.Machine Sys2Proof.Spec

variable {s : State} {k : NoticeKey} {reasons : List Byte}

/-! ## Reasons named and left -/

theorem getLsbD_reasonBit {n b : Nat} (hn : 1 ≤ n) (hb : b < 8) : (reasonBit n).getLsbD b = (n == b + 1) := by
  have heq : (b = n - 1) ↔ n = b + 1 := by omega
  rw [Bool.eq_iff_iff]
  simp [reasonBit, hb]
  omega

/-- The mask of reasons has the bit of each reason named. -/
theorem getLsbD_reasonMask {b : Nat} (h : ∀ r ∈ reasons, 1 ≤ r.toNat) (hb : b < 8) :
    (reasonMask reasons).getLsbD b = reasons.any (fun r => r.toNat == b + 1) := by
  have hfold : ∀ (l : List Byte) (a : Byte), (∀ r ∈ l, 1 ≤ r.toNat) →
      (l.foldl (fun m r => m ||| reasonBit r.toNat) a).getLsbD b = (a.getLsbD b || l.any (fun r => r.toNat == b + 1)) := fun l => by
    induction l with
    | nil => simp
    | cons r l ih =>
      intro a hl
      rw [List.foldl_cons, ih _ fun x hx => hl x (List.mem_cons_of_mem _ hx), BitVec.getLsbD_or,
        getLsbD_reasonBit (hl r List.mem_cons_self) hb, List.any_cons, Bool.or_assoc]
  rw [reasonMask, hfold reasons 0 h]
  simp

theorem getLsbD_acknowledged {b : Nat} (set : Byte) (h : ∀ r ∈ reasons, 1 ≤ r.toNat) (hb : b < 8) :
    (acknowledged set reasons).getLsbD b = (set.getLsbD b && !(reasons.any (fun r => r.toNat == b + 1))) := by
  rw [acknowledged, BitVec.getLsbD_and, BitVec.getLsbD_not, getLsbD_reasonMask h hb]
  simp [hb]

theorem reasonCount_eq (k : NoticeKey) : k.reasonCount = reasonsOf k := by cases k <;> rfl

theorem reasonsAllowed_iff (hlen : 1 ≤ reasons.length) :
    reasonsAllowed k reasons = true ↔ ∀ r ∈ reasons, 1 ≤ r.toNat ∧ r.toNat ≤ reasonsOf k := by
  have hne : reasons ≠ [] := List.ne_nil_of_length_pos hlen
  simp [reasonsAllowed, hne, inRange_iff, reasonCount_eq]

/-! ## The notice named -/

theorem notice?_code (k : NoticeKey) : notice? (noticeCode k).1 (noticeCode k).2 = .ok k := by
  cases k with
  | cut i => simp [notice?, noticeCode, index?_ofNat (n := 64) (by decide) i]
  | point p => simp [notice?, noticeCode, point?, index?_ofNat (n := 40) (by decide) p]
  | track t => simp [notice?, noticeCode, track?, index?_ofNat (n := 41) (by decide) t]
  | lead | device => rfl

theorem eq_ofNat {n : Nat} {b : Byte} {i : Fin n} (h : b.toNat = i.val) : BitVec.ofNat 8 i.val = b := by
  rw [← h, BitVec.ofNat_toNat, BitVec.setWidth_eq]

/-- A class and an index that name no notice fail by their class or their index. -/
theorem notice?_of_none {cls index : Byte} (h : ∀ j, noticeCode j ≠ (cls, index)) :
    notice? cls index = .error (if cls.toNat ≤ 4 then 1 else 0) := by
  have unnamed {n : Nat} {c : Byte} (f : Fin n → NoticeKey) (hf : ∀ i, noticeCode (f i) = (c, BitVec.ofNat 8 i.val)) (hc : cls = c) :
      index? n index = none := by
    rw [Option.eq_none_iff_forall_ne_some]
    intro i hi
    exact h (f i) (by rw [hf, hc, eq_ofNat (index?_eq_some.mp hi)])
  have zero (i : Fin 1) : (0 : Byte) = BitVec.ofNat 8 i.val := by rw [Fin.fin_one_eq_zero i]; rfl
  have hcls : cls = 0 ∨ cls = 1 ∨ cls = 2 ∨ cls = 3 ∨ cls = 4 ∨ 4 < cls.toNat := by bv_omega
  obtain rfl | rfl | rfl | rfl | rfl | hbig := hcls
  · simp [notice?, unnamed NoticeKey.cut (fun _ => rfl) rfl]
  · simp [notice?, point?, unnamed NoticeKey.point (fun _ => rfl) rfl]
  · simp [notice?, unnamed (fun _ => NoticeKey.lead) (fun i => by rw [← zero i]; rfl) rfl]
  · simp [notice?, track?, unnamed NoticeKey.track (fun _ => rfl) rfl]
  · simp [notice?, unnamed (fun _ => NoticeKey.device) (fun i => by rw [← zero i]; rfl) rfl]
  · rw [if_neg (by omega), notice?, if_neg (by bv_omega), if_neg (by bv_omega), if_neg (by bv_omega), if_neg (by bv_omega),
      if_neg (by bv_omega)]

/-! ## The request -/

theorem exec_ack {cls index : Byte} (hlo : 1 ≤ reasons.length) (hhi : reasons.length ≤ 7) :
    exec (.ack cls index reasons) s =
      serve ((codeOf (.ack cls index reasons)).getD 0) (payloadOf (.ack cls index reasons)) (ackBody cls index reasons) s := by
  have hallowed : lengthAllowed 0x62 (reasons.length + 2) = true := by
    rw [lengthAllowed_ack]
    simp
    omega
  exact if_pos hallowed

/-- Settles O59: the notice, the reasons, and what is left of them. -/
theorem ackRemovesNamedReasons : Obligations.AckRemovesNamedReasons := by
  intro s k reasons hlo hhi
  refine ⟨fun h => ?_, fun ⟨r, hr, hbad⟩ => ?_, fun cls index h => ?_⟩
  · refine ⟨acknowledged (s.yard.notices.reasons k) reasons, _, fun b hb => getLsbD_acknowledged _ (fun r hr => (h r hr).1) hb, ?_,
      fun j hj => ?_, ?_, ?_, answersYard_of_serve (exec_ack hlo hhi) (y := { s.yard with
        notices := s.yard.notices.putReasons k (acknowledged (s.yard.notices.reasons k) reasons) }) ?_⟩
    · rw [Notices.reasons_putReasons, if_pos rfl]
    · rw [Notices.reasons_putReasons, if_neg hj.symm]
    · simp
    · simp
    · rw [ackBody, notice?_code]
      dsimp only
      rw [(reasonsAllowed_iff hlo).mpr h]
      rfl
  · refine refuses_of_serve (exec_ack hlo hhi) ?_
    have hnot : reasonsAllowed k reasons = false := by
      rw [Bool.eq_false_iff, ne_eq, reasonsAllowed_iff hlo]
      intro h
      have hrange := h r hr
      omega
    rw [ackBody, notice?_code]
    dsimp only
    rw [hnot]
    rfl
  · refine refuses_of_serve (exec_ack hlo hhi) ?_
    rw [ackBody, notice?_of_none h]
    dsimp only
    split <;> rfl

end Sys2Proof.Proofs
end


section
/-! PROOFS. DECOMMISSION (R165). -/

namespace Sys2Proof.Proofs

open Sys2Proof Sys2Proof.Machine Sys2Proof.Spec

/-- The yard after DECOMMISSION, before the crest unit judges the head of the pending list. -/
def dismantled (y : Yard) : Yard :=
  { y with
    lead := none, sections := Table.fill 40 none, queues := Table.fill 40 [], points := Table.fill 40 none,
    drive := Table.fill 80 false, slotsInUse := 0, waiting := [], plans := Table.fill 40 none,
    crest := y.crest.decommissioned,
    control := { y.control with mode := .setup, halt := 0, disturbed := 0, lost := 0, stall := 0 } }

theorem decommission_eq (y : Yard) : y.decommission = (dismantled y).judgeMarker := rfl

theorem sectionOf_dismantled (y : Yard) (sid : SectionId) : (dismantled y).sectionOf sid = none := by
  cases sid with
  | lead => rfl
  | point p => exact Table.look_fill _ _

/-- Settles O48: the mode, the cuts on the ladder, then the yard without its ladder. -/
theorem decommissionRemovesLadder : Obligations.DecommissionRemovesLadder := by
  refine ⟨fun s hm => ?_, fun s hm => ⟨fun hcut => ?_, fun hcut => ⟨dismantled s.yard, _, ?_,
    settledFrom_withYard { s with heads := Table.fill 82 Head.off } _, sectionOf_dismantled s.yard, fun q => Table.look_fill _ _,
    fun p => Table.look_fill _ _, fun p => Table.look_fill _ _, fun d => Table.look_fill _ _, rfl, rfl, rfl, rfl, rfl, rfl, rfl, rfl,
    rfl, rfl⟩⟩⟩
  · refine refuses_of_serve (body := decommissionBody) rfl ?_
    rw [decommissionBody, if_pos hm]
    rfl
  · refine refuses_of_serve (body := decommissionBody) rfl ?_
    rw [decommissionBody, if_neg (fun h => h hm), if_pos ((anyOnLadder_iff s.yard).mpr hcut)]
    rfl
  · refine answers_of_serve (body := decommissionBody) rfl ?_
    rw [decommissionBody, if_neg (fun h => h hm), if_neg (fun h => hcut ((anyOnLadder_iff s.yard).mp h))]
    rfl

end Sys2Proof.Proofs
end


section
/-! SUPPORT. Searches in ascending order, and what they find on a ladder: feeding legs, tracks in use, configured heads (R3, R5). -/

namespace Sys2Proof.Proofs

open Sys2Proof Sys2Proof.Machine Sys2Proof.Spec

/-! ## First in an order -/

/-- The first of a list in an order that meets a test. -/
theorem find?_eq_some_iff_first {α : Type} {R : α → α → Prop} (hasymm : ∀ a b, R a b → ¬ R b a) {l : List α} (hl : l.Pairwise R)
    {p : α → Bool} {a : α} : l.find? p = some a ↔ a ∈ l ∧ p a = true ∧ ∀ b ∈ l, R b a → p b = false := by
  constructor
  · intro h
    obtain ⟨hp, before, after, rfl, hbefore⟩ := List.find?_eq_some_iff_append.mp h
    refine ⟨List.mem_append_right _ List.mem_cons_self, hp, fun b hb hba => ?_⟩
    obtain hb | hb := List.mem_append.mp hb
    · simpa using hbefore b hb
    · obtain rfl | hb := List.mem_cons.mp hb
      · exact absurd hba (hasymm b b hba)
      · exact absurd hba (hasymm a b ((List.pairwise_cons.mp (List.pairwise_append.mp hl).2.1).1 b hb))
  · rintro ⟨hmem, hp, hfirst⟩
    cases hfind : l.find? p with
    | none => exact absurd hp (List.find?_eq_none.mp hfind a hmem)
    | some c =>
      obtain ⟨hc, before, after, rfl, hbefore⟩ := List.find?_eq_some_iff_append.mp hfind
      obtain ha | ha := List.mem_append.mp hmem
      · have hnot := hbefore a ha
        simp [hp] at hnot
      · obtain rfl | ha := List.mem_cons.mp ha
        · rfl
        · have hnot := hfirst c (List.mem_append_right _ List.mem_cons_self)
            ((List.pairwise_cons.mp (List.pairwise_append.mp hl).2.1).1 a ha)
          rw [hc] at hnot
          cases hnot

/-- The first of the indices that meets a test. -/
theorem find?_finRange_iff {n : Nat} {p : Fin n → Bool} {i : Fin n} :
    (List.finRange n).find? p = some i ↔ p i = true ∧ ∀ j, j < i → p j = false := by
  rw [find?_eq_some_iff_first (R := (· < ·)) (fun _ _ => lt_asymm) (List.pairwise_lt_finRange n)]
  simp [List.mem_finRange]

/-! ## The leg order (R16) -/

theorem mem_legOrder (leg : Pair) : leg ∈ legOrder := by
  obtain ⟨p, l⟩ := leg
  refine List.mem_flatMap.mpr ⟨p, List.mem_finRange p, ?_⟩
  cases l <;> simp

theorem earlierLeg_asymm (a b : Pair) (h : EarlierLeg a b) : ¬ EarlierLeg b a := by
  unfold EarlierLeg at *
  rintro (h' | ⟨hpoint, h', -⟩)
  · obtain h | ⟨h, -, -⟩ := h
    · exact lt_asymm h h'
    · rw [h] at h'
      exact lt_irrefl _ h'
  · obtain h | ⟨-, -, h⟩ := h
    · rw [hpoint] at h
      exact lt_irrefl _ h
    · rw [h] at h'
      cases h'

theorem pairwise_legOrder : legOrder.Pairwise EarlierLeg := by
  refine List.pairwise_flatMap.mpr ⟨fun p _ => ?_, (List.pairwise_lt_finRange 40).imp fun {a b} hab x hx y hy => ?_⟩
  · simp [EarlierLeg]
  · have hfirst : ∀ (q : PointIx) (z : Pair), z ∈ [(q, Leg.N), (q, Leg.R)] → z.1 = q := fun q z hz => by
      simp only [List.mem_cons, List.not_mem_nil, or_false] at hz
      obtain rfl | rfl := hz <;> rfl
    refine .inl ?_
    rw [hfirst a x hx, hfirst b y hy]
    exact hab

/-! ## Feeding legs and tracks in use (R3) -/

section Ladder

variable {l : Ladder} {t : TrackIx} {tgt : Target} {leg : Pair}

theorem feeding_eq_some (h : tgt ≠ .none) :
    l.feeding tgt = some leg ↔ l.target leg.1 leg.2 = tgt ∧ ∀ other, EarlierLeg other leg → l.target other.1 other.2 ≠ tgt := by
  rw [Ladder.feeding, if_neg h, find?_eq_some_iff_first earlierLeg_asymm pairwise_legOrder]
  simp [mem_legOrder]

theorem feeding_eq_none (h : tgt ≠ .none) : l.feeding tgt = none ↔ ∀ p k, l.target p k ≠ tgt := by
  rw [Ladder.feeding, if_neg h, List.find?_eq_none]
  simp only [beq_iff_eq]
  exact ⟨fun hn p k => hn (p, k) (mem_legOrder _), fun hn pr _ => hn pr.1 pr.2⟩

theorem feeding_track_eq_some : l.feeding (.track t) = some leg ↔ FeedsTrack l leg t := feeding_eq_some Target.noConfusion

theorem feeding_track_eq_none : l.feeding (.track t) = none ↔ ¬ Used l t := by
  rw [feeding_eq_none Target.noConfusion]
  simp [Used]

theorem trackInUse_iff : l.trackInUse t = true ↔ Used l t := by
  rw [Ladder.trackInUse, Option.isSome_iff_ne_none, ne_eq, feeding_track_eq_none, not_not]

theorem inUse_iff {p : PointIx} : l.inUse p = true ↔ l.config p ≠ none := by rw [Ladder.inUse, Option.isSome_iff_ne_none]

theorem pointsInUse_nonempty : (!l.pointsInUse.isEmpty) = true ↔ ∃ p, l.config p ≠ none := by
  rw [Bool.not_eq_true', List.isEmpty_eq_false_iff_exists_mem]
  simp [Ladder.pointsInUse, inUse_iff]

/-! ## Heads (R5) -/

theorem legHead_val (p : PointIx) (k : Leg) : (legHead p k).val = 2 + 2 * p.val + (match k with | .N => 0 | .R => 1) := by
  cases k
  · rfl
  · change 3 + 2 * p.val = 2 + 2 * p.val + 1
    omega

theorem headPlace_legHead (p : PointIx) (k : Leg) : headPlace (legHead p k) = .leg p k := by
  have hval := legHead_val p k
  have hnot0 : ¬ (legHead p k).val = 0 := by omega
  have hnot1 : ¬ (legHead p k).val = 1 := by omega
  rw [headPlace, if_neg hnot0, if_neg hnot1]
  have hpoint : (⟨((legHead p k).val - 2) / 2, by omega⟩ : PointIx) = p := by
    refine Fin.ext ?_
    change ((legHead p k).val - 2) / 2 = p.val
    cases k <;> simp only at hval <;> omega
  rw [hpoint]
  cases k with
  | N => rw [if_pos (by simp only at hval; omega)]
  | R => rw [if_neg (by simp only at hval; omega)]

theorem legHead_inj {p q : PointIx} {k m : Leg} : legHead p k = legHead q m ↔ p = q ∧ k = m := by
  constructor
  · intro h
    have hplace := congrArg headPlace h
    rw [headPlace_legHead, headPlace_legHead] at hplace
    cases hplace
    exact ⟨rfl, rfl⟩
  · rintro ⟨rfl, rfl⟩
    rfl

theorem headPlace_cases (h : HeadIx) : (h = 0 ∧ headPlace h = .crest) ∨ (h = 1 ∧ headPlace h = .entry) ∨
    ∃ p k, h = legHead p k ∧ headPlace h = .leg p k := by
  by_cases h0 : h.val = 0
  · exact .inl ⟨Fin.ext h0, if_pos h0⟩
  by_cases h1 : h.val = 1
  · refine .inr (.inl ⟨Fin.ext h1, ?_⟩)
    rw [headPlace, if_neg h0, if_pos h1]
  refine .inr (.inr ?_)
  obtain ⟨p, hp⟩ : ∃ p : PointIx, p.val = (h.val - 2) / 2 := ⟨⟨(h.val - 2) / 2, by omega⟩, rfl⟩
  obtain ⟨k, hk⟩ : ∃ k, h = legHead p k := by
    by_cases heven : h.val % 2 = 0
    · refine ⟨.N, Fin.ext ?_⟩
      rw [legHead_val, hp]
      simp only
      omega
    · refine ⟨.R, Fin.ext ?_⟩
      rw [legHead_val, hp]
      simp only
      omega
  exact ⟨p, k, hk, by rw [hk, headPlace_legHead]⟩

theorem headConfigured_iff {h : HeadIx} : l.headConfigured h = true ↔ Configured l h := by
  obtain ⟨hh, hplace⟩ | ⟨hh, hplace⟩ | ⟨p, k, hh, hplace⟩ := headPlace_cases h
  · rw [Ladder.headConfigured, hplace]
    dsimp only
    rw [pointsInUse_nonempty]
    refine ⟨fun hp => .inl ⟨.inl hh, hp⟩, ?_⟩
    rintro (⟨-, hp⟩ | ⟨p, k, -, hp⟩)
    · exact hp
    · exact ⟨p, hp⟩
  · rw [Ladder.headConfigured, hplace]
    dsimp only
    rw [pointsInUse_nonempty]
    refine ⟨fun hp => .inl ⟨.inr hh, hp⟩, ?_⟩
    rintro (⟨-, hp⟩ | ⟨p, k, -, hp⟩)
    · exact hp
    · exact ⟨p, hp⟩
  · rw [Ladder.headConfigured, hplace]
    dsimp only
    rw [inUse_iff]
    refine ⟨fun hp => .inr ⟨p, k, hh, hp⟩, ?_⟩
    rintro (⟨h01, -⟩ | ⟨q, m, hq, hp⟩)
    · have hval := legHead_val p k
      rw [← hh] at hval
      obtain rfl | rfl := h01
      · have hzero : ((0 : HeadIx).val) = 0 := rfl
        omega
      · have hone : ((1 : HeadIx).val) = 1 := rfl
        omega
    · obtain ⟨rfl, -⟩ := legHead_inj.mp (hh.symm.trans hq)
      exact hp

theorem highestTrack_eq_none : l.highestTrack = none ↔ ∀ u, ¬ Used l u := by
  rw [Ladder.highestTrack, List.getLast?_eq_none_iff, List.filter_eq_nil_iff]
  simp [trackInUse_iff]

theorem highest_of_some (h : l.highestTrack = some t) : Used l t ∧ ∀ u, Used l u → u ≤ t := by
  have hmem : ∀ u, u ∈ (List.finRange 41).filter (fun t => l.trackInUse t) ↔ Used l u := fun u => by simp [trackInUse_iff]
  have hsorted : ((List.finRange 41).filter (fun t => l.trackInUse t)).Pairwise (· < ·) :=
    (List.pairwise_lt_finRange 41).sublist List.filter_sublist
  obtain ⟨before, hsplit⟩ := List.getLast?_eq_some_iff.mp h
  rw [hsplit] at hmem hsorted
  refine ⟨(hmem t).mp (List.mem_append_right _ (List.mem_singleton_self t)), fun u hu => ?_⟩
  obtain hu | hu := List.mem_append.mp ((hmem u).mpr hu)
  · exact le_of_lt ((List.pairwise_append.mp hsorted).2.2 u hu t (List.mem_singleton_self t))
  · rw [List.mem_singleton.mp hu]

/-- The highest track in use (R108). -/
theorem highestTrack_eq_some : l.highestTrack = some t ↔ Used l t ∧ ∀ u, Used l u → u ≤ t := by
  refine ⟨highest_of_some, fun ⟨ht, hmax⟩ => ?_⟩
  cases h : l.highestTrack with
  | none => exact absurd ht (highestTrack_eq_none.mp h t)
  | some u =>
    obtain ⟨hu, hmaxu⟩ := highest_of_some h
    rw [le_antisymm (hmax u hu) (hmaxu t ht)]

variable {y : Yard}

/-- A track is covered by an enabled window (R108). -/
theorem covered_iff : y.covered l t = true ↔ CoveredBy y l t := by
  have hwindow : ∀ w : Window, l.windowCovers w t = true ↔ w.first ≤ t.val ∧ t.val ≤ w.last ∧ ∃ u, Used l u ∧ t.val ≤ u.val := fun w => by
    unfold Ladder.windowCovers Ladder.effectiveLast
    cases hhigh : l.highestTrack with
    | none =>
      have hnone := highestTrack_eq_none.mp hhigh
      simp [hnone]
    | some h =>
      obtain ⟨hused, hmax⟩ := highest_of_some hhigh
      simp only [Option.map_some, Bool.and_eq_true, decide_eq_true_eq]
      constructor
      · rintro ⟨hfirst, hlast⟩
        exact ⟨hfirst, by omega, h, hused, by omega⟩
      · rintro ⟨hfirst, hlast, u, hu, htu⟩
        have hle : u.val ≤ h.val := hmax u hu
        exact ⟨hfirst, by omega⟩
  simp only [Yard.covered, List.any_eq_true, List.mem_finRange, true_and, hwindow, CoveredBy]

end Ladder

end Sys2Proof.Proofs
end


section
/-! SUPPORT. Bytes of answers: coded values, flags in a byte, lists of a fixed length (R184, R186). -/

namespace Sys2Proof.Proofs

open Sys2Proof Sys2Proof.Machine Sys2Proof.Spec

variable {s : State} {y : Yard}

/-! ## Coded values -/

theorem cutStateByte_eq (c : CutState) : cutStateByte c = cutStateCode c := by cases c <;> rfl
theorem resolutionByte_eq : resolutionByte = resolutionCode := funext fun c => by cases c <;> rfl
theorem diversionByte_eq : diversionByte = diversionCode := funext fun c => by cases c <;> rfl
theorem faultByte_eq : faultByte = faultCode := funext fun c => by cases c <;> rfl
theorem planByte_eq (c : PlanState) : planByte c = planCode c := by cases c <;> rfl
theorem decoderByte_eq (c : DecoderState) : decoderByte c = decoderCode c := by cases c <;> rfl
theorem disturbByte_eq (c : DisturbCause) : disturbByte c = disturbCode c := by cases c <;> rfl
theorem sectionByte_eq (c : SectionState) : sectionByte c = codeIn [.clear, .occupied, .disturbed] c := by cases c <;> rfl
theorem modeByte_eq (m : Mode) : modeByte m = codeIn [.setup, .standby, .humping, .halted] m := by cases m <;> rfl
theorem pointStateByte_eq (c : PointState) : pointStateByte c = pointStateCode c := by cases c <;> rfl
theorem legByte_code (k : Leg) : legByte k = legCode k := by cases k <;> rfl
theorem flag_eq (b : Bool) : flag b = boolCode b := rfl

theorem destinationBytes_eq (d : Destination) : destinationBytes d = [(destinationCode d).1, (destinationCode d).2] := by
  cases d <;> rfl

/-! ## Flags in a byte -/

/-- The value of flags as a sum of powers of 2. -/
theorem foldr_flags (l : List Bool) : l.foldr (fun (b : Bool) (n : Nat) => 2 * n + (if b then 1 else 0)) 0 =
    ((List.range l.length).map (fun k => if l.getD k false = true then 2 ^ k else 0)).sum := by
  induction l with
  | nil => rfl
  | cons b l ih =>
    rw [List.foldr_cons, ih, List.length_cons, List.range_succ_eq_map, List.map_cons, List.sum_cons, List.map_map]
    have htail : ((List.range l.length).map ((fun k => if (b :: l).getD k false = true then 2 ^ k else 0) ∘ Nat.succ)).sum =
        2 * ((List.range l.length).map (fun k => if l.getD k false = true then 2 ^ k else 0)).sum := by
      rw [← List.sum_map_mul_left]
      refine congrArg List.sum (List.map_congr_left fun k _ => ?_)
      simp only [Function.comp, List.getD_cons_succ]
      split
      · rw [Nat.pow_succ, Nat.mul_comm]
      · rfl
    rw [htail, Nat.add_comm]
    rfl

theorem bitsOf_eq (l : List Bool) : bitsOf l = bitByte l := by rw [bitsOf, bitByte, foldr_flags]

/-- A bit of a byte of flags. -/
theorem testBit_flags (l : List Bool) (k : Nat) :
    (l.foldr (fun (b : Bool) (n : Nat) => 2 * n + (if b then 1 else 0)) 0).testBit k = l.getD k false := by
  induction l generalizing k with
  | nil => simp
  | cons b l ih =>
    rw [List.foldr_cons]
    cases k with
    | zero =>
      rw [Nat.testBit_zero, List.getD_cons_zero]
      cases b <;> simp
    | succ k =>
      rw [Nat.testBit_succ, List.getD_cons_succ, ← ih k]
      congr 1
      split <;> omega

theorem getLsbD_bitsOf (l : List Bool) {k : Nat} (hk : k < 8) : (bitsOf l).getLsbD k = l.getD k false := by
  rw [bitsOf, BitVec.getLsbD_ofNat, testBit_flags]
  simp [hk]

/-! ## Lists of a fixed length -/

/-- A list brought to a length, element by element. -/
theorem padded_eq (n : Nat) (l : List Byte) : padded n l = (List.range n).map (fun k => l.getD k 0) := by
  rw [padded]
  refine List.ext_getElem (by simp) fun k h1 h2 => ?_
  simp only [List.length_map, List.length_range] at h2
  simp only [List.getElem_take, List.getElem_map, List.getElem_range, List.getD_eq_getElem?_getD]
  by_cases hk : k < l.length
  · rw [List.getElem_append_left hk, List.getElem?_eq_getElem hk, Option.getD_some]
  · rw [List.getElem_append_right (by omega), List.getElem_replicate, List.getElem?_eq_none (by omega), Option.getD_none]

theorem length_padded (n : Nat) (l : List Byte) : (padded n l).length = n := by rw [padded_eq]; simp

theorem take_append_zeros {n m : Nat} (l : List Byte) (h : n ≤ m) : (l ++ List.replicate m 0).take n = padded n l := by
  obtain ⟨k, rfl⟩ := Nat.exists_eq_add_of_le h
  rw [List.replicate_add, ← List.append_assoc, List.take_append_of_le_length (by simp), padded]

/-- A list of pieces of three bytes, brought to a length. -/
theorem padded_pieces {α : Type} (f : α → List Byte) (hf : ∀ a, (f a).length = 3) (n : Nat) (l : List α) :
    padded (3 * n) (l.flatMap f) = (List.range n).flatMap (fun k => match l[k]? with | some a => f a | none => [0, 0, 0]) := by
  induction n generalizing l with
  | zero => rfl
  | succ n ih =>
    rw [List.range_succ_eq_map, List.flatMap_cons, List.flatMap_map]
    cases l with
    | nil =>
      have hnil := ih []
      simp only [List.flatMap_nil, List.getElem?_nil] at hnil ⊢
      rw [← hnil]
      rw [padded, padded, List.nil_append, List.nil_append, List.take_replicate, List.take_replicate, min_self, min_self]
      rw [show 3 * (n + 1) = 3 + 3 * n by omega, List.replicate_add]
      rfl
    | cons a l =>
      have hsplit : padded (3 * (n + 1)) ((a :: l).flatMap f) = f a ++ padded (3 * n) (l.flatMap f) := by
        have hlen := hf a
        rw [padded, padded, List.flatMap_cons, List.append_assoc, show 3 * (n + 1) = (f a).length + 3 * n by omega,
          List.take_length_add_append]
        exact congrArg (f a ++ ·) (take_append_zeros _ (by omega))
      rw [hsplit, ih l]
      rfl

end Sys2Proof.Proofs
end


section
/-! PROOFS. The answers of the read requests (R38, R64, R85, R86, R123, R124, R141, R172, R177, R186 to R190). -/

namespace Sys2Proof.Proofs

open Sys2Proof Sys2Proof.Machine Sys2Proof.Spec

variable {s : State} {y : Yard}

/-! ## Reads (R183) -/

theorem answers_of_read {c : Instr} {answer : State → Reply} {r : Reply}
    (he : exec c s = serveRead ((codeOf c).getD 0) (payloadOf c) answer s) (hr : answer s = r) : Answers c s r s := by
  rw [Answers, he, serveRead_eq, hr]
  rfl

theorem refuses_of_read {c : Instr} {answer : State → Reply} {st : Status} {detail : List Byte}
    (he : exec c s = serveRead ((codeOf c).getD 0) (payloadOf c) answer s)
    (hr : answer s = { status := st, payload := detail }) : Refuses c s st detail := answers_of_read he hr

theorem read_answers {c : Instr} (h : IsRead c) : ∃ r, Answers c s r s := by
  cases c with
  | readCut kind value => exact ⟨_, answers_of_read (answer := readCutAnswer kind value) rfl rfl⟩
  | readPending start => exact ⟨_, answers_of_read (answer := readPendingAnswer start) rfl rfl⟩
  | readTrack track => exact ⟨_, answers_of_read (answer := readTrackAnswer track) rfl rfl⟩
  | readMap kind index => exact ⟨_, answers_of_read (answer := readMapAnswer kind index) rfl rfl⟩
  | readPoint point => exact ⟨_, answers_of_read (answer := readPointAnswer point) rfl rfl⟩
  | readSection sel list start => exact ⟨_, answers_of_read (answer := readSectionAnswer sel list start) rfl rfl⟩
  | readHead head => exact ⟨_, answers_of_read (answer := readHeadAnswer head) rfl rfl⟩
  | readLine line => exact ⟨_, answers_of_read (answer := fun z => doneWith (z.lineBytes line.toFin)) rfl rfl⟩
  | readDevice => exact ⟨_, answers_of_read (answer := fun z => doneWith z.deviceBytes) rfl rfl⟩
  | readNotices => exact ⟨_, answers_of_read (answer := fun z => doneWith z.yard.notices.bytes) rfl rfl⟩
  | _ => exact h.elim

/-! ## READ CUT and READ PENDING (R85, R86, R187) -/

theorem readSlot_of_record {i : SlotIx} {r : Record} (h : Table.look s.yard.slots i = some r) :
    s.readSlot i = doneWith (recordBytes i r (Table.look s.yard.notices.cut i)) := by rw [State.readSlot, h]

theorem readCutAnswer_slot (i : SlotIx) : readCutAnswer 1 (BitVec.ofNat 16 i.val) s = s.readSlot i := by
  have hval : (BitVec.ofNat 16 i.val).toNat = i.val := by rw [BitVec.toNat_ofNat]; omega
  have hlt : (BitVec.ofNat 16 i.val).toNat < 64 := by omega
  rw [readCutAnswer, if_neg (by decide), if_pos rfl, dif_pos hlt]
  congr

theorem readCutAnswer_number {n : Word16} {i : SlotIx} {r : Record} (hn : n ≠ 0) (hi : HoldsNumber s.yard n i r) :
    readCutAnswer 0 n s = s.readSlot i := by
  rw [readCutAnswer, if_pos rfl, if_neg hn, slotOfNumber_of_holds hi]

theorem pairByte_R (p : PointIx) : pairByte (p, .R) = BitVec.ofNat 8 (128 + p.val) := congrArg (BitVec.ofNat 8) (Nat.add_comm _ _)

theorem route_bytes (route : List Pair) : padded 8 (route.map pairByte) = routeAnswer route := by
  rw [padded_eq, routeAnswer]
  refine List.map_congr_left fun k _ => ?_
  rw [List.getD_eq_getElem?_getD, List.getElem?_map]
  cases route[k]? with
  | none => rfl
  | some pr =>
    rw [Option.map_some, Option.getD_some]
    obtain ⟨p, leg⟩ := pr
    cases leg with
    | N => rfl
    | R => exact pairByte_R p

theorem diversion_bytes (l : List Diversion) : padded 24 (l.flatMap diversionBytes) = diversionAnswer l := by
  rw [show 24 = 3 * 8 from rfl, padded_pieces diversionBytes (fun _ => rfl), diversionAnswer]
  refine List.flatMap_congr fun k _ => ?_
  cases l[k]? with
  | none => rfl
  | some d =>
    dsimp only
    rw [diversionBytes, diversionByte_eq]
    rfl

theorem recordBytes_eq (i : SlotIx) (r : Record) (notice : Byte) : recordBytes i r notice = recordAnswer i r notice := by
  cases r with
  | hold n reached => rfl
  | cut c =>
    unfold recordBytes recordAnswer
    dsimp only
    rw [destinationBytes_eq, cutStateByte_eq]
    cases hx : c.started with
    | none => cases ha : c.actual <;> simp [cutPresence, startedBytes, hx, byteOf]
    | some x =>
      cases ha : c.actual
      all_goals
        simp [cutPresence, startedBytes, hx, ha, bitsOf_eq, route_bytes, diversion_bytes, resolutionByte_eq, byteOf, bytes2]

theorem length_recordAnswer (i : SlotIx) (r : Record) (notice : Byte) :
    (recordAnswer i r notice).length = if recordKind r = 0 then 59 else 6 := by
  cases r with
  | hold n reached => rfl
  | cut c =>
    unfold recordAnswer
    dsimp only
    cases c.started with
    | none => simp [le16, recordKind]
    | some x =>
      have hroute : (routeAnswer x.route).length = 8 := by rw [← route_bytes, length_padded]
      have hdiverted : (diversionAnswer x.diversions).length = 24 := by rw [← diversion_bytes, length_padded]
      simp [le16, le32, recordKind, hroute, hdiverted]

theorem read_cut {i : SlotIx} {r : Record} (h : Table.look s.yard.slots i = some r) :
    ∃ bytes, bytes = recordAnswer i r (s.yard.notices.reasons (.cut i)) ∧
      Answers (.readCut 1 (BitVec.ofNat 16 i.val)) s (doneWith bytes) s ∧
      bytes.length = (if recordKind r = 0 then 59 else 6) ∧
      (r.number ≠ 0 → HoldsNumber s.yard r.number i r → Answers (.readCut 0 r.number) s (doneWith bytes) s) := by
  have hslot := readSlot_of_record h
  rw [recordBytes_eq] at hslot
  exact ⟨_, rfl, answers_of_read (answer := readCutAnswer 1 _) rfl ((readCutAnswer_slot i).trans hslot), length_recordAnswer i r _,
    fun hn hi => answers_of_read (answer := readCutAnswer 0 _) rfl ((readCutAnswer_number hn hi).trans hslot)⟩

theorem numberAt_of_record {i : SlotIx} {r : Record} (h : Table.look y.slots i = some r) : y.numberAt i = r.number := by
  rw [Yard.numberAt, h]
  rfl

theorem read_pending {start : Byte} (h : start.toNat < 64) :
    ∃ numbers : List Word16, Answers (.readPending start) s
        (doneWith (BitVec.ofNat 8 s.yard.pendingList.length :: BitVec.ofNat 8 numbers.length :: numbers.flatMap le16)) s ∧
      numbers.length = min 24 (s.yard.pendingList.length - start.toNat) ∧
      ∀ k i r, k < numbers.length → s.yard.pendingList[start.toNat + k]? = some i → Table.look s.yard.slots i = some r →
        numbers[k]? = some r.number := by
  refine ⟨((s.yard.pendingList.drop start.toNat).take 24).map (fun i => s.yard.numberAt i), ?_, by simp, fun k i r hk hi hr => ?_⟩
  · refine answers_of_read (answer := readPendingAnswer start) rfl ?_
    rw [readPendingAnswer, if_pos h, counted, List.flatMap_map, List.length_map]
    rfl
  · rw [List.length_map, List.length_take] at hk
    rw [List.getElem?_map, List.getElem?_take, if_pos (by omega), List.getElem?_drop, hi, Option.map_some, numberAt_of_record hr]

end Sys2Proof.Proofs
end


section
/-! PROOFS. The answers of READ TRACK, READ MAP, READ POINT, READ SECTION, READ HEAD, READ LINE, READ DEVICE and READ NOTICES. -/

namespace Sys2Proof.Proofs

open Sys2Proof Sys2Proof.Machine Sys2Proof.Spec

variable {s : State} {y : Yard}

/-! ## READ TRACK and READ MAP (R123, R124) -/

theorem isReject_eq (l : Ladder) (t : TrackIx) : l.isReject t = (l.consts.reject == some t) := rfl

theorem trackBytes_spec (s : State) (t : TrackIx) : TrackAnswer s t (s.trackBytes t) := by
  obtain ⟨feed, hfeed⟩ : ∃ feed : List Byte,
      flag (s.ladder.trackInUse t) :: optional 2 pointLegBytes (s.ladder.feeding (.track t)) = feed := ⟨_, rfl⟩
  have hlen : feed.length = 4 := by
    rw [← hfeed]
    cases s.ladder.feeding (.track t) <;> rfl
  obtain ⟨b0, b1, b2, b3, rfl⟩ : ∃ b0 b1 b2 b3, feed = [b0, b1, b2, b3] := by
    match feed, hlen with
    | [b0, b1, b2, b3], _ => exact ⟨b0, b1, b2, b3, rfl⟩
  have hbytes : s.trackBytes t = [b0, b1, b2, b3] ++
      [flag (s.ladder.isReject t), flag (s.ladder.consts.defaultTrack == some t)] ++
      bytes2 (s.yard.trackOf t).capacity ++ bytes2 (s.yard.trackOf t).fill ++ bytes2 (s.yard.trackOf t).reserved ++
      [flag (s.yard.covered s.ladder t), flag (s.yard.closed s.ladder t), Table.look s.yard.notices.track t] := by
    rw [← hfeed]
    rfl
  rw [hbytes]
  refine ⟨rfl, fun leg hleg => ?_, fun hnot => ?_, rfl, fun hcov => ?_, fun hcov => ?_, rfl⟩
  · rw [Ladder.trackInUse, feeding_track_eq_some.mpr hleg] at hfeed
    change [b0, b1, b2, b3] = _
    rw [← hfeed, ← legByte_code]
    rfl
  · rw [Ladder.trackInUse, feeding_track_eq_none.mpr hnot] at hfeed
    change [b0, b1, b2, b3] = _
    rw [← hfeed]
    rfl
  · change [flag (s.yard.covered s.ladder t), flag (s.yard.closed s.ladder t)] = _
    rw [Yard.closed, covered_iff.mpr hcov, isReject_eq]
    by_cases hr : s.ladder.consts.reject = some t
    · rw [if_pos hr, beq_iff_eq.mpr hr]
      rfl
    · rw [if_neg hr, beq_eq_false_iff_ne.mpr hr]
      rfl
  · change [flag (s.yard.covered s.ladder t), flag (s.yard.closed s.ladder t)] = _
    rw [Yard.closed, Bool.eq_false_iff.mpr fun h => hcov (covered_iff.mp h)]
    rfl

theorem read_track (s : State) (t : TrackIx) :
    ∃ b, Answers (.readTrack (BitVec.ofNat 8 t.val)) s (doneWith b) s ∧ TrackAnswer s t b := by
  refine ⟨_, answers_of_read (answer := readTrackAnswer _) rfl ?_, trackBytes_spec s t⟩
  rw [readTrackAnswer, track?, index?_ofNat (by decide) t]

theorem read_entry (s : State) (i : Fin 32) : ∃ b, Answers (.readMap 0 (BitVec.ofNat 8 i.val)) s (doneWith b) s ∧
    (Table.look s.yard.blockMap i = none → b = List.replicate 9 0) ∧
    ∀ m, Table.look s.yard.blockMap i = some m →
      b = [1, 1, BitVec.ofNat 8 m.code, 1, BitVec.ofNat 8 m.span, 1, BitVec.ofNat 8 m.track.val, 1,
           boolCode (s.ladder.trackInUse m.track)] := by
  refine ⟨s.entryBytes (Table.look s.yard.blockMap i), answers_of_read (answer := readMapAnswer 0 _) rfl ?_, fun h => ?_, fun m h => ?_⟩
  · rw [readMapAnswer, if_pos rfl, index?_ofNat (by decide) i]
  · rw [h]
    rfl
  · rw [h]
    rfl

theorem windowBytes_spec (s : State) (i : Fin 4) : WindowAnswer s i (s.windowBytes (Table.look s.yard.windows i)) := by
  refine ⟨_, rfl, fun h hused hmax => ?_, fun hnone => ?_⟩
  · have hhigh := highestTrack_eq_some.mpr ⟨hused, hmax⟩
    simp only [State.windowBytes, Ladder.windowEnabled, Ladder.effectiveLast, hhigh, Option.map_some, Machine.optional]
    by_cases hle : (Table.look s.yard.windows i).first ≤ min (Table.look s.yard.windows i).last h.val
    · rw [if_pos hle, decide_eq_true hle]
      rfl
    · rw [if_neg hle, decide_eq_false hle]
      rfl
  · have hhigh := highestTrack_eq_none.mpr hnone
    simp only [State.windowBytes, Ladder.windowEnabled, Ladder.effectiveLast, hhigh, Option.map_none, Machine.optional]
    rfl

theorem read_window (s : State) (i : Fin 4) :
    ∃ b, Answers (.readMap 1 (BitVec.ofNat 8 i.val)) s (doneWith b) s ∧ WindowAnswer s i b := by
  refine ⟨_, answers_of_read (answer := readMapAnswer 1 _) rfl ?_, windowBytes_spec s i⟩
  rw [readMapAnswer, if_neg (by decide), if_pos rfl, index?_ofNat (by decide) i]

/-! ## READ POINT (R141, R188) -/

theorem configBytes_some (p : PointIx) (c : PointConfig) : configBytes p (some c) = (pointFields p c).bytes := by
  obtain ⟨root, n, r, dApp, tThrow, grade, nf, rf, stall⟩ := c
  cases n <;> cases r <;> cases nf <;> cases rf <;> rfl

theorem length_pointFields (p : PointIx) (c : PointConfig) : (pointFields p c).bytes.length = 16 := by
  obtain ⟨root, n, r, dApp, tThrow, grade, nf, rf, stall⟩ := c
  cases n <;> cases r <;> rfl

theorem detectionByte_eq (x : Point) : detectionByte x = if x.detectN = x.detectR then 0 else if x.detectN = true then 1 else 2 := by
  unfold detectionByte
  cases x.detectN <;> cases x.detectR <;> rfl

theorem number_eq (y : Yard) (i : SlotIx) : ((Table.look y.slots i).map Record.number).getD 0 = numberIn y i := by
  unfold numberIn
  cases Table.look y.slots i <;> rfl

theorem findIdx_point (p : PointIx) (l : List Waiting) :
    l.findIdx (fun w => w.point == p) = (l.takeWhile (fun v => v.point != p)).length := by
  induction l with
  | nil => rfl
  | cons w l ih =>
    rw [List.findIdx_cons, List.takeWhile_cons]
    by_cases h : w.point = p
    · simp [h]
    · simp [h, ih, beq_eq_false_iff_ne.mpr h]

theorem waitingBytes_eq (y : Yard) (p : PointIx) : waitingBytes y p = entryAnswer y p := by
  unfold waitingBytes entryAnswer
  cases y.waitingOf p with
  | none => rfl
  | some w =>
    dsimp only
    rw [findIdx_point]
    cases hc : w.claim with
    | deadline d i =>
      dsimp only [claimBytes]
      rw [number_eq, legByte_code]
      rfl
    | manual =>
      dsimp only [claimBytes]
      rw [legByte_code]
      rfl

theorem passByte_eq (b : Bool) : bitsOf [true, b] = if b = true then 3 else 1 := by cases b <;> rfl

theorem planBytes_idle (y : Yard) : planBytes y Plan.idle = List.replicate 25 0 := by
  simp only [planBytes, Plan.idle, Option.bind_none, Option.map_none, Option.getD_none, testBytes]
  decide

theorem testBytes_some (t : Test) : testBytes (some t) =
    [if t.pass = true then 3 else 1] ++ le16 (BitVec.ofNat 16 t.speed) ++ le16 (BitVec.ofNat 16 t.allowed) ++
      le32 (BitVec.ofNat 32 t.arrival) ++ le32 (BitVec.ofInt 32 t.margin) ++ le32 t.deadline ++ le32 t.at_ := by
  rw [testBytes, passByte_eq]
  rfl

theorem planBytes_eq (y : Yard) (p : PointIx) : planBytes y ((y.planOf p).getD Plan.idle) = planAnswer y p := by
  unfold planAnswer
  cases y.planOf p with
  | none => exact planBytes_idle y
  | some r =>
    obtain ⟨st, head, needed, test⟩ := r
    dsimp only [Option.getD_some, planBytes]
    rw [planByte_eq]
    cases head <;> cases needed <;> cases test
    all_goals
      simp only [Option.bind_none, Option.bind_some, Option.map_none, Option.map_some, Option.getD_none, Option.getD_some, number_eq,
        legByte_code, testBytes_some]
      rfl

theorem stateBytes_eq (x : Point) :
    [pointStateByte x.state, pointBits x, detectionByte x, (x.state.cause?.map faultByte).getD 0] ++ le32 (x.state.expiry?.getD 0) =
      stateAnswer x := by
  unfold stateAnswer pointBits isReverse
  rw [detectionByte_eq, pointStateByte_eq, bitsOf_eq, faultByte_eq]
  cases x.state <;> rfl

theorem pointBytes_eq (s : State) (p : PointIx) (x : Point) : s.pointBytes p x =
    stateAnswer x ++ entryAnswer s.yard p ++ [BitVec.ofNat 8 s.yard.slotsInUse, BitVec.ofNat 8 s.ladder.consts.slots] ++
      planAnswer s.yard p ++ [s.yard.notices.reasons (.point p)] := by
  rw [State.pointBytes, stateBytes_eq, waitingBytes_eq, planBytes_eq]
  rfl

theorem readPointAnswer_eq (s : State) (p : PointIx) :
    readPointAnswer (BitVec.ofNat 8 p.val) s = doneWith (pointAnswer s p) := by
  unfold pointAnswer
  rw [readPointAnswer, point?_ofNat]
  dsimp only
  cases hx : s.yard.pointOf p with
  | none =>
    cases hc : s.ladder.config p with
    | none => rfl
    | some c => rw [configBytes_some]
  | some x =>
    dsimp only
    rw [pointBytes_eq]
    cases hc : s.ladder.config p with
    | none => simp [configBytes, byteOf]
    | some c => simp [configBytes_some]

theorem length_pointAnswer (s : State) (p : PointIx) : (pointAnswer s p).length = if s.yard.pointOf p = none then 17 else 62 := by
  have hentry : (entryAnswer s.yard p).length = 9 := by
    unfold entryAnswer
    cases s.yard.waitingOf p with
    | none => rfl
    | some w => cases hc : w.claim <;> simp [hc, le16, le32]
  have hplan : (planAnswer s.yard p).length = 25 := by
    unfold planAnswer
    cases s.yard.planOf p with
    | none => rfl
    | some r => cases ht : r.test <;> simp [ht, le16, le32]
  unfold pointAnswer
  cases hx : s.yard.pointOf p <;> cases hc : s.ladder.config p
  all_goals simp [length_pointFields, stateAnswer, le32, hentry, hplan]

theorem read_point (s : State) (p : PointIx) :
    Answers (.readPoint (BitVec.ofNat 8 p.val)) s (doneWith (pointAnswer s p)) s ∧
      (pointAnswer s p).length = (if s.yard.pointOf p = none then 17 else 62) :=
  ⟨answers_of_read (answer := readPointAnswer _) rfl (readPointAnswer_eq s p), length_pointAnswer s p⟩

/-! ## READ HEAD and READ LINE (R30, R38) -/

theorem headBytes_eq (s : State) (h : HeadIx) :
    s.headBytes h = headAnswer (s.ladder.headConfigured h) (Table.look s.heads h) := by
  have hcondition : ∀ c : Condition, conditionByte c = if c = .ok then 0 else 1 := fun c => by cases c <;> rfl
  have hdirection : ∀ d : Direction, directionByte d = if d = .downhill then 0 else 1 := fun d => by cases d <;> rfl
  unfold State.headBytes headAnswer
  dsimp only
  rw [hcondition, decoderByte_eq]
  cases hf : (Table.look s.heads h).fault <;> cases hl : (Table.look s.heads h).last
  all_goals simp [Machine.optional, passageBytes, hdirection, decoderByte_eq, flag_eq, bytes2]

theorem read_head (s : State) (h : HeadIx) : ∃ b, Answers (.readHead (BitVec.ofNat 8 h.val)) s (doneWith b) s ∧
    (Configured s.ladder h → b = headAnswer true (Table.look s.heads h)) ∧
    (¬ Configured s.ladder h → b = headAnswer false (Table.look s.heads h)) := by
  refine ⟨s.headBytes h, answers_of_read (answer := readHeadAnswer _) rfl ?_, fun hc => ?_, fun hc => ?_⟩
  · rw [readHeadAnswer, head?, index?_ofNat (by decide) h]
  · rw [headBytes_eq, headConfigured_iff.mpr hc]
  · rw [headBytes_eq, Bool.eq_false_iff.mpr fun h' => hc (headConfigured_iff.mp h')]

theorem levelByte_eq (v : Level) : levelByte v = if v = .high then 0 else 1 := by cases v <;> rfl

theorem classByte_eq (c : FilterClass) : classByte c = if c = .fast then 0 else 1 := by cases c <;> rfl

theorem dormant_spec (l : Ladder) (r : Role) :
    ((∃ h, (r = .sensorA h ∨ r = .sensorB h) ∧ ¬ Configured l h) ∨ (∃ p, (r = .detectN p ∨ r = .detectR p) ∧ l.config p = none) →
        flag (l.dormant r) = 1) ∧
      ((∀ h, r = .sensorA h ∨ r = .sensorB h → Configured l h) → (∀ p, r = .detectN p ∨ r = .detectR p → l.config p ≠ none) →
        flag (l.dormant r) = 0) := by
  refine ⟨fun h => ?_, fun hhead hpoint => ?_⟩
  · obtain ⟨h, hr, hc⟩ | ⟨p, hr, hp⟩ := h
    · have hno : l.headConfigured h = false := Bool.eq_false_iff.mpr fun h' => hc (headConfigured_iff.mp h')
      obtain rfl | rfl := hr <;> simp [Ladder.dormant, hno, flag]
    · have hno : l.inUse p = false := Bool.eq_false_iff.mpr fun h' => inUse_iff.mp h' hp
      obtain rfl | rfl := hr <;> simp [Ladder.dormant, hno, flag]
  · cases r with
    | sensorA h | sensorB h => simp [Ladder.dormant, flag, headConfigured_iff.mpr (hhead h (by simp))]
    | detectN p | detectR p => simp [Ladder.dormant, flag, inUse_iff.mpr (hpoint p (by simp))]
    | unused | stop | freezeKey k => rfl

/-- The first three bytes of READ LINE: the kind of the role, and its index with its presence byte. -/
theorem roleBytes_spec (r : Role) : ∃ kind present index, NamesRole kind index r ∧
    (roleParts r).1 :: Machine.optional 1 (fun n => [byteOf n]) (roleParts r).2 = [kind, present, index] ∧
    (r = .unused ∨ r = .stop → present = 0 ∧ index = 0) ∧ (r ≠ .unused → r ≠ .stop → present = 1) := by
  have hindex {n : Nat} (hn : n ≤ 256) (i : Fin n) : (byteOf i.val).toNat = i.val := by
    rw [byteOf, BitVec.toNat_ofNat]
    omega
  cases r with
  | unused => exact ⟨0, 0, 0, rfl, rfl, fun _ => ⟨rfl, rfl⟩, fun h => absurd rfl h⟩
  | stop => exact ⟨5, 0, 0, rfl, rfl, fun _ => ⟨rfl, rfl⟩, fun _ h => absurd rfl h⟩
  | sensorA i => exact ⟨1, 1, _, ⟨rfl, hindex (by decide) i⟩, rfl, nofun, fun _ _ => rfl⟩
  | sensorB i => exact ⟨2, 1, _, ⟨rfl, hindex (by decide) i⟩, rfl, nofun, fun _ _ => rfl⟩
  | detectN i => exact ⟨3, 1, _, ⟨rfl, hindex (by decide) i⟩, rfl, nofun, fun _ _ => rfl⟩
  | detectR i => exact ⟨4, 1, _, ⟨rfl, hindex (by decide) i⟩, rfl, nofun, fun _ _ => rfl⟩
  | freezeKey i => exact ⟨6, 1, _, ⟨rfl, hindex (by decide) i⟩, rfl, nofun, fun _ _ => rfl⟩

theorem lineBytes_spec (s : State) (i : LineIx) : LineAnswer s i (s.lineBytes i) := by
  obtain ⟨l, hl⟩ : ∃ l, Table.look s.lines i = l := ⟨_, rfl⟩
  obtain ⟨hdormant, hawake⟩ := dormant_spec s.ladder l.role
  obtain ⟨kind, present, index, hnames, hparts, hnone, hpresent⟩ := roleBytes_spec l.role
  refine ⟨l, kind, present, index, flag (s.ladder.dormant l.role), hl, hnames, ?_, hnone, hpresent, hdormant, hawake⟩
  unfold State.lineBytes
  dsimp only
  rw [hl, hparts, State.reportedLevel, levelByte_eq, levelByte_eq, classByte_eq, hl]
  rfl

theorem read_line (s : State) (line : Byte) : ∃ (i : LineIx) (b : List Byte), i.val = line.toNat ∧
    Answers (.readLine line) s (doneWith b) s ∧ LineAnswer s i b :=
  ⟨line.toFin, _, rfl, answers_of_read (answer := fun z => doneWith (z.lineBytes line.toFin)) rfl rfl, lineBytes_spec s _⟩

/-! ## READ SECTION (R64) -/

theorem selector?_code (sid : SectionId) : selector? (selectorCode sid) = some sid := by
  cases sid with
  | lead => rfl
  | point p =>
    have hne : BitVec.ofNat 8 p.val ≠ 255 := by
      intro h
      have hnat := congrArg BitVec.toNat h
      have hlt := p.isLt
      rw [BitVec.toNat_ofNat] at hnat
      simp at hnat
      omega
    rw [selectorCode, selector?, if_neg hne, point?_ofNat]
    rfl

theorem sectionBytes_eq (y : Yard) (sid : SectionId) (x : Section) :
    sectionBytes y sid x = sectionAnswer x (y.queueAt sid).length := by
  unfold sectionBytes sectionAnswer
  rw [sectionByte_eq]
  cases x.cause with
  | none => rfl
  | some c =>
    simp only [Machine.optional, disturbByte_eq]
    rfl

theorem occupantBytes_eq (y : Yard) (o : Occupant) :
    occupantBytes y o = le16 (numberIn y o.slot) ++ [BitVec.ofNat 8 o.entered, BitVec.ofNat 8 o.exited] := by
  rw [occupantBytes, number_eq]
  rfl

theorem queueBytes_eq (y : Yard) (q : QueueEntry) :
    queueBytes y q = le16 (numberIn y q.slot) ++ le32 q.instant ++ le16 (BitVec.ofNat 16 q.interval) := by
  rw [queueBytes, number_eq]
  rfl

theorem counted_chunk {α : Type} (f : α → List Byte) (start : Byte) (l : List α) : counted f (chunk start l) =
    BitVec.ofNat 8 (min 4 (l.length - start.toNat)) :: ((l.drop start.toNat).take 4).flatMap f := by
  rw [counted, chunk, List.length_take, List.length_drop]
  rfl

section ReadSection

variable {sid : SectionId} {x : Section} {list start : Byte}

theorem readSectionAnswer_pass (hm : s.mode ≠ .setup) (hx : s.yard.sectionOf sid = some x) :
    readSectionAnswer (selectorCode sid) list start s = readSectionOf list start s sid x :=
  onSection_pass hm (selector?_code sid) hx

theorem read_occupants (hm : s.mode ≠ .setup) (hx : s.yard.sectionOf sid = some x) (hs : start.toNat < 64) :
    Answers (.readSection (selectorCode sid) 0 start) s
      (doneWith (sectionAnswer x (s.yard.queueAt sid).length ++
        BitVec.ofNat 8 (min 4 (x.occupants.length - start.toNat)) ::
        ((x.occupants.drop start.toNat).take 4).flatMap (fun o =>
          le16 (numberIn s.yard o.slot) ++ [BitVec.ofNat 8 o.entered, BitVec.ofNat 8 o.exited]))) s := by
  refine answers_of_read (answer := readSectionAnswer _ 0 start) rfl ?_
  rw [readSectionAnswer_pass hm hx, readSectionOf, if_pos rfl, if_pos hs, sectionBytes_eq, counted_chunk,
    funext (occupantBytes_eq s.yard)]

theorem read_approach {p : PointIx} (hm : s.mode ≠ .setup) (hx : s.yard.sectionOf (.point p) = some x) (hs : start.toNat < 64) :
    Answers (.readSection (selectorCode (.point p)) 1 start) s
      (doneWith (sectionAnswer x (s.yard.queueOf p).length ++
        BitVec.ofNat 8 (min 4 ((s.yard.queueOf p).length - start.toNat)) ::
        (((s.yard.queueOf p).drop start.toNat).take 4).flatMap (fun a =>
          le16 (numberIn s.yard a.slot) ++ le32 a.instant ++ le16 (BitVec.ofNat 16 a.interval)))) s := by
  refine answers_of_read (answer := readSectionAnswer _ 1 start) rfl ?_
  rw [readSectionAnswer_pass hm hx, readSectionOf, if_neg (by decide), if_pos rfl, if_neg SectionId.noConfusion, if_pos hs,
    sectionBytes_eq, counted_chunk, funext (queueBytes_eq s.yard)]
  rfl

theorem readSection_refuses_list (hm : s.mode ≠ .setup) (hx : s.yard.sectionOf sid = some x)
    (h : 1 < list.toNat ∨ (sid = .lead ∧ list = 1)) : Refuses (.readSection (selectorCode sid) list start) s .badValue [1] := by
  refine refuses_of_read (answer := readSectionAnswer _ list start) rfl ?_
  rw [readSectionAnswer_pass hm hx, readSectionOf]
  obtain h | ⟨rfl, rfl⟩ := h
  · rw [if_neg (by bv_omega), if_neg (by bv_omega)]
    rfl
  · rfl

theorem readSection_refuses_start (hm : s.mode ≠ .setup) (hx : s.yard.sectionOf sid = some x) (hl : list.toNat ≤ 1)
    (hlead : sid = .lead → list = 0) (h : 63 < start.toNat) :
    Refuses (.readSection (selectorCode sid) list start) s .badValue [2] := by
  refine refuses_of_read (answer := readSectionAnswer _ list start) rfl ?_
  rw [readSectionAnswer_pass hm hx, readSectionOf]
  have hlist : list = 0 ∨ list = 1 := by bv_omega
  have hstart : ¬ start.toNat < 64 := by omega
  obtain rfl | rfl := hlist
  · rw [if_pos rfl, if_neg hstart]
    rfl
  · rw [if_neg (by decide), if_pos rfl, if_neg (fun hsid => absurd (hlead hsid) (by decide)), if_neg hstart]
    rfl

end ReadSection

end Sys2Proof.Proofs
end


section
/-! PROOFS. READ DEVICE, READ NOTICES, what the reads are refused with, and the statement on all of them. -/

namespace Sys2Proof.Proofs

open Sys2Proof Sys2Proof.Machine Sys2Proof.Spec

variable {s : State} {y : Yard}

/-! ## READ DEVICE (R172, R189) -/

theorem freezeArmed_iff (lines : Table 256 Line) : freezeArmed lines = true ↔ ∃ i k, (Table.look lines i).role = .freezeKey k := by
  have hkey : ∀ r : Role, (r.consumer == .freeze) = true ↔ ∃ k, r = .freezeKey k := fun r => by cases r <;> simp [Role.consumer]
  simp [freezeArmed, Line.isKey, hkey]

theorem liveByte_eq (m : ModeControl) : liveByte m = BitVec.ofNat 8
    ((if m.stopFlag = true then 2 else 0) + (if 0 < m.disturbed then 4 else 0) + (if 0 < m.lost then 8 else 0) +
      (if 0 < m.stall then 16 else 0) + (if m.freezeFlag = true then 32 else 0)) := by
  simp [liveByte, bitsOf_eq, bitByte, haltCauses, ModeControl.live, List.range_succ, Nat.add_assoc]

theorem device_control (s : State) : DeviceControlBytes s s.deviceBytes := by
  have hbit : ∀ k, k < 8 → (s.deviceBytes.getD 3 0).getLsbD k =
      [s.yard.control.stopFlag, s.yard.control.freezeFlag, freezeArmed s.lines, s.yard.control.permit].getD k false :=
    fun k hk => getLsbD_bitsOf _ hk
  refine ⟨modeByte_eq _, rfl, liveByte_eq _, ⟨hbit 0 (by decide), hbit 1 (by decide), ?_, hbit 3 (by decide)⟩, rfl, fun hnil => ?_,
    fun i rest r hlist hr => ?_, rfl⟩
  · rw [hbit 2 (by decide)]
    exact freezeArmed_iff s.lines
  · have hhead : s.yard.headRecord = none := by rw [Yard.headRecord, hnil]; rfl
    change le16 ((s.yard.headRecord.map Record.number).getD 0) ++ [headKind s.yard.headRecord] = _
    rw [hhead]
    rfl
  · have hhead : s.yard.headRecord = some r := by rw [Yard.headRecord, hlist]; exact hr
    constructor
    · change le16 ((s.yard.headRecord.map Record.number).getD 0) = _
      rw [hhead]
      rfl
    · change headKind s.yard.headRecord = _
      rw [hhead]
      cases r with
      | cut c => rfl
      | hold n reached => cases reached <;> rfl

theorem device_crest (s : State) : DeviceCrestBytes s s.deviceBytes := by
  obtain ⟨c, hc⟩ : ∃ c, s.yard.crest = c := ⟨_, rfl⟩
  have hbit : ∀ k, k < 8 → (s.deviceBytes.getD 13 0).getLsbD k =
      [c.state.slot?.isSome, c.state.entry?.isSome, c.timer.isSome, c.previous.isSome].getD k false :=
    fun k hk => hc ▸ getLsbD_bitsOf _ hk
  have hstate : s.deviceBytes.getD 12 0 = crestByte c.state := hc ▸ rfl
  have hslot : s.deviceBytes.getD 14 0 = byteOf ((c.state.slot?.map (fun i => i.val)).getD 0) := hc ▸ rfl
  have hentry : (s.deviceBytes.drop 15).take 4 = le16 ((c.state.entry?.map (fun x => x.number)).getD 0) ++
      [byteOf ((c.state.entry?.map (fun x => x.tally)).getD 0), byteOf ((c.state.entry?.map (fun x => x.target)).getD 0)] :=
    hc ▸ rfl
  have htimer : (s.deviceBytes.drop 19).take 4 = le32 ((c.timer.map (fun t => t.expiry)).getD 0) := hc ▸ rfl
  have hprev : (s.deviceBytes.drop 23).take 7 = byteOf ((c.previous.map (fun p => p.slot.val)).getD 0) ::
      le16 ((c.previous.map (fun p => p.number)).getD 0) ++ le32 ((c.previous.map (fun p => p.instant)).getD 0) := hc ▸ rfl
  have horder : (s.deviceBytes.drop 30).take 4 = le32 c.nextOrder := hc ▸ rfl
  unfold DeviceCrestBytes
  rw [hc, hstate, hslot, hentry, htimer, hprev, horder, hbit 0 (by decide), hbit 1 (by decide), hbit 2 (by decide), hbit 3 (by decide)]
  refine ⟨fun h => ?_, fun i x h => ?_, fun i x h => ?_, fun o x h => ?_, fun x h => ?_, rfl, fun g h => ?_, rfl, fun p h => ?_, rfl⟩
  · rw [h]
    exact ⟨rfl, rfl, rfl⟩
  · obtain h | h := h <;> rw [h] <;> exact ⟨rfl, rfl⟩
  · rw [h]
    rfl
  · rw [h]
    exact ⟨rfl, rfl⟩
  · obtain ⟨i, h⟩ | ⟨o, h⟩ := h <;> rw [h] <;> exact ⟨rfl, rfl⟩
  · rw [h]
    rfl
  · rw [h]
    rfl

theorem device_tail (s : State) : DeviceTailBytes s s.deviceBytes := by
  obtain ⟨k, hk⟩ : ∃ k, s.ladder.consts = k := ⟨_, rfl⟩
  have hconsts : k.bytes = (yardFields k).bytes := by
    obtain ⟨spacing, guard, gIn, gCpl, leadStall, slots, reject, defaultTrack⟩ := k
    cases reject <;> cases defaultTrack <;> rfl
  unfold DeviceTailBytes
  rw [hk, ← hconsts, ← hk, BitVec.ofNat_toNat]
  rfl

theorem read_device (s : State) : ∃ b, Answers .readDevice s (doneWith b) s ∧ b.length = 54 ∧ DeviceControlBytes s b ∧
    DeviceCrestBytes s b ∧ DeviceTailBytes s b :=
  ⟨_, answers_of_read (answer := fun z => doneWith z.deviceBytes) rfl rfl, rfl, device_control s, device_crest s, device_tail s⟩

/-! ## READ NOTICES (R177, R190) -/

theorem bitmap_bit {n i : Nat} (raised : Nat → Bool) (h : i / 8 < n) : ((bitmap n raised).getD (i / 8) 0).getLsbD (i % 8) = raised i := by
  have hbit : i % 8 < 8 := Nat.mod_lt _ (by decide)
  have hbyte : (bitmap n raised).getD (i / 8) 0 = bitsOf ((List.range 8).map (fun k => raised (8 * (i / 8) + k))) := by
    simp [bitmap, List.getD_eq_getElem?_getD, h]
  rw [hbyte, getLsbD_bitsOf _ hbit]
  simp [List.getD_eq_getElem?_getD, hbit, Nat.div_add_mod]

theorem raisedAt_fin {n : Nat} (t : Table n Byte) (i : Fin n) : raisedAt t i.val = (Table.look t i != 0) := by
  rw [raisedAt, dif_pos i.isLt]

theorem notices_answer (n : Notices) : NoticesAnswer n n.bytes := by
  have hcuts : (n.bytes).take 8 = bitmap 8 (raisedAt n.cut) := rfl
  have hpoints : ((n.bytes).drop 8).take 5 = bitmap 5 (raisedAt n.point) := rfl
  have htracks : ((n.bytes).drop 13).take 6 = bitmap 6 (raisedAt n.track) := rfl
  have hget {start len k : Nat} {l : List Byte} (h : ((n.bytes).drop start).take len = l) (hk : k < len) :
      (n.bytes).getD (start + k) 0 = l.getD k 0 := by
    rw [← h, List.getD_eq_getElem?_getD, List.getD_eq_getElem?_getD, List.getElem?_take, if_pos hk, List.getElem?_drop]
  refine ⟨rfl, fun i => ?_, fun p => ?_, fun t => ?_, ?_, ?_⟩
  · have hk : i.val / 8 < 8 := by omega
    have hbyte := hget (start := 0) hcuts hk
    rw [Nat.zero_add] at hbyte
    rw [hbyte, bitmap_bit _ hk, raisedAt_fin]
    rfl
  · have hk : p.val / 8 < 5 := by omega
    rw [hget hpoints hk, bitmap_bit _ hk, raisedAt_fin]
    rfl
  · have hk : t.val / 8 < 6 := by omega
    rw [hget htracks hk, bitmap_bit _ hk, raisedAt_fin]
    rfl
  · have hbyte : (n.bytes).getD 18 0 = bitsOf ((List.range 8).map (fun k => raisedAt n.track (8 * 5 + k))) := rfl
    have hbeyond : ∀ k, 41 ≤ k → raisedAt n.track k = false := fun k hk => dif_neg (by omega)
    rw [hbyte]
    simp only [List.range_succ, List.range_zero, List.nil_append, List.cons_append, List.map_cons, List.map_nil]
    rw [hbeyond (8 * 5 + 1) (by decide), hbeyond (8 * 5 + 2) (by decide), hbeyond (8 * 5 + 3) (by decide),
      hbeyond (8 * 5 + 4) (by decide), hbeyond (8 * 5 + 5) (by decide), hbeyond (8 * 5 + 6) (by decide),
      hbeyond (8 * 5 + 7) (by decide)]
    cases raisedAt n.track (8 * 5 + 0) <;> decide
  · rw [← bitsOf_eq, ← bitsOf_eq]
    rfl

theorem read_notices (s : State) : ∃ b, Answers .readNotices s (doneWith b) s ∧ NoticesAnswer s.yard.notices b :=
  ⟨_, answers_of_read (answer := fun z => doneWith z.yard.notices.bytes) rfl rfl, notices_answer _⟩

/-! ## What the reads are refused with -/

theorem index?_beyond {n : Nat} {b : Byte} (h : n ≤ b.toNat) : index? n b = none := dif_neg (by omega)

theorem selector?_beyond {sel : Byte} (h : 39 < sel.toNat) (hne : sel ≠ 255) : selector? sel = none := by
  rw [selector?, if_neg hne, point?, index?_beyond h]
  rfl

theorem readSection_refuses_setup {sel list start : Byte} (h : s.mode = .setup) :
    Refuses (.readSection sel list start) s .badMode [] := by
  refine refuses_of_read (answer := readSectionAnswer sel list start) rfl ?_
  rw [readSectionAnswer, onSection, if_pos h]
  rfl

theorem readSection_refuses_selector {sel list start : Byte} (hm : s.mode ≠ .setup) (h : 39 < sel.toNat) (hne : sel ≠ 255) :
    Refuses (.readSection sel list start) s .badValue [0] := by
  refine refuses_of_read (answer := readSectionAnswer sel list start) rfl ?_
  rw [readSectionAnswer, onSection, if_neg hm, selector?_beyond h hne]
  rfl

theorem readSection_refuses_absent {list start : Byte} {p : PointIx} (hm : s.mode ≠ .setup)
    (h : s.yard.sectionOf (.point p) = none) :
    Refuses (.readSection (BitVec.ofNat 8 p.val) list start) s .noRecord [BitVec.ofNat 8 p.val] := by
  refine refuses_of_read (answer := readSectionAnswer _ list start) rfl ?_
  have hsel : selector? (BitVec.ofNat 8 p.val) = some (.point p) := selector?_code (.point p)
  rw [readSectionAnswer, onSection, if_neg hm, hsel]
  dsimp only
  rw [h]
  rfl

theorem readRefusals (s : State) : ReadRefusals s := by
  refine ⟨fun kind value h => ?_, ?_, fun n hn hfree => ?_, fun v h => ?_, fun i h => ?_, fun start h => ?_, fun b h => ?_,
    fun kind index => ⟨fun h => ?_, fun h => ?_, fun h => ?_⟩, fun b h => ?_, fun b h => ?_, fun list start =>
      ⟨fun hm sel => readSection_refuses_setup hm, fun hm => ⟨fun sel h hne => readSection_refuses_selector hm h hne,
        fun p h => readSection_refuses_absent hm h, fun sid x hx => ⟨fun h => readSection_refuses_list hm hx h,
          fun hl hlead h => readSection_refuses_start hm hx hl hlead h⟩⟩⟩⟩
  · refine refuses_of_read (answer := readCutAnswer kind value) rfl ?_
    rw [readCutAnswer, if_neg (by bv_omega), if_neg (by bv_omega)]
    rfl
  · exact refuses_of_read (answer := readCutAnswer 0 0) rfl rfl
  · refine refuses_of_read (answer := readCutAnswer 0 n) rfl ?_
    rw [readCutAnswer, if_pos rfl, if_neg hn, slotOfNumber_of_free hfree]
    rfl
  · refine refuses_of_read (answer := readCutAnswer 1 v) rfl ?_
    rw [readCutAnswer, if_neg (by decide), if_pos rfl, dif_neg (by omega)]
    rfl
  · refine refuses_of_read (answer := readCutAnswer 1 _) rfl ?_
    rw [readCutAnswer_slot, State.readSlot, h]
    rfl
  · refine refuses_of_read (answer := readPendingAnswer start) rfl ?_
    rw [readPendingAnswer, if_neg (by omega)]
    rfl
  · refine refuses_of_read (answer := readTrackAnswer b) rfl ?_
    rw [readTrackAnswer, track?, index?_beyond h]
    rfl
  · refine refuses_of_read (answer := readMapAnswer kind index) rfl ?_
    rw [readMapAnswer, if_neg (by bv_omega), if_neg (by bv_omega)]
    rfl
  · refine refuses_of_read (answer := readMapAnswer 0 index) rfl ?_
    rw [readMapAnswer, if_pos rfl, index?_beyond h]
    rfl
  · refine refuses_of_read (answer := readMapAnswer 1 index) rfl ?_
    rw [readMapAnswer, if_neg (by decide), if_pos rfl, index?_beyond h]
    rfl
  · refine refuses_of_read (answer := readPointAnswer b) rfl ?_
    rw [readPointAnswer, point?, index?_beyond h]
    rfl
  · refine refuses_of_read (answer := readHeadAnswer b) rfl ?_
    rw [readHeadAnswer, head?, index?_beyond h]
    rfl

/-- Settles O55: each read's answer is compared with the bytes of its rule, piece by piece. -/
theorem readsAnswerAndChangeNothing : Obligations.ReadsAnswerAndChangeNothing := by
  intro s
  refine ⟨fun c hc => read_answers hc, readRefusals s, fun i r hr => read_cut hr, fun start h => read_pending h, read_track s,
    read_entry s, read_window s, read_point s, fun sid x start hm hx hs => ⟨?_, ?_⟩, read_head s, read_line s, read_device s,
    read_notices s⟩
  · rintro rfl
    exact read_occupants hm hx hs
  · rintro p rfl
    exact ⟨read_occupants hm hx hs, read_approach hm hx hs⟩

end Sys2Proof.Proofs
end


section
/-! PROOFS. AMEND of the destination of a cut on the ladder (R79 to R81, R117, R156). -/

namespace Sys2Proof.Proofs

open Sys2Proof Sys2Proof.Machine Sys2Proof.Spec

variable {s : State} {y z : Yard} {e : Env} {i j : SlotIx} {c : Cut} {x : Started} {t : TrackIx} {cause : Option ResolutionCause}

/-! ## What the planner keeps of a cut -/

/-- The slot holds the cut with its number, destination, axle count, state and progress; route and resolution may be others. -/
def Travels (i : SlotIx) (c : Cut) (x : Started) (y : Yard) : Prop :=
  ∃ c' x', y.cutAt i = some c' ∧ c'.started = some x' ∧ c'.number = c.number ∧ c'.dest = c.dest ∧ c'.axles = c.axles ∧
    c'.state = c.state ∧ x'.progress = x.progress ∧ x'.crestAxles = x.crestAxles ∧ x'.inTrack = x.inTrack

namespace Travels

theorem of_slots (h : Travels i c x y) (hs : z.slots = y.slots) : Travels i c x z := by
  obtain ⟨c', x', hc, hx⟩ := h
  exact ⟨c', x', (Yard.cutAt_congr hs i).trans hc, hx⟩

theorem modifyStarted (h : Travels i c x y) (j : SlotIx) {f : Started → Started}
    (hf : ∀ z, (f z).progress = z.progress ∧ (f z).crestAxles = z.crestAxles ∧ (f z).inTrack = z.inTrack) :
    Travels i c x (y.modifyStarted j f) := by
  obtain ⟨c', x', hc, hx, hn, hd, ha, hs, hp, hk, ht⟩ := h
  obtain ⟨fp, fk, ft⟩ := hf x'
  by_cases hj : j = i
  · refine ⟨{ c' with started := some (f x') }, f x', ?_, rfl, hn, hd, ha, hs, fp.trans hp, fk.trans hk, ft.trans ht⟩
    rw [Yard.cutAt_modifyStarted, if_pos hj, hc, Option.map_some, hx, Option.map_some]
  · exact ⟨c', x', by rw [Yard.cutAt_modifyStarted, if_neg hj, hc], hx, hn, hd, ha, hs, hp, hk, ht⟩

theorem reroute (h : Travels i c x y) (j : SlotIx) (t : TrackIx) (cause : Option ResolutionCause) :
    Travels i c x (y.reroute e j t cause) := by
  unfold Yard.reroute
  repeat' split
  · exact h
  · exact h.modifyStarted j fun _ => ⟨rfl, rfl, rfl⟩
  · exact (h.of_slots (by simp)).modifyStarted j fun _ => ⟨rfl, rfl, rfl⟩
  all_goals exact h

end Travels

theorem planClosed_travels (e : Env) (i : SlotIx) (c : Cut) (x : Started) : PlanClosed e (Travels i c x) where
  plan y q f hy := hy.of_slots (by simp)
  speed y j n hy := hy.modifyStarted j fun _ => ⟨rfl, rfl, rfl⟩
  remove _ _ hy := hy
  pop _ _ _ hy _ := hy
  place y w hy := by
    unfold Yard.placeWaiting
    split <;> exact hy
  divert y j q l k hy := by
    unfold Yard.divertInto
    split
    · refine Travels.of_slots ?_ (Yard.raiseCut_slots _ _ _)
      exact Travels.modifyStarted (hy.reroute j _ none) j fun _ => ⟨rfl, rfl, rfl⟩
    · exact hy
  cancelled y p hy := hy.of_slots (by simp)
  grant y w hy _ _ hel := by
    obtain ⟨origin, hl⟩ := lie_of_eligible hel
    rw [grant_of_lie hl]
    unfold Yard.grantPlanned
    split
    all_goals exact hy.of_slots (by simp)

/-! ## Reachability and room (R79, R80) -/

theorem firstDifference_of_prefix {l r : List Pair} (h : l <+: r) : firstDifference l r = none := by
  obtain ⟨k, rfl⟩ := h
  induction l with
  | nil => rfl
  | cons a l ih => rw [List.cons_append, firstDifference, if_pos rfl, ih]

theorem firstDifference_of_differs {l r : List Pair} {k : Nat} {pr : Pair} (hl : l[k]? = some pr) (hr : r[k]? ≠ some pr)
    (hsame : ∀ m, m < k → r[m]? = l[m]?) : firstDifference l r = some pr.1 := by
  induction k generalizing l r with
  | zero =>
    match l, hl with
    | a :: l, hl =>
      obtain rfl : a = pr := Option.some.inj hl
      cases r with
      | nil => rfl
      | cons b r => rw [firstDifference, if_neg fun heq => hr (by rw [heq]; rfl)]
  | succ k ih =>
    match l, hl with
    | a :: l, hl =>
      cases r with
      | nil => exact absurd (hsame 0 (Nat.succ_pos k)) (by simp)
      | cons b r =>
        obtain rfl : b = a := Option.some.inj (hsame 0 (Nat.succ_pos k))
        rw [firstDifference, if_pos rfl]
        exact ih hl hr fun m hm => hsame (m + 1) (Nat.succ_lt_succ hm)

theorem hasRoom_iff {l : Ladder} {tr : Track} {reserved axles : Nat} : l.hasRoom t tr reserved axles = true ↔
    l.consts.reject = some t ∨ tr.capacity = 0 ∨ tr.fill + reserved + axles ≤ tr.capacity := by
  simp [Ladder.hasRoom, Ladder.isReject, or_assoc]

/-- The reserved count of the new track without the cut's own axles. -/
theorem ownReserved (reserved axles : Nat) (p : Prop) [Decidable p] :
    (if p then reserved - axles else reserved) = reserved - (if p then axles else 0) := by
  split <;> rfl

theorem newTrack_eq {l : Ladder} {d : Destination} (htrack : ∀ u, d = .track u → t = u ∧ cause = none)
    (hblock : ∀ code, d = .block code → (t, cause) = y.lookup l code) : y.newTrack l d = (t, cause) := by
  cases d with
  | track u =>
    obtain ⟨rfl, rfl⟩ := htrack u rfl
    rfl
  | block code => exact (hblock code rfl).symm

/-! ## The effect (R81, R117, R156) -/

/-- The yard with the cut's destination replaced. -/
def readdressed (i : SlotIx) (d : Destination) (y : Yard) : Yard := y.modifyCut i (fun c => { c with dest := d })

/-- The yard with the cut bound for the new track, before the planner is told. -/
def reboundYard (e : Env) (i : SlotIx) (d : Destination) (t : TrackIx) (cause : Option ResolutionCause) (y : Yard) : Yard :=
  ((readdressed i d y).reroute e i t cause).raiseCut i .rerouted

theorem amendStarted_same (e : Env) (i : SlotIx) (d : Destination) (t : TrackIx) (cause : Option ResolutionCause) (y : Yard) :
    y.amendStarted e i d t cause t = readdressed i d y := if_pos rfl

theorem amendStarted_other {bound : TrackIx} (d : Destination) (h : t ≠ bound) :
    y.amendStarted e i d t cause bound = (reboundYard e i d t cause y).routeChanged e i := if_neg h

theorem cutAt_readdressed (h : y.cutAt i = some c) (d : Destination) : (readdressed i d y).cutAt i = some { c with dest := d } := by
  rw [readdressed, Yard.cutAt_modifyCut, if_pos rfl, h, Option.map_some]

/-- What the cut is when it is bound for the new track. -/
def reboundCut (l : Ladder) (d : Destination) (t : TrackIx) (cause : Option ResolutionCause) (c : Cut) (x : Started) : Cut :=
  { c with dest := d, started := some { x with resolved := t, route := l.routeOf t, cause := cause } }

theorem reboundYard_cut (h : y.cutAt i = some c) (hl : c.onLadder = true) (hx : c.started = some x) (ht : t ≠ x.resolved)
    (d : Destination) : (reboundYard e i d t cause y).cutAt i = some (reboundCut e.ladder d t cause c x) ∧
      AxlesMoved y (reboundYard e i d t cause y) x.resolved t c.axles := by
  obtain ⟨hcut, haxles⟩ := reroute_cut (e := e) (t := t) (cause := cause) (cutAt_readdressed h d) hl hx
  refine ⟨?_, axlesMoved_of_tracks haxles (by simp [readdressed]) (by simp [reboundYard])⟩
  rw [reboundYard, Yard.cutAt_congr (Yard.raiseCut_slots _ _ _), hcut, boundTo, if_neg ht, reboundCut]

/-- What binding a cut for another track leaves alone. -/
theorem reboundYard_fields (e : Env) (i : SlotIx) (d : Destination) (t : TrackIx) (cause : Option ResolutionCause) (y : Yard) :
    (reboundYard e i d t cause y).standing = y.standing ∧ (reboundYard e i d t cause y).points = y.points ∧
      (reboundYard e i d t cause y).plans = y.plans ∧ (reboundYard e i d t cause y).waiting = y.waiting ∧
      (reboundYard e i d t cause y).slotsInUse = y.slotsInUse := by
  unfold reboundYard readdressed Yard.reroute
  refine ⟨?_, ?_, ?_, ?_, ?_⟩
  all_goals
    repeat' split
    all_goals simp

/-- What the answer to an accepted AMEND and every part of its yard but cuts, tracks and planning are. -/
structure Amended (s : State) (i : SlotIx) (d : Destination) (c : Cut) (x : Started) (w : Yard) (x' : Started) : Prop where
  reply : w.resolvedReply i = doneWith [BitVec.ofNat 8 x'.resolved.val]
  cut : ∃ c', w.cutAt i = some c' ∧ c'.started = some x' ∧ c'.number = c.number ∧ c'.dest = d ∧ c'.axles = c.axles ∧
    c'.state = c.state ∧ x'.progress = x.progress ∧ x'.crestAxles = x.crestAxles ∧ x'.inTrack = x.inTrack
  standing : w.standing = s.yard.standing

theorem routeChanged_cases (e : Env) (i : SlotIx) (y : Yard) : y.routeChanged e i = y ∨
    ∃ q, y.queueHead q = some i ∧ y.routeChanged e i = y.evaluate e q := by
  unfold Yard.routeChanged
  split
  next q hq =>
    split
    next hhead => exact .inr ⟨q, hhead, rfl⟩
    · exact .inl rfl
  · exact .inl rfl

theorem routeChanged_at_head {q : PointIx} {leg : Leg} (hc : y.cutAt i = some c) (hx : c.started = some x)
    (hroute : x.route[x.progress]? = some (q, leg)) (hhead : y.queueHead q = some i) : y.routeChanged e i = y.evaluate e q := by
  have hnext : (y.startedAt i).bind Started.nextPoint = some q := by
    rw [startedAt_of_cutAt hc, hx, Option.bind_some, Started.nextPoint, hroute, Option.map_some]
  rw [Yard.routeChanged, hnext]
  dsimp only
  rw [if_pos hhead]

theorem routeChanged_keeps {P : Yard → Prop} (h : PlanClosed e P) (i : SlotIx) (hy : P y) : P (y.routeChanged e i) := by
  obtain heq | ⟨q, -, heq⟩ := routeChanged_cases e i y
  · rwa [heq]
  · rw [heq]
    exact h.evaluate q hy

theorem standing_routeChanged (e : Env) (i : SlotIx) (y : Yard) : (y.routeChanged e i).standing = y.standing := by
  obtain heq | ⟨q, -, heq⟩ := routeChanged_cases e i y <;> rw [heq]
  simp

theorem reboundYard_travels (h : y.cutAt i = some c) (hl : c.onLadder = true) (hx : c.started = some x) (ht : t ≠ x.resolved)
    (d : Destination) : Travels i { c with dest := d } x (reboundYard e i d t cause y) :=
  ⟨_, _, (reboundYard_cut h hl hx ht d).1, rfl, rfl, rfl, rfl, rfl, rfl, rfl, rfl⟩

theorem amendStarted_amended (h : s.yard.cutAt i = some c) (hl : c.onLadder = true) (hx : c.started = some x) (d : Destination) :
    ∃ x', Amended s i d c x (s.yard.amendStarted e i d t cause x.resolved) x' := by
  have hboth : Travels i { c with dest := d } x (s.yard.amendStarted e i d t cause x.resolved) ∧
      (s.yard.amendStarted e i d t cause x.resolved).standing = s.yard.standing := by
    by_cases ht : t = x.resolved
    · rw [ht, amendStarted_same]
      exact ⟨⟨_, x, cutAt_readdressed h d, hx, rfl, rfl, rfl, rfl, rfl, rfl, rfl⟩, Yard.standing_modifyCut _ _ _⟩
    · rw [amendStarted_other d ht, standing_routeChanged]
      exact ⟨routeChanged_keeps (planClosed_travels e i _ x) i (reboundYard_travels h hl hx ht d), (reboundYard_fields ..).1⟩
  obtain ⟨⟨c', x', hc, hx', hrest⟩, hs⟩ := hboth
  exact ⟨x', by rw [Yard.resolvedReply, startedAt_of_cutAt hc, hx']; rfl, ⟨c', hc, hx', hrest⟩, hs⟩

section Request

variable {n : Word16} {d : Destination} {a : Byte}

theorem amendBody_inFlight (hn : n ≠ 0) (hi : HoldsNumber s.yard n i (.cut c)) (hc : c.state = .entering ∨ c.state = .rolling)
    (hx : c.started = some x) (hd : DestinationAccepted s d) :
    amendBody n 1 (destinationCode d).1 (destinationCode d).2 a s = s.amendInFlight i c x d := by
  have hpending : c.state ≠ .pending := by obtain h | h := hc <;> rw [h] <;> exact CutState.noConfusion
  have hladder : c.onLadder = true := by obtain h | h := hc <;> simp [Cut.onLadder, h]
  rw [(amendBody_one hn _ _ a).2 _ (selectedDestination_code hd), State.amendRecord, slotOfNumber_of_holds hi]
  dsimp only
  rw [cutAt_of_cut hi.1]
  dsimp only
  rw [if_neg hpending, hladder, hx]
  rfl

/-- AMEND past the checks of its fields and its record: reachability, closure, room, effect (R79 to R81). -/
theorem amendInFlight_eq (hnew : s.yard.newTrack s.ladder d = (t, cause)) : s.amendInFlight i c x d =
    match firstDifference (x.route.take x.progress) (s.ladder.routeOf t) with
    | some p => (refuseAt .unreachable p.val, s)
    | none =>
      if s.yard.closed s.ladder t then (refuseAt .closed t.val, s)
      else if !s.ladder.hasRoom t (s.yard.trackOf t)
          ((s.yard.trackOf t).reserved - (if t = x.resolved then c.axles else 0)) c.axles then (refuseAt .full t.val, s)
      else
        ((s.yard.amendStarted s.env i d t cause x.resolved).resolvedReply i,
          s.withYard (s.yard.amendStarted s.env i d t cause x.resolved)) := by
  rw [State.amendInFlight, hnew]
  dsimp only
  rw [ownReserved] <;> rfl

end Request

/-- The axles of a cut that is bound for another track have moved between the reserved counts, and no fill has changed. -/
theorem counts_of_axlesMoved {source dest : TrackIx} {m : Nat} (h : AxlesMoved y z source dest m) (hne : source ≠ dest) :
    (z.trackOf dest).reserved = (y.trackOf dest).reserved + m ∧ (z.trackOf source).reserved = (y.trackOf source).reserved - m ∧
      ∀ k, (z.trackOf k).fill = (y.trackOf k).fill := by
  have hall := h.2 hne
  refine ⟨?_, ?_, fun k => ?_⟩
  · rw [hall, if_neg (Ne.symm hne), if_pos rfl]
  · rw [hall, if_pos rfl]
  · rw [hall]

/-- Settles O52: the checks in their order, then the cut rebound and the planner told where it heads the queue ahead. -/
theorem amendReroutesCutOnLadder : Obligations.AmendReroutesCutOnLadder := by
  intro s n i c x d a t cause hn hi hc hx hd htrack hblock
  have hcut := cutAt_of_cut hi.1
  have hladder : c.onLadder = true := by obtain h | h := hc <;> simp [Cut.onLadder, h]
  have hbody := (amendBody_inFlight (a := a) hn hi hc hx hd).trans (amendInFlight_eq (newTrack_eq htrack hblock))
  refine ⟨fun k pr hk hpr hne hsame => ?_, fun hpre hclosed => ?_, fun hpre hopen hrej hcap hover => ?_, fun hpre hopen hroom => ?_⟩
  · refine refuses_of_serve (c := .amend n 1 _ _ a) rfl (hbody.trans ?_)
    have htake : ∀ m, m ≤ k → (x.route.take x.progress)[m]? = x.route[m]? := fun m hm => by
      rw [List.getElem?_take, if_pos (Nat.lt_of_le_of_lt hm hk)]
    rw [firstDifference_of_differs (k := k) (pr := pr) (by rw [htake k le_rfl, hpr]) hne
      (fun m hm => by rw [htake m (Nat.le_of_lt hm), hsame m hm])]
    rfl
  · refine refuses_of_serve (c := .amend n 1 _ _ a) rfl (hbody.trans ?_)
    rw [firstDifference_of_prefix hpre]
    dsimp only
    rw [if_pos hclosed]
    rfl
  · refine refuses_of_serve (c := .amend n 1 _ _ a) rfl (hbody.trans ?_)
    rw [firstDifference_of_prefix hpre]
    dsimp only
    have hfull : s.ladder.hasRoom t (s.yard.trackOf t) ((s.yard.trackOf t).reserved - (if t = x.resolved then c.axles else 0)) c.axles =
        false := by
      refine Bool.eq_false_iff.mpr fun h => ?_
      obtain h | h | h := hasRoom_iff.mp h
      · exact hrej h
      · exact hcap h
      · omega
    rw [hopen, if_neg Bool.false_ne_true, hfull]
    rfl
  · have hdone : amendBody n 1 (destinationCode d).1 (destinationCode d).2 a s =
        ((s.yard.amendStarted s.env i d t cause x.resolved).resolvedReply i,
          s.withYard (s.yard.amendStarted s.env i d t cause x.resolved)) := by
      rw [hbody, firstDifference_of_prefix hpre]
      dsimp only
      rw [hopen, if_neg Bool.false_ne_true, hasRoom_iff.mpr hroom]
      rfl
    obtain ⟨x', hamended⟩ := amendStarted_amended (e := s.env) (t := t) (cause := cause) hcut hladder hx d
    obtain ⟨w, hw⟩ : ∃ w, s.yard.amendStarted s.env i d t cause x.resolved = w := ⟨_, rfl⟩
    rw [hw] at hdone hamended
    obtain ⟨hreply, ⟨c', hc', hx', hnumber, hdest, haxles, hstate, hprogress, hcrest, htrack⟩, hstanding⟩ := hamended
    obtain ⟨-, -, -, hladder', -, hmode, hlead, hsections, hqueues, hunit, hlist⟩ := request_frame (s := s) hstanding
    refine ⟨s.withYard w, c', x', answers_of_serve (c := .amend n 1 _ _ a) rfl (hdone.trans (by rw [hreply])), hc', hx',
      hnumber.trans hi.2.1, hdest, haxles, hstate, hprogress, hcrest, htrack, hmode, hladder', hlist, hunit,
      sectionOf_of_fields hlead hsections, hqueues, fun ht => ?_, fun ht => ?_⟩
    · have hyard : w = readdressed i d s.yard := by rw [← hw, ht, amendStarted_same]
      rw [hyard, cutAt_readdressed hcut d] at hc'
      obtain rfl := Option.some.inj hc'
      exact ⟨Option.some.inj (hx'.symm.trans hx), hyard ▸ Yard.modifyCut_tracks _ _ _⟩
    · obtain ⟨hnew, hmoved⟩ := reboundYard_cut (e := s.env) (cause := cause) hcut hladder hx ht d
      obtain ⟨hstand, hpoints, hplans, hwaiting, hslots⟩ := reboundYard_fields s.env i d t cause s.yard
      have hraised : Raised (reboundYard s.env i d t cause s.yard) (.cut i) 7 := raised_raiseCut i .rerouted _
      rw [amendStarted_other d ht] at hw
      generalize reboundYard s.env i d t cause s.yard = z at *
      have hhead : ∀ q, z.queueHead q = s.yard.queueHead q := queueHead_of_queues (queues_of_standing hstand)
      refine ⟨hw ▸ routeChanged_keeps (planClosed_raised s.env _ _) i hraised, fun hno => ?_, fun q leg hq hroute => ?_⟩
      · have hyard : w = z := by
          obtain heq | ⟨q, hq, -⟩ := routeChanged_cases s.env i z
          · exact hw.symm.trans heq
          · exact absurd ((hhead q).symm.trans hq) (hno q)
        rw [hyard, hnew] at hc'
        obtain rfl := Option.some.inj hc'
        obtain ⟨hto, hfrom, hfill⟩ := counts_of_axlesMoved hmoved (Ne.symm ht)
        exact ⟨(Option.some.inj hx').symm, hyard ▸ hto, hyard ▸ hfrom, hyard ▸ hfill, hyard ▸ hpoints, hyard ▸ hplans⟩
      · rw [routeChanged_at_head hnew rfl hroute ((hhead q).trans hq)] at hw
        obtain ⟨zlead, zsections, zqueues, -, -, -, -, zcontrol⟩ := Yard.standing_ext hstand
        exact ⟨z, hw ▸ settledFrom_answered s w, hnew, hmoved, zqueues, hpoints, zlead, zsections, hplans, hwaiting, hslots, zcontrol⟩

end Sys2Proof.Proofs
end


section
/-! SUPPORT. The first three stages of the ladder check: the root, the legs, the feeding (R15 to R17). -/

namespace Sys2Proof.Proofs

open Sys2Proof Sys2Proof.Machine Sys2Proof.Spec

/-! ## First answers of a list in an order -/

/-- The first of an ordered list whose test answers gives the answer. -/
theorem findSome?_of_first {α β : Type} {R : α → α → Prop} {l : List α} (hl : l.Pairwise R) {f : α → Option β} {a : α} {b : β}
    (ha : a ∈ l) (hb : f a = some b) (hfirst : ∀ c ∈ l, R c a → f c = none) : l.findSome? f = some b := by
  induction l with
  | nil => cases ha
  | cons x l ih =>
    obtain ⟨hx, hl⟩ := List.pairwise_cons.mp hl
    obtain rfl | ha := List.mem_cons.mp ha
    · rw [List.findSome?_cons, hb]
    · rw [List.findSome?_cons, hfirst x List.mem_cons_self (hx a ha)]
      exact ih hl ha fun c hc => hfirst c (List.mem_cons_of_mem _ hc)

/-- What stands before a member of an ordered list is what is smaller. -/
theorem mem_takeWhile_ne {α : Type} [BEq α] [LawfulBEq α] {R : α → α → Prop} (hasymm : ∀ a b, R a b → ¬ R b a) {l : List α}
    (hl : l.Pairwise R) {a x : α} (ha : a ∈ l) : x ∈ l.takeWhile (fun z => !(z == a)) ↔ x ∈ l ∧ R x a := by
  induction l with
  | nil => cases ha
  | cons z l ih =>
    obtain ⟨hz, hl⟩ := List.pairwise_cons.mp hl
    by_cases hza : z = a
    · subst hza
      have hirr : ¬ R z z := fun h => hasymm z z h h
      have hnot : ∀ x ∈ l, ¬ R x z := fun x hx => hasymm z x (hz x hx)
      simp only [List.takeWhile_cons, beq_self_eq_true, Bool.not_true, if_neg Bool.false_ne_true, List.not_mem_nil, List.mem_cons, false_iff,
        not_and]
      rintro (rfl | hx)
      · exact hirr
      · exact hnot x hx
    · have hal : a ∈ l := (List.mem_cons.mp ha).resolve_left fun h => hza h.symm
      rw [List.takeWhile_cons, beq_eq_false_iff_ne.mpr hza, Bool.not_false, if_pos rfl, List.mem_cons, List.mem_cons, ih hl hal]
      constructor
      · rintro (rfl | ⟨hx, hr⟩)
        · exact ⟨.inl rfl, hz a hal⟩
        · exact ⟨.inr hx, hr⟩
      · rintro ⟨rfl | hx, hr⟩
        · exact .inl rfl
        · exact .inr ⟨hx, hr⟩

theorem earlierLeg_total {a b : Pair} (h : a ≠ b) : EarlierLeg a b ∨ EarlierLeg b a := by
  obtain ⟨p, k⟩ := a
  obtain ⟨q, m⟩ := b
  obtain hlt | rfl | hlt := lt_trichotomy p q
  · exact .inl (.inl hlt)
  · cases k <;> cases m
    · exact absurd rfl h
    · exact .inl (.inr ⟨rfl, rfl, rfl⟩)
    · exact .inr (.inr ⟨rfl, rfl, rfl⟩)
    · exact absurd rfl h
  · exact .inr (.inl hlt)

section Stages

variable {l : Ladder}

theorem mem_pointsInUse {p : PointIx} : p ∈ l.pointsInUse ↔ l.config p ≠ none := by simp [Ladder.pointsInUse, inUse_iff]

theorem pairwise_pointsInUse : l.pointsInUse.Pairwise (· < ·) := (List.pairwise_lt_finRange 40).sublist List.filter_sublist

/-- The first point in use that meets a test. -/
theorem find?_pointsInUse {q : PointIx} {b : PointIx → Bool} (hq : l.config q ≠ none) (hb : b q = true)
    (hfirst : ∀ r, r < q → l.config r ≠ none → b r = false) : l.pointsInUse.find? b = some q :=
  (find?_eq_some_iff_first (R := (· < ·)) (fun _ _ => lt_asymm) pairwise_pointsInUse).mpr
    ⟨mem_pointsInUse.mpr hq, hb, fun r hr hlt => hfirst r hlt (mem_pointsInUse.mp hr)⟩

theorem rootTest_iff {p : PointIx} : (((l.config p).map (fun c => c.isRoot)) == some true) = true ↔ IsRoot l p := by
  rw [beq_iff_eq, Option.map_eq_some_iff]
  rfl

theorem inUse_of_isRoot {p : PointIx} (h : IsRoot l p) : l.config p ≠ none := by
  obtain ⟨c, hc, -⟩ := h
  rw [hc]
  exact Option.some_ne_none c

theorem target_of_config {p : PointIx} {c : PointConfig} (h : l.config p = some c) (k : Leg) : l.target p k = c.target k := by
  rw [Ladder.target, h]

theorem target_of_unused {p : PointIx} (h : l.config p = none) (k : Leg) : l.target p k = .none := by rw [Ladder.target, h]

theorem inUse_of_target {p : PointIx} {k : Leg} {t : Target} (h : l.target p k = t) (ht : t ≠ .none) : l.config p ≠ none :=
  fun hp => ht (h.symm.trans (target_of_unused hp k))

/-! ## Stage 1: the root (R15) -/

/-- Exactly one point in use is marked root. -/
def RootSound (l : Ladder) : Prop := ∃ r, IsRoot l r ∧ ∀ p, IsRoot l p → p = r

/-- The points in use marked root, ascending. -/
def roots (l : Ladder) : List PointIx := l.pointsInUse.filter (fun p => ((l.config p).map (fun c => c.isRoot)) == some true)

theorem mem_roots {p : PointIx} : p ∈ roots l ↔ IsRoot l p := by
  rw [roots, List.mem_filter, rootTest_iff, mem_pointsInUse]
  exact and_iff_right_of_imp inUse_of_isRoot

theorem pairwise_roots : (roots l).Pairwise (· < ·) := pairwise_pointsInUse.sublist List.filter_sublist

theorem checkRoot_of_unused (h : ∀ p, l.config p = none) : l.checkRoot = some (255, 1) := by
  have hempty : l.pointsInUse = [] := List.eq_nil_iff_forall_not_mem.mpr fun p hp => mem_pointsInUse.mp hp (h p)
  rw [Ladder.checkRoot, hempty]
  rfl

theorem checkRoot_of_used (h : ∃ p, l.config p ≠ none) : l.checkRoot = match roots l with
    | [] => some (255, 2)
    | [_] => none
    | _ :: second :: _ => some (second.val, 3) := by
  obtain ⟨p, hp⟩ := h
  have hne : l.pointsInUse.isEmpty = false := List.isEmpty_eq_false_iff_exists_mem.mpr ⟨p, mem_pointsInUse.mpr hp⟩
  rw [Ladder.checkRoot, hne]
  rfl

theorem checkRoot_of_no_root (hused : ∃ p, l.config p ≠ none) (h : ∀ p, ¬ IsRoot l p) : l.checkRoot = some (255, 2) := by
  have hnil : roots l = [] := List.eq_nil_iff_forall_not_mem.mpr fun p hp => h p (mem_roots.mp hp)
  rw [checkRoot_of_used hused, hnil]

theorem roots_of_second {p q : PointIx} (hp : IsRoot l p) (hq : IsRoot l q) (hpq : p < q) (hnext : ∀ r, IsRoot l r → r < q → r = p) :
    ∃ rest, roots l = p :: q :: rest := by
  have hsorted := pairwise_roots (l := l)
  have hmem : ∀ r, r ∈ roots l ↔ IsRoot l r := fun r => mem_roots
  match hroots : roots l with
  | [] =>
    rw [hroots] at hmem
    cases (hmem p).mpr hp
  | a :: rest =>
    rw [hroots] at hmem hsorted
    obtain ⟨hbelow, hsorted⟩ := List.pairwise_cons.mp hsorted
    have ha : a = p := by
      obtain h | h := List.mem_cons.mp ((hmem p).mpr hp)
      · exact h.symm
      · exact hnext a ((hmem a).mp List.mem_cons_self) (lt_trans (hbelow p h) hpq)
    subst ha
    have hqrest : q ∈ rest := (List.mem_cons.mp ((hmem q).mpr hq)).resolve_left (Ne.symm (ne_of_lt hpq))
    match rest with
    | b :: rest =>
      obtain ⟨hsecond, -⟩ := List.pairwise_cons.mp hsorted
      obtain rfl | h := List.mem_cons.mp hqrest
      · exact ⟨rest, rfl⟩
      · have hb : b = a := hnext b ((hmem b).mp (List.mem_cons_of_mem _ List.mem_cons_self)) (hsecond q h)
        exact absurd (hbelow b List.mem_cons_self) (hb ▸ lt_irrefl _)

theorem checkRoot_of_second {p q : PointIx} (hp : IsRoot l p) (hq : IsRoot l q) (hpq : p < q)
    (hnext : ∀ r, IsRoot l r → r < q → r = p) : l.checkRoot = some (q.val, 3) := by
  obtain ⟨rest, hroots⟩ := roots_of_second hp hq hpq hnext
  rw [checkRoot_of_used ⟨p, inUse_of_isRoot hp⟩, hroots]

theorem checkRoot_eq_none : l.checkRoot = none ↔ RootSound l := by
  constructor
  · intro h
    by_cases hused : ∃ p, l.config p ≠ none
    · rw [checkRoot_of_used hused] at h
      have hmem : ∀ r, r ∈ roots l ↔ IsRoot l r := fun r => mem_roots
      match hroots : roots l with
      | [] => rw [hroots] at h; cases h
      | [r] =>
        rw [hroots] at hmem
        exact ⟨r, (hmem r).mp List.mem_cons_self, fun p hp => List.mem_singleton.mp ((hmem p).mpr hp)⟩
      | _ :: _ :: _ => rw [hroots] at h; cases h
    · rw [checkRoot_of_unused fun p => not_not.mp fun hp => hused ⟨p, hp⟩] at h
      cases h
  · rintro ⟨r, hr, hunique⟩
    rw [checkRoot_of_used ⟨r, inUse_of_isRoot hr⟩]
    have hmem : ∀ p, p ∈ roots l ↔ IsRoot l p := fun p => mem_roots
    have hsorted := pairwise_roots (l := l)
    match hroots : roots l with
    | [] =>
      rw [hroots] at hmem
      cases (hmem r).mpr hr
    | [_] => rfl
    | a :: b :: _ =>
      rw [hroots] at hmem hsorted
      have ha := hunique a ((hmem a).mp List.mem_cons_self)
      have hb := hunique b ((hmem b).mp (List.mem_cons_of_mem _ List.mem_cons_self))
      have hab := (List.pairwise_cons.mp hsorted).1 b List.mem_cons_self
      rw [ha, hb] at hab
      exact absurd hab (lt_irrefl r)

/-! ## Stage 2: the legs (R16) -/

/-- No leg fails stage 2. -/
def LegsSound (l : Ladder) : Prop := ∀ leg n, ¬ LegFails l leg n

/-- An earlier leg of a point in use names the target. -/
theorem named_iff {leg : Pair} {t : Target} (ht : t ≠ .none) :
    (l.legsBefore leg).any (fun x => l.target x.1 x.2 == t) = true ↔ ∃ earlier, EarlierLeg earlier leg ∧ l.target earlier.1 earlier.2 = t := by
  rw [List.any_eq_true]
  constructor
  · rintro ⟨x, hx, hxt⟩
    rw [Ladder.legsBefore, List.mem_filter, mem_takeWhile_ne earlierLeg_asymm pairwise_legOrder (mem_legOrder leg)] at hx
    exact ⟨x, hx.1.2, beq_iff_eq.mp hxt⟩
  · rintro ⟨x, hx, hxt⟩
    refine ⟨x, ?_, beq_iff_eq.mpr hxt⟩
    rw [Ladder.legsBefore, List.mem_filter, mem_takeWhile_ne earlierLeg_asymm pairwise_legOrder (mem_legOrder leg)]
    exact ⟨⟨mem_legOrder x, hx⟩, inUse_iff.mpr (inUse_of_target hxt ht)⟩

section Leg

variable {leg : Pair} {q : PointIx}

/-- The target of the leg is one that the legs before it leave free. -/
def TargetFree (l : Ladder) (leg : Pair) : Prop :=
  ∀ earlier, EarlierLeg earlier leg → l.target earlier.1 earlier.2 ≠ l.target leg.1 leg.2

theorem named_of_earlier {earlier : Pair} (ht : l.target leg.1 leg.2 ≠ .none) (h : EarlierLeg earlier leg)
    (hsame : l.target earlier.1 earlier.2 = l.target leg.1 leg.2) :
    (l.legsBefore leg).any (fun x => l.target x.1 x.2 == l.target leg.1 leg.2) = true := (named_iff ht).mpr ⟨earlier, h, hsame⟩

theorem checkLeg_of_none (h : l.target leg.1 leg.2 = .none) : l.checkLeg leg = some (leg.1.val, 4) := by rw [Ladder.checkLeg, h]

theorem checkLeg_of_unused (h : l.target leg.1 leg.2 = .point q) (hq : l.config q = none) : l.checkLeg leg = some (leg.1.val, 5) := by
  have hunused : l.inUse q = false := Bool.eq_false_iff.mpr fun hin => inUse_iff.mp hin hq
  rw [Ladder.checkLeg, h]
  dsimp only
  rw [hunused]
  rfl

theorem checkLeg_of_root (h : l.target leg.1 leg.2 = .point q) (hq : IsRoot l q) : l.checkLeg leg = some (leg.1.val, 6) := by
  rw [Ladder.checkLeg, h]
  dsimp only
  rw [inUse_iff.mpr (inUse_of_isRoot hq), rootTest_iff.mpr hq]
  rfl

/-- Past the tests of its target a leg is judged by the legs before it. -/
theorem checkLeg_of_target (hne : l.target leg.1 leg.2 ≠ .none)
    (hpoint : ∀ q, l.target leg.1 leg.2 = .point q → l.config q ≠ none ∧ ¬ IsRoot l q) : l.checkLeg leg =
      if (l.legsBefore leg).any (fun x => l.target x.1 x.2 == l.target leg.1 leg.2) then some (leg.1.val, 7) else none := by
  unfold Ladder.checkLeg
  dsimp only
  split
  next h => exact absurd h hne
  next q h =>
    obtain ⟨hused, hroot⟩ := hpoint q h
    rw [inUse_iff.mpr hused, Bool.eq_false_iff.mpr fun hr => hroot (rootTest_iff.mp hr)]
    rfl
  next => rfl

theorem inUse_of_legFails {n : Nat} (h : LegFails l leg n) : l.config leg.1 ≠ none := by
  match n, h with
  | 4, ⟨hp, _⟩ => exact hp
  | 5, ⟨q, h, _⟩ => exact inUse_of_target h Target.noConfusion
  | 6, ⟨q, h, _⟩ => exact inUse_of_target h Target.noConfusion
  | 7, ⟨h, _⟩ => exact inUse_of_target rfl h

theorem checkLeg_of_fails {n : Nat} (h : LegFails l leg n) : l.checkLeg leg = some (leg.1.val, n) := by
  match n, h with
  | 4, ⟨_, h⟩ => exact checkLeg_of_none h
  | 5, ⟨q, h, hq⟩ => exact checkLeg_of_unused h hq
  | 6, ⟨q, h, hq⟩ => exact checkLeg_of_root h hq
  | 7, ⟨h, hpoint, earlier, hearlier, hsame⟩ => rw [checkLeg_of_target h hpoint, named_of_earlier h hearlier hsame, if_pos rfl]

/-- A leg of a point in use fails for one of the four reasons, or its target is a free one that it may have. -/
theorem legFails_or (hp : l.config leg.1 ≠ none) : (∃ n, LegFails l leg n) ∨ (l.target leg.1 leg.2 ≠ .none ∧
    (∀ q, l.target leg.1 leg.2 = .point q → l.config q ≠ none ∧ ¬ IsRoot l q) ∧ TargetFree l leg) := by
  by_cases hne : l.target leg.1 leg.2 = .none
  · exact .inl ⟨4, hp, hne⟩
  by_cases hpoint : ∀ q, l.target leg.1 leg.2 = .point q → l.config q ≠ none ∧ ¬ IsRoot l q
  · by_cases hfree : TargetFree l leg
    · exact .inr ⟨hne, hpoint, hfree⟩
    · unfold TargetFree at hfree
      push Not at hfree
      exact .inl ⟨7, hne, hpoint, hfree⟩
  · push Not at hpoint
    obtain ⟨q, hq, hbad⟩ := hpoint
    by_cases hused : l.config q = none
    · exact .inl ⟨5, q, hq, hused⟩
    · exact .inl ⟨6, q, hq, hbad hused⟩

theorem checkLeg_of_sound (hne : l.target leg.1 leg.2 ≠ .none)
    (hpoint : ∀ q, l.target leg.1 leg.2 = .point q → l.config q ≠ none ∧ ¬ IsRoot l q) (hfree : TargetFree l leg) :
    l.checkLeg leg = none := by
  rw [checkLeg_of_target hne hpoint, if_neg]
  rw [named_iff hne]
  rintro ⟨earlier, hearlier, hsame⟩
  exact hfree earlier hearlier hsame

theorem checkLeg_of_passes (hp : l.config leg.1 ≠ none) (h : ∀ n, ¬ LegFails l leg n) : l.checkLeg leg = none := by
  obtain ⟨n, hn⟩ | ⟨hne, hpoint, hfree⟩ := legFails_or hp
  · exact absurd hn (h n)
  · exact checkLeg_of_sound hne hpoint hfree

end Leg

theorem checkLegs_of_first {leg : Pair} {n : Nat} (h : LegFails l leg n) (hfirst : ∀ other m, EarlierLeg other leg → ¬ LegFails l other m) :
    l.checkLegs = some (leg.1.val, n) := by
  refine findSome?_of_first (R := EarlierLeg) (pairwise_legOrder.sublist List.filter_sublist)
    (List.mem_filter.mpr ⟨mem_legOrder leg, inUse_iff.mpr (inUse_of_legFails h)⟩) (checkLeg_of_fails h) fun other hmem hearlier => ?_
  exact checkLeg_of_passes (inUse_iff.mp (List.mem_filter.mp hmem).2) fun m => hfirst other m hearlier

theorem checkLegs_eq_none : l.checkLegs = none ↔ LegsSound l := by
  rw [Ladder.checkLegs, List.findSome?_eq_none_iff]
  constructor
  · intro h leg n hfails
    have hnone := h leg (List.mem_filter.mpr ⟨mem_legOrder leg, inUse_iff.mpr (inUse_of_legFails hfails)⟩)
    rw [checkLeg_of_fails hfails] at hnone
    cases hnone
  · intro h leg hmem
    exact checkLeg_of_passes (inUse_iff.mp (List.mem_filter.mp hmem).2) (h leg)

/-- Where no leg fails, a target is named by one leg alone. -/
theorem target_inj (h : LegsSound l) {a b : Pair} (hsame : l.target a.1 a.2 = l.target b.1 b.2) (hne : l.target a.1 a.2 ≠ .none) :
    a = b := by
  have hfree : ∀ leg : Pair, l.target leg.1 leg.2 ≠ .none → TargetFree l leg := fun leg hleg =>
    ((legFails_or (inUse_of_target rfl hleg)).resolve_left fun ⟨n, hn⟩ => h leg n hn).2.2
  by_contra hab
  obtain hlt | hlt := earlierLeg_total hab
  · exact hfree b (hsame ▸ hne) a hlt hsame
  · exact hfree a hne b hlt hsame.symm

theorem point_of_target (h : LegsSound l) {leg : Pair} {q : PointIx} (ht : l.target leg.1 leg.2 = .point q) :
    l.config q ≠ none ∧ ¬ IsRoot l q :=
  ((legFails_or (inUse_of_target ht Target.noConfusion)).resolve_left fun ⟨n, hn⟩ => h leg n hn).2.1 q ht

theorem feeding_iff (h : LegsSound l) {leg : Pair} {t : Target} (ht : t ≠ .none) :
    l.feeding t = some leg ↔ l.target leg.1 leg.2 = t := by
  rw [feeding_eq_some ht]
  refine ⟨fun ⟨htarget, _⟩ => htarget, fun htarget => ⟨htarget, fun other hearlier hother => ?_⟩⟩
  obtain rfl := target_inj h (a := other) (b := leg) (hother.trans htarget.symm) (by rw [hother]; exact ht)
  exact earlierLeg_asymm _ _ hearlier hearlier

/-! ## Stage 3: the feeding (R17) -/

theorem unfedTest_iff {q : PointIx} (hq : l.config q ≠ none) :
    (!(((l.config q).map (fun c => c.isRoot)) == some true) && (l.feeding (.point q)).isNone) = true ↔ Unfed l q := by
  rw [Bool.and_eq_true, Bool.not_eq_true', Bool.eq_false_iff, ne_eq, rootTest_iff, Option.isNone_iff_eq_none,
    feeding_eq_none Target.noConfusion]
  exact ⟨fun ⟨hr, hf⟩ => ⟨hq, hr, hf⟩, fun ⟨_, hr, hf⟩ => ⟨hr, hf⟩⟩

theorem checkFed_of_first {q : PointIx} (h : Unfed l q) (hfirst : ∀ r, r < q → ¬ Unfed l r) : l.checkFed = some (q.val, 8) := by
  rw [Ladder.checkFed, find?_pointsInUse h.1 ((unfedTest_iff h.1).mpr h)]
  · rfl
  · exact fun r hr hused => Bool.eq_false_iff.mpr fun ht => hfirst r hr ((unfedTest_iff hused).mp ht)

theorem checkFed_eq_none : l.checkFed = none ↔ ∀ q, ¬ Unfed l q := by
  rw [Ladder.checkFed, Option.map_eq_none_iff, List.find?_eq_none]
  constructor
  · exact fun h q hq => h q (mem_pointsInUse.mpr hq.1) ((unfedTest_iff hq.1).mpr hq)
  · exact fun h q hmem ht => h q ((unfedTest_iff (mem_pointsInUse.mp hmem)).mp ht)

end Stages

end Sys2Proof.Proofs
end


section
/-! SUPPORT. Routes and depths of a ladder whose legs are sound, and the fourth stage of the ladder check (R4, R18). -/

namespace Sys2Proof.Proofs

open Sys2Proof Sys2Proof.Machine Sys2Proof.Spec

variable {l : Ladder} {route : List Pair} {leg : Pair}

/-! ## Routes by their last leg -/

/-- The route from the root down to a leg, built downward. -/
inductive Leads (l : Ladder) : List Pair → Pair → Prop
  | root {leg : Pair} : IsRoot l leg.1 → Leads l [leg] leg
  | next {route : List Pair} {up leg : Pair} : Leads l route up → l.target up.1 up.2 = .point leg.1 → Leads l (route ++ [leg]) leg

theorem descends_snoc (route : List Pair) (up leg : Pair) :
    Descends l (route ++ [up] ++ [leg]) ↔ Descends l (route ++ [up]) ∧ l.target up.1 up.2 = .point leg.1 := by
  induction route with
  | nil => exact ⟨fun h => ⟨trivial, h.1⟩, fun h => ⟨h.2, trivial⟩⟩
  | cons a route ih =>
    cases route with
    | nil => exact ⟨fun ⟨h1, h2, _⟩ => ⟨⟨h1, trivial⟩, h2⟩, fun ⟨⟨h1, _⟩, h2⟩ => ⟨h1, h2, trivial⟩⟩
    | cons b route => exact ⟨fun ⟨h1, h2⟩ => ⟨⟨h1, (ih.mp h2).1⟩, (ih.mp h2).2⟩, fun ⟨⟨h1, h2⟩, h3⟩ => ⟨h1, ih.mpr ⟨h2, h3⟩⟩⟩

theorem Leads.ends (h : Leads l route leg) : ∃ before, route = before ++ [leg] := by
  cases h with
  | root => exact ⟨[], rfl⟩
  | next _ _ => exact ⟨_, rfl⟩

theorem routeFrom_of_leads (h : Leads l route leg) : RouteFrom l route leg := by
  induction h with
  | root h => exact ⟨⟨_, rfl, h⟩, trivial, rfl⟩
  | next h ht ih =>
    obtain ⟨⟨first, hfirst, hroot⟩, hdesc, -⟩ := ih
    obtain ⟨before, rfl⟩ := h.ends
    exact ⟨⟨first, by rw [List.head?_append, hfirst]; rfl, hroot⟩, (descends_snoc _ _ _).mpr ⟨hdesc, ht⟩, List.getLast?_concat⟩

theorem leads_of_routeFrom (h : RouteFrom l route leg) : Leads l route leg := by
  obtain ⟨⟨first, hfirst, hroot⟩, hdesc, hlast⟩ := h
  induction route using List.reverseRecOn generalizing leg with
  | nil => cases hlast
  | append_singleton route last ih =>
    obtain rfl : last = leg := by simpa using hlast
    cases route using List.reverseRecOn with
    | nil =>
      obtain rfl : last = first := by simpa using hfirst
      exact .root hroot
    | append_singleton route up =>
      obtain ⟨hup, ht⟩ := (descends_snoc _ _ _).mp hdesc
      refine .next (ih ?_ hup List.getLast?_concat) ht
      rw [List.head?_append_of_ne_nil _ (by simp)] at hfirst
      exact hfirst

/-- The other leg of the same point has a route of the same length. -/
theorem Leads.change (h : Leads l route leg) (k : Leg) : ∃ other, Leads l other (leg.1, k) ∧ other.length = route.length := by
  cases h with
  | root h => exact ⟨_, .root (leg := (leg.1, k)) h, rfl⟩
  | next h ht => exact ⟨_, .next (leg := (leg.1, k)) h ht, by simp⟩

theorem Leads.length_pos (h : Leads l route leg) : 0 < route.length := by
  obtain ⟨before, rfl⟩ := h.ends
  simp

theorem Leads.inUse (h : Leads l route leg) (hs : LegsSound l) : l.config leg.1 ≠ none := by
  cases h with
  | root h => exact inUse_of_isRoot h
  | next _ ht => exact (point_of_target hs ht).1

/-! ## Routes are what the feeding legs give (R3, R4) -/

theorem feeding_of_root (hs : LegsSound l) {r : PointIx} (hr : IsRoot l r) : l.feeding (.point r) = none :=
  (feeding_eq_none Target.noConfusion).mpr fun p k ht => (point_of_target hs (leg := (p, k)) ht).2 hr

/-- Following feeding legs upward from a leg meets the route down to it. -/
theorem routeUp_of_leads (hs : LegsSound l) (h : Leads l route leg) {n : Nat} (hn : route.length ≤ n + 1) (below : List Pair) :
    l.routeUp n leg below = route ++ below := by
  induction h generalizing n below with
  | root hr =>
    cases n with
    | zero => rfl
    | succ n => rw [Ladder.routeUp, feeding_of_root hs hr]; rfl
  | next h ht ih =>
    rw [List.length_append, List.length_singleton] at hn
    have hpos := h.length_pos
    cases n with
    | zero => omega
    | succ n =>
      rw [Ladder.routeUp, (feeding_iff hs Target.noConfusion).mpr ht]
      dsimp only
      rw [ih (by omega), List.append_assoc]
      rfl

/-- A leg has one route. -/
theorem Leads.unique (h : Leads l route leg) (hs : LegsSound l) {other : List Pair} (h' : Leads l other leg) : other = route := by
  have h1 := routeUp_of_leads hs h (n := route.length + other.length) (by omega) []
  have h2 := routeUp_of_leads hs h' (n := route.length + other.length) (by omega) []
  rw [List.append_nil] at h1 h2
  exact h2.symm.trans h1

/-- A point has one depth, whichever leg a route ends with. -/
theorem Leads.length_unique (h : Leads l route leg) (hs : LegsSound l) {other : List Pair} {leg' : Pair} (h' : Leads l other leg')
    (hp : leg'.1 = leg.1) : other.length = route.length := by
  obtain ⟨r, hr, hlen⟩ := h'.change leg.2
  have hleg : (leg'.1, leg.2) = leg := by rw [hp]
  rw [hleg] at hr
  rw [← hlen, h.unique hs hr]

theorem Leads.initial (h : Leads l route leg) : ∀ d, 0 < d → d ≤ route.length → ∃ r k, Leads l r k ∧ r.length = d := by
  induction h with
  | root hr => exact fun d hpos hd => ⟨_, _, .root hr, by simp at hd ⊢; omega⟩
  | @next r up k h ht ih =>
    intro d hpos hd
    by_cases hlast : d = (r ++ [k]).length
    · exact ⟨_, _, .next h ht, hlast.symm⟩
    · exact ih d hpos (by rw [List.length_append, List.length_singleton] at hd hlast; omega)

/-- No route has more legs than there are points. -/
theorem Leads.length_le (h : Leads l route leg) (hs : LegsSound l) : route.length ≤ 40 := by
  have hall : ∀ i : Fin route.length, ∃ k : Pair, ∃ r, Leads l r k ∧ r.length = i.val + 1 := fun i => by
    obtain ⟨r, k, hr, hlen⟩ := h.initial (i.val + 1) (Nat.succ_pos _) i.isLt
    exact ⟨k, r, hr, hlen⟩
  choose f hf using hall
  have hinj : Function.Injective (fun i => (f i).1) := fun i j hij => by
    obtain ⟨r, hr, hlen⟩ := hf i
    obtain ⟨r', hr', hlen'⟩ := hf j
    have hsame := hr'.length_unique hs hr hij
    exact Fin.ext (by omega)
  simpa using Fintype.card_le_of_injective _ hinj

/-! ## Depth (R4, R18) -/

/-- The point has a route of the length. -/
def HasDepth (l : Ladder) (q : PointIx) (d : Nat) : Prop := ∃ route, Leads l route (q, .N) ∧ route.length = d

theorem HasDepth.unique (hs : LegsSound l) {q : PointIx} {d d' : Nat} (h : HasDepth l q d) (h' : HasDepth l q d') : d' = d := by
  obtain ⟨r, hr, rfl⟩ := h
  obtain ⟨r', hr', rfl⟩ := h'
  exact hr.length_unique hs hr' rfl

theorem hasDepth_of_leads (h : Leads l route leg) : HasDepth l leg.1 route.length := h.change .N

theorem depthUp_of_root {q : PointIx} (n : Nat) (h : IsRoot l q) : l.depthUp (n + 1) q = some 1 := by
  rw [Ladder.depthUp, rootTest_iff.mpr h]
  rfl

theorem depthUp_of_fed (hs : LegsSound l) {q : PointIx} {up : Pair} (n : Nat) (h : l.target up.1 up.2 = .point q) :
    l.depthUp (n + 1) q = (l.depthUp n up.1).map (fun d => d + 1) := by
  rw [Ladder.depthUp, Bool.eq_false_iff.mpr fun hr => (point_of_target hs h).2 (rootTest_iff.mp hr),
    (feeding_iff hs Target.noConfusion).mpr h]
  rfl

theorem depthUp_of_leads (hs : LegsSound l) (h : Leads l route leg) {n : Nat} (hn : route.length ≤ n) :
    l.depthUp n leg.1 = some route.length := by
  induction h generalizing n with
  | root hr =>
    match n, hn with
    | n + 1, _ => exact depthUp_of_root n hr
  | next h ht ih =>
    rw [List.length_append, List.length_singleton] at hn ⊢
    match n, hn with
    | n + 1, hn => rw [depthUp_of_fed hs n ht, ih (by omega)]; rfl

theorem leads_of_depthUp (hs : LegsSound l) {n d : Nat} {q : PointIx} (h : l.depthUp n q = some d) : HasDepth l q d := by
  induction n generalizing q d with
  | zero => cases h
  | succ n ih =>
    by_cases hr : IsRoot l q
    · rw [depthUp_of_root n hr] at h
      cases h
      exact ⟨_, .root (leg := (q, .N)) hr, rfl⟩
    · cases hf : l.feeding (.point q) with
      | none =>
        rw [Ladder.depthUp, Bool.eq_false_iff.mpr fun h' => hr (rootTest_iff.mp h'), hf] at h
        cases h
      | some up =>
        have ht := (feeding_iff hs Target.noConfusion).mp hf
        rw [depthUp_of_fed hs n ht, Option.map_eq_some_iff] at h
        obtain ⟨m, hm, rfl⟩ := h
        obtain ⟨r, hr', rfl⟩ := ih hm
        obtain ⟨r2, hr2, hlen⟩ := hr'.change up.2
        exact ⟨_, .next (leg := (q, .N)) hr2 ht, by simp [hlen]⟩

theorem depth_iff (hs : LegsSound l) {q : PointIx} {d : Nat} : l.depth q = some d ↔ HasDepth l q d := by
  refine ⟨leads_of_depthUp hs, ?_⟩
  rintro ⟨r, hr, rfl⟩
  exact depthUp_of_leads hs hr (hr.length_le hs)

theorem unreached_iff (hs : LegsSound l) {q : PointIx} (hq : l.config q ≠ none) : (l.depth q).isNone = true ↔ Unreached l q := by
  rw [Option.isNone_iff_eq_none]
  constructor
  · intro h
    refine ⟨hq, fun route leg hroute => ?_⟩
    rw [(depth_iff hs).mpr (hasDepth_of_leads (leads_of_routeFrom hroute))] at h
    cases h
  · rintro ⟨-, hnone⟩
    cases hd : l.depth q with
    | none => rfl
    | some d =>
      obtain ⟨r, hr, -⟩ := (depth_iff hs).mp hd
      exact absurd (routeFrom_of_leads hr) (hnone r .N)

theorem tooDeep_iff (hs : LegsSound l) {q : PointIx} : decide (Config.maxDepth < (l.depth q).getD 0) = true ↔ TooDeep l q := by
  rw [decide_eq_true_iff]
  constructor
  · intro h
    cases hd : l.depth q with
    | none =>
      rw [hd] at h
      exact absurd h (by decide)
    | some d =>
      rw [hd] at h
      obtain ⟨r, hr, rfl⟩ := (depth_iff hs).mp hd
      exact ⟨r, .N, routeFrom_of_leads hr, h⟩
  · rintro ⟨r, k, hr, hlen⟩
    rw [(depth_iff hs).mpr (hasDepth_of_leads (leads_of_routeFrom hr))]
    exact hlen

theorem inUse_of_tooDeep (hs : LegsSound l) {q : PointIx} (h : TooDeep l q) : l.config q ≠ none := by
  obtain ⟨r, k, hr, -⟩ := h
  exact (leads_of_routeFrom hr).inUse hs

/-! ## Stage 4: the tree (R18) -/

theorem checkTree_of_unreached (hs : LegsSound l) {q : PointIx} (h : Unreached l q) (hfirst : ∀ r, r < q → ¬ Unreached l r) :
    l.checkTree = some (q.val, 9) := by
  rw [Ladder.checkTree, find?_pointsInUse h.1 ((unreached_iff hs h.1).mpr h)]
  exact fun r hr hused => Bool.eq_false_iff.mpr fun ht => hfirst r hr ((unreached_iff hs hused).mp ht)

theorem checkTree_of_reached (hs : LegsSound l) (h : ∀ q, ¬ Unreached l q) : l.checkTree =
    (l.pointsInUse.find? (fun p => decide (Config.maxDepth < (l.depth p).getD 0))).map (fun p => (p.val, 10)) := by
  have hnone : l.pointsInUse.find? (fun p => (l.depth p).isNone) = none :=
    List.find?_eq_none.mpr fun q hq ht => h q ((unreached_iff hs (mem_pointsInUse.mp hq)).mp ht)
  rw [Ladder.checkTree, hnone]

theorem checkTree_of_deep (hs : LegsSound l) (h : ∀ q, ¬ Unreached l q) {q : PointIx} (hq : TooDeep l q)
    (hfirst : ∀ r, r < q → ¬ TooDeep l r) : l.checkTree = some (q.val, 10) := by
  rw [checkTree_of_reached hs h, find?_pointsInUse (inUse_of_tooDeep hs hq) ((tooDeep_iff hs).mpr hq)]
  · rfl
  · exact fun r hr _ => Bool.eq_false_iff.mpr fun ht => hfirst r hr ((tooDeep_iff hs).mp ht)

theorem checkTree_eq_none (hs : LegsSound l) : l.checkTree = none ↔ (∀ q, ¬ Unreached l q) ∧ ∀ q, ¬ TooDeep l q := by
  constructor
  · intro h
    have hreached : ∀ q, ¬ Unreached l q := by
      intro q hq
      unfold Ladder.checkTree at h
      split at h
      · cases h
      next hnone => exact List.find?_eq_none.mp hnone q (mem_pointsInUse.mpr hq.1) ((unreached_iff hs hq.1).mpr hq)
    rw [checkTree_of_reached hs hreached, Option.map_eq_none_iff, List.find?_eq_none] at h
    exact ⟨hreached, fun q hq => h q (mem_pointsInUse.mpr (inUse_of_tooDeep hs hq)) ((tooDeep_iff hs).mpr hq)⟩
  · rintro ⟨hreached, hdeep⟩
    rw [checkTree_of_reached hs hreached, Option.map_eq_none_iff, List.find?_eq_none]
    exact fun q _ ht => hdeep q ((tooDeep_iff hs).mp ht)

/-- On a ladder that passes the first four stages every leg of a point in use has its route. -/
theorem routeTo_of_tree (h : ∀ q, ¬ Unreached l q) (hdeep : ∀ q, ¬ TooDeep l q) (hp : l.config leg.1 ≠ none) :
    ∃ route, RouteTo l route leg := by
  obtain ⟨r, k, hr⟩ : ∃ r k, RouteFrom l r (leg.1, k) := by
    by_contra hno
    exact h leg.1 ⟨hp, fun r k hr => hno ⟨r, k, hr⟩⟩
  obtain ⟨r', hr', hlen⟩ := (leads_of_routeFrom hr).change leg.2
  refine ⟨r', routeFrom_of_leads hr', ?_⟩
  by_contra hlong
  exact hdeep leg.1 ⟨r', leg.2, routeFrom_of_leads hr', by omega⟩

end Sys2Proof.Proofs
end


section
/-! PROOFS. The fifth and the sixth stage of the ladder check, the whole check, and what each stage names (R14 to R21). -/

namespace Sys2Proof.Proofs

open Sys2Proof Sys2Proof.Machine Sys2Proof.Spec

variable {l : Ladder} {leg : Pair} {p : PointIx} {t : TrackIx}

/-! ## The routes of a ladder that passes the first four stages (R4) -/

/-- The legs are sound, every point in use is reached, and none lies deeper than 8. -/
structure TreeSound (l : Ladder) : Prop where
  legs : LegsSound l
  reached : ∀ q, ¬ Unreached l q
  shallow : ∀ q, ¬ TooDeep l q

theorem TreeSound.route (h : TreeSound l) (hp : l.config leg.1 ≠ none) : ∃ route, RouteTo l route leg :=
  routeTo_of_tree h.reached h.shallow hp

theorem TreeSound.routeOf (h : TreeSound l) (ht : l.target leg.1 leg.2 = .track t) : RouteTo l (l.routeOf t) leg := by
  obtain ⟨route, hroute, hlen⟩ := h.route (inUse_of_target ht Target.noConfusion)
  have heq : l.routeOf t = route := by
    rw [Ladder.routeOf, (feeding_iff h.legs Target.noConfusion).mpr ht]
    dsimp only
    rw [routeUp_of_leads h.legs (leads_of_routeFrom hroute) (by omega), List.append_nil]
  rw [heq]
  exact ⟨hroute, hlen⟩

theorem TreeSound.inSubtree_iff (h : TreeSound l) : l.inSubtree leg.1 leg.2 t = true ↔
    ∃ route last, RouteTo l route last ∧ l.target last.1 last.2 = .track t ∧ leg ∈ route := by
  rw [Ladder.inSubtree, List.contains_iff_mem]
  constructor
  · intro hmem
    cases hf : l.feeding (.track t) with
    | none =>
      rw [Ladder.routeOf, hf] at hmem
      cases hmem
    | some last =>
      have ht := (feeding_iff h.legs Target.noConfusion).mp hf
      exact ⟨_, last, h.routeOf ht, ht, hmem⟩
  · rintro ⟨route, last, ⟨hroute, hlen⟩, ht, hmem⟩
    have heq := (leads_of_routeFrom hroute).unique h.legs (leads_of_routeFrom (h.routeOf ht).1)
    rw [heq]
    exact hmem

/-! ## Stage 5: the fallback tracks and the approach distances (R19, R20) -/

theorem approachSuffices_iff (c : PointConfig) (k : Constants) : ApproachSuffices c k ↔ approachSufficient c k = true := by
  obtain ⟨v, hv⟩ : ∃ v, ceilDiv (Config.vMax * (100 + c.grade)) 100 = v := ⟨_, rfl⟩
  have hspeed : v = (15000 * (100 + c.grade) + 100 - 1) / 100 := hv.symm
  have hpos : 0 < v := by omega
  rw [approachSufficient, decide_eq_true_iff, hv]
  constructor
  · rintro ⟨v', arr, hlo, hhi, hfloor, hceil, htime⟩
    obtain rfl : v' = v := by omega
    rwa [Nat.div_eq_of_lt_le hfloor hceil]
  · intro htime
    refine ⟨v, c.dApp * 10000 / v, by omega, by omega, Nat.div_mul_le_self _ _, ?_, htime⟩
    exact (Nat.lt_mul_div_succ _ hpos).trans_eq (Nat.mul_comm _ _)

theorem checkFallback_of_none (h : l.fallback leg.1 leg.2 = none) : l.checkFallback leg.1 leg.2 = some (leg.1.val, 11) := by
  rw [Ladder.checkFallback, h]

theorem checkFallback_of_some (h : l.fallback leg.1 leg.2 = some t) :
    l.checkFallback leg.1 leg.2 = if l.inSubtree leg.1 leg.2 t then none else some (leg.1.val, 12) := by rw [Ladder.checkFallback, h]

theorem checkFallback_of_fails (h : TreeSound l) {n : Nat} (hf : FallbackFails l leg n) :
    l.checkFallback leg.1 leg.2 = some (leg.1.val, n) := by
  match n, hf with
  | 11, hf => exact checkFallback_of_none hf
  | 12, ⟨t, ht, hout⟩ =>
    rw [checkFallback_of_some ht, if_neg]
    rw [h.inSubtree_iff]
    rintro ⟨route, last, hroute, hlast, hmem⟩
    exact hout route last hroute hlast hmem

/-- A leg whose fallback track does not fail has one, and the leg is a pair of its route. -/
theorem fallback_or (leg : Pair) : (∃ n, FallbackFails l leg n) ∨ ∃ t route last, l.fallback leg.1 leg.2 = some t ∧ RouteTo l route last ∧
    l.target last.1 last.2 = .track t ∧ leg ∈ route := by
  cases hf : l.fallback leg.1 leg.2 with
  | none => exact .inl ⟨11, hf⟩
  | some t =>
    by_cases hin : ∃ route last, RouteTo l route last ∧ l.target last.1 last.2 = .track t ∧ leg ∈ route
    · obtain ⟨route, last, hin⟩ := hin
      exact .inr ⟨t, route, last, rfl, hin⟩
    · exact .inl ⟨12, t, hf, fun route last hroute ht hmem => hin ⟨route, last, hroute, ht, hmem⟩⟩

theorem checkFallback_of_passes (h : TreeSound l) (hf : ∀ n, ¬ FallbackFails l leg n) : l.checkFallback leg.1 leg.2 = none := by
  obtain ⟨n, hn⟩ | ⟨t, route, last, ht, hroute, hlast, hmem⟩ := fallback_or (l := l) leg
  · exact absurd hn (hf n)
  · rw [checkFallback_of_some ht, h.inSubtree_iff.mpr ⟨route, last, hroute, hlast, hmem⟩, if_pos rfl]

/-- The tests of stage 5 of one point in their order. -/
def checkPoint (l : Ladder) (p : PointIx) : Option CheckFailure :=
  (l.checkFallback p .N).orElse (fun _ => (l.checkFallback p .R).orElse (fun _ => l.checkApproach p))

theorem checkPoint_of_fails (h : TreeSound l) {n : Nat} (hp : PointFails l p n) : checkPoint l p = some (p.val, n) := by
  obtain ⟨c, hc, hN | ⟨hN, hR⟩ | ⟨hnone, rfl, happ⟩⟩ := hp
  · rw [checkPoint, checkFallback_of_fails h hN]
    rfl
  · rw [checkPoint, checkFallback_of_passes (leg := (p, .N)) h hN, checkFallback_of_fails h hR]
    rfl
  · have hshort : approachSufficient c l.consts = false := Bool.eq_false_iff.mpr fun ht => happ ((approachSuffices_iff c _).mpr ht)
    rw [checkPoint, checkFallback_of_passes (leg := (p, .N)) h fun n => hnone n .N,
      checkFallback_of_passes (leg := (p, .R)) h fun n => hnone n .R, Ladder.checkApproach, hc]
    dsimp only [Option.orElse]
    rw [hshort]
    rfl

/-- A point in use fails stage 5, or its legs' fallback tracks and its approach distance pass. -/
theorem pointFails_or {c : PointConfig} (hc : l.config p = some c) : (∃ n, PointFails l p n) ∨
    ((∀ n k, ¬ FallbackFails l (p, k) n) ∧ ApproachSuffices c l.consts) := by
  by_cases hN : ∃ n, FallbackFails l (p, .N) n
  · obtain ⟨n, hN⟩ := hN
    exact .inl ⟨n, c, hc, .inl hN⟩
  have hN : ∀ n, ¬ FallbackFails l (p, .N) n := fun n h => hN ⟨n, h⟩
  by_cases hR : ∃ n, FallbackFails l (p, .R) n
  · obtain ⟨n, hR⟩ := hR
    exact .inl ⟨n, c, hc, .inr (.inl ⟨hN, hR⟩)⟩
  have hR : ∀ n, ¬ FallbackFails l (p, .R) n := fun n h => hR ⟨n, h⟩
  have hboth : ∀ n k, ¬ FallbackFails l (p, k) n := fun n k => by
    cases k
    · exact hN n
    · exact hR n
  by_cases happ : ApproachSuffices c l.consts
  · exact .inr ⟨hboth, happ⟩
  · exact .inl ⟨13, c, hc, .inr (.inr ⟨hboth, rfl, happ⟩)⟩

theorem checkPoint_of_passes (h : TreeSound l) (hp : l.config p ≠ none) (hpass : ∀ n, ¬ PointFails l p n) : checkPoint l p = none := by
  obtain ⟨c, hc⟩ := Option.ne_none_iff_exists'.mp hp
  obtain ⟨n, hn⟩ | ⟨hboth, happ⟩ := pointFails_or hc
  · exact absurd hn (hpass n)
  · rw [checkPoint, checkFallback_of_passes (leg := (p, .N)) h fun n => hboth n .N,
      checkFallback_of_passes (leg := (p, .R)) h fun n => hboth n .R, Ladder.checkApproach, hc]
    dsimp only [Option.orElse]
    rw [(approachSuffices_iff c _).mp happ, if_pos rfl]

theorem inUse_of_pointFails {n : Nat} (h : PointFails l p n) : l.config p ≠ none := by
  obtain ⟨c, hc, -⟩ := h
  rw [hc]
  exact Option.some_ne_none c

theorem checkPoints_of_first (h : TreeSound l) {n : Nat} (hp : PointFails l p n) (hfirst : ∀ q m, q < p → ¬ PointFails l q m) :
    l.checkPoints = some (p.val, n) :=
  findSome?_of_first (f := checkPoint l) pairwise_pointsInUse (mem_pointsInUse.mpr (inUse_of_pointFails hp)) (checkPoint_of_fails h hp)
    fun q hq hlt => checkPoint_of_passes h (mem_pointsInUse.mp hq) fun m => hfirst q m hlt

theorem checkPoints_eq_none (h : TreeSound l) : l.checkPoints = none ↔ ∀ p n, ¬ PointFails l p n := by
  rw [show l.checkPoints = l.pointsInUse.findSome? (checkPoint l) from rfl, List.findSome?_eq_none_iff]
  constructor
  · intro hnone p n hp
    have hpoint := hnone p (mem_pointsInUse.mpr (inUse_of_pointFails hp))
    rw [checkPoint_of_fails h hp] at hpoint
    cases hpoint
  · exact fun hpass p hp => checkPoint_of_passes h (mem_pointsInUse.mp hp) (hpass p)

/-! ## Stage 6: the yard tracks (R21) -/

theorem trackInUse_false : l.trackInUse t = false ↔ ∀ p k, l.target p k ≠ .track t := by
  rw [Bool.eq_false_iff, ne_eq, trackInUse_iff]
  simp [Used]

theorem checkTracks_eq_none : l.checkTracks = none ↔ (∃ r, l.consts.reject = some r ∧ Used l r) ∧
    ∀ d, l.consts.defaultTrack = some d → Used l d := by
  unfold Ladder.checkTracks
  cases hr : l.consts.reject with
  | none => simp
  | some r =>
    dsimp only
    cases hused : l.trackInUse r with
    | false =>
      have hnot : ¬ Used l r := fun h => by rw [trackInUse_iff.mpr h] at hused; cases hused
      simp [hnot]
    | true =>
      have hyes := trackInUse_iff.mp hused
      cases hd : l.consts.defaultTrack with
      | none => simp [hyes]
      | some d =>
        by_cases hu : Used l d
        · simp [hyes, hu, trackInUse_iff.mpr hu]
        · simp [hu, Bool.eq_false_iff.mpr fun h => hu (trackInUse_iff.mp h)]

/-! ## The six stages together (R14) -/

/-- What the six stages demand, stage by stage. -/
structure StagesPass (l : Ladder) : Prop where
  root : RootSound l
  tree : TreeSound l
  fed : ∀ q, ¬ Unfed l q
  points : ∀ p n, ¬ PointFails l p n
  reject : ∃ r, l.consts.reject = some r ∧ Used l r
  default : ∀ d, l.consts.defaultTrack = some d → Used l d

theorem check_of_root {f : CheckFailure} (h : l.checkRoot = some f) : l.check = some f := by
  rw [Ladder.check, h]
  rfl

theorem check_of_legs (hroot : RootSound l) : l.check = l.checkLegs.orElse (fun _ => l.checkFed.orElse (fun _ =>
    l.checkTree.orElse (fun _ => l.checkPoints.orElse (fun _ => l.checkTracks)))) := by
  rw [Ladder.check, checkRoot_eq_none.mpr hroot]
  rfl

theorem check_of_fed (hroot : RootSound l) (hlegs : LegsSound l) : l.check = l.checkFed.orElse (fun _ =>
    l.checkTree.orElse (fun _ => l.checkPoints.orElse (fun _ => l.checkTracks))) := by
  rw [check_of_legs hroot, checkLegs_eq_none.mpr hlegs]
  rfl

theorem check_of_tree (hroot : RootSound l) (hlegs : LegsSound l) (hfed : ∀ q, ¬ Unfed l q) :
    l.check = l.checkTree.orElse (fun _ => l.checkPoints.orElse (fun _ => l.checkTracks)) := by
  rw [check_of_fed hroot hlegs, checkFed_eq_none.mpr hfed]
  rfl

theorem check_of_points (hroot : RootSound l) (htree : TreeSound l) (hfed : ∀ q, ¬ Unfed l q) :
    l.check = l.checkPoints.orElse (fun _ => l.checkTracks) := by
  rw [check_of_tree hroot htree.legs hfed, (checkTree_eq_none htree.legs).mpr ⟨htree.reached, htree.shallow⟩]
  rfl

theorem check_of_tracks (hroot : RootSound l) (htree : TreeSound l) (hfed : ∀ q, ¬ Unfed l q) (hpoints : ∀ p n, ¬ PointFails l p n) :
    l.check = l.checkTracks := by
  rw [check_of_points hroot htree hfed, (checkPoints_eq_none htree).mpr hpoints]
  rfl

theorem orElse_eq_none {α : Type} {o : Option α} {f : Unit → Option α} : o.orElse f = none ↔ o = none ∧ f () = none := by
  cases o <;> simp [Option.orElse]

theorem check_eq_none : l.check = none ↔ StagesPass l := by
  constructor
  · intro h
    simp only [Ladder.check, orElse_eq_none] at h
    obtain ⟨hroot, hlegs, hfed, htree, hpoints, htracks⟩ := h
    have hlegs := checkLegs_eq_none.mp hlegs
    obtain ⟨hreached, hshallow⟩ := (checkTree_eq_none hlegs).mp htree
    have htree : TreeSound l := ⟨hlegs, hreached, hshallow⟩
    obtain ⟨hreject, hdefault⟩ := checkTracks_eq_none.mp htracks
    exact ⟨checkRoot_eq_none.mp hroot, htree, checkFed_eq_none.mp hfed, (checkPoints_eq_none htree).mp hpoints, hreject, hdefault⟩
  · rintro ⟨hroot, htree, hfed, hpoints, hreject, hdefault⟩
    rw [check_of_tracks hroot htree hfed hpoints]
    exact checkTracks_eq_none.mpr ⟨hreject, hdefault⟩

theorem legsSound_of_ladderSound (h : ∀ p c leg, l.config p = some c →
    c.target leg ≠ .none ∧ (∀ q, c.target leg = .point q → l.config q ≠ none ∧ ¬ IsRoot l q) ∧
    (∀ p' leg', l.target p' leg' = c.target leg → p' = p ∧ leg' = leg)) : LegsSound l := by
  rintro ⟨p, k⟩ n hfails
  obtain ⟨c, hc⟩ := Option.ne_none_iff_exists'.mp (inUse_of_legFails hfails)
  obtain ⟨hne, hpoint, hunique⟩ := h p c k hc
  rw [← target_of_config hc] at hne hpoint hunique
  match n, hfails with
  | 4, ⟨_, h⟩ => exact hne h
  | 5, ⟨q, h, hq⟩ => exact (hpoint q h).1 hq
  | 6, ⟨q, h, hq⟩ => exact (hpoint q h).2 hq
  | 7, ⟨_, _, earlier, hearlier, hsame⟩ =>
    obtain ⟨hp, hk⟩ := hunique earlier.1 earlier.2 hsame
    have heq : earlier = (p, k) := Prod.ext hp hk
    exact earlierLeg_asymm _ _ hearlier (heq ▸ hearlier)

theorem stagesPass_of_ladderSound (h : LadderSound l) : StagesPass l := by
  obtain ⟨hroot, hlegs, hfed, hroutes, hpoints, ⟨r, p, k, hr, hrt⟩, hdefault⟩ := h
  have hlegs := legsSound_of_ladderSound hlegs
  refine ⟨hroot, ⟨hlegs, fun q hq => ?_, fun q hq => ?_⟩, fun q hq => ?_, fun p n hp => ?_, ⟨r, hr, p, k, hrt⟩, hdefault⟩
  · obtain ⟨route, hroute, -⟩ := hroutes q .N hq.1
    exact hq.2 route .N hroute
  · obtain ⟨long, k, hlong, hlen⟩ := hq
    have hlong := leads_of_routeFrom hlong
    obtain ⟨route, hroute, hshort⟩ := hroutes q .N (hlong.inUse hlegs)
    have hsame := hlong.length_unique hlegs (leads_of_routeFrom hroute) rfl
    omega
  · obtain ⟨hused, hnot, hnone⟩ := hq
    obtain ⟨p, k, ht⟩ := hfed q hused hnot
    exact hnone p k ht
  · obtain ⟨c, hc, hfails⟩ := hp
    obtain ⟨happ, hfall⟩ := hpoints p c hc
    have hno : ∀ m k, ¬ FallbackFails l (p, k) m := fun m k hm => by
      obtain ⟨t, route, last, ht, hroute, hlast, hmem⟩ := hfall k
      have hfallback : l.fallback p k = some t := by rw [Ladder.fallback, hc]; exact ht
      match m, hm with
      | 11, hm => exact Option.some_ne_none t (hfallback.symm.trans hm)
      | 12, ⟨t', ht', hout⟩ =>
        obtain rfl := Option.some.inj (hfallback.symm.trans ht')
        exact hout route last hroute hlast hmem
    obtain hN | ⟨-, hR⟩ | ⟨-, -, hshort⟩ := hfails
    · exact hno n .N hN
    · exact hno n .R hR
    · exact hshort happ

theorem ladderSound_of_stagesPass (h : StagesPass l) : LadderSound l := by
  obtain ⟨hroot, htree, hfed, hpoints, ⟨r, hr, p, k, hrt⟩, hdefault⟩ := h
  refine ⟨hroot, fun p c k hc => ?_, fun q hused hnot => ?_, fun q k hq => htree.route (leg := (q, k)) hq, fun p c hc => ?_,
    ⟨r, p, k, hr, hrt⟩, hdefault⟩
  · have hused : l.config p ≠ none := by rw [hc]; exact Option.some_ne_none c
    rw [← target_of_config hc]
    obtain ⟨n, hn⟩ | ⟨hne, hpoint, -⟩ := legFails_or (leg := (p, k)) hused
    · exact absurd hn (htree.legs _ n)
    · exact ⟨hne, hpoint, fun p' k' hsame => Prod.ext_iff.mp (target_inj htree.legs (a := (p', k')) (b := (p, k)) hsame (hsame ▸ hne))⟩
  · by_contra hnone
    exact hfed q ⟨hused, hnot, fun p k ht => hnone ⟨p, k, ht⟩⟩
  · obtain ⟨n, hn⟩ | ⟨hno, happ⟩ := pointFails_or hc
    · exact absurd hn (hpoints p n)
    · refine ⟨happ, fun k => ?_⟩
      obtain ⟨n, hn⟩ | ⟨t, route, last, ht, hrest⟩ := fallback_or (l := l) (p, k)
      · exact absurd hn (hno n k)
      · rw [Ladder.fallback, hc] at ht
        exact ⟨t, route, last, ht, hrest⟩

theorem ladderCheck : LadderCheck := fun l => by
  refine ⟨⟨fun h => ladderSound_of_stagesPass (check_eq_none.mp h), fun h => check_eq_none.mpr (stagesPass_of_ladderSound h)⟩,
    fun h t p k ht => (check_eq_none.mp h).tree.routeOf (leg := (p, k)) ht, fun h => check_of_root (checkRoot_of_unused h),
    fun hused h => check_of_root (checkRoot_of_no_root hused h),
    fun p q hp hq hlt hnext => check_of_root (checkRoot_of_second hp hq hlt hnext)⟩

theorem ladderFailures : LadderFailures := by
  intro l hroot
  refine ⟨fun leg n h hfirst => ?_, fun hlegs => ⟨fun q h hfirst => ?_, fun hfed => ⟨fun q h hfirst => ?_, fun hreached =>
    ⟨fun q h hfirst => ?_, fun hshallow => ⟨fun p n h hfirst => ?_, fun hpoints => ⟨fun h => ?_, fun r hr => ⟨fun h => ?_,
      fun hused d hd h => ?_⟩⟩⟩⟩⟩⟩⟩
  · rw [check_of_legs hroot, checkLegs_of_first h hfirst]
    rfl
  · rw [check_of_fed hroot hlegs, checkFed_of_first h hfirst]
    rfl
  · rw [check_of_tree hroot hlegs hfed, checkTree_of_unreached hlegs h hfirst]
    rfl
  · rw [check_of_tree hroot hlegs hfed, checkTree_of_deep hlegs hreached h hfirst]
    rfl
  all_goals have htree : TreeSound l := ⟨hlegs, hreached, hshallow⟩
  · rw [check_of_points hroot htree hfed, checkPoints_of_first htree h hfirst]
    rfl
  all_goals rw [check_of_tracks hroot htree hfed hpoints, Ladder.checkTracks]
  · rw [h]
  · rw [hr]
    dsimp only
    rw [trackInUse_false.mpr h]
    rfl
  · rw [hr]
    dsimp only
    rw [trackInUse_iff.mpr hused, hd]
    dsimp only
    rw [trackInUse_false.mpr h]
    rfl

end Sys2Proof.Proofs
end


section
/-! PROOFS. The line check (R31) and COMMISSION (R164). -/

namespace Sys2Proof.Proofs

open Sys2Proof Sys2Proof.Machine Sys2Proof.Spec

variable {l : Ladder} {lines : Table 256 Line} {s : State} {y : Yard}

/-! ## The line check (R31) -/

theorem lineOf_isNone {r : Role} (hr : r ≠ .unused) : (lineOf lines r).isNone = true ↔ ¬ Held lines r := by
  rw [lineOf, if_neg hr, Option.isNone_iff_eq_none, List.find?_eq_none]
  simp [Held, List.mem_finRange]

theorem heldBelow_iff {i : LineIx} : heldBelow lines i = true ↔ ∃ j, j < i ∧ (Table.look lines j).role = (Table.look lines i).role := by
  simp [heldBelow, List.mem_finRange]

theorem doubledTest_iff {i : LineIx} :
    (!((Table.look lines i).role == .unused) && heldBelow lines i) = true ↔ Doubled lines i := by
  rw [Bool.and_eq_true, Bool.not_eq_true', beq_eq_false_iff_ne, heldBelow_iff]
  rfl

theorem checkRoles_of_first {i : LineIx} (h : Doubled lines i) (hfirst : ∀ j, j < i → ¬ Doubled lines j) :
    checkRoles lines = some (i.val, 1) := by
  rw [checkRoles, find?_finRange_iff.mpr ⟨doubledTest_iff.mpr h,
    fun j hj => Bool.eq_false_iff.mpr fun ht => hfirst j hj (doubledTest_iff.mp ht)⟩]
  rfl

theorem checkRoles_eq_none : checkRoles lines = none ↔ ∀ i, ¬ Doubled lines i := by
  rw [checkRoles, Option.map_eq_none_iff, List.find?_eq_none]
  exact ⟨fun h i hi => h i (List.mem_finRange i) (doubledTest_iff.mpr hi), fun h i _ ht => h i (doubledTest_iff.mp ht)⟩

/-- The test of two roles in stages 2 and 3: the first that no line holds gives the reason. -/
def checkPair (lines : Table 256 Line) (a b : Role) (index n : Nat) : Option CheckFailure :=
  if (lineOf lines a).isNone then some (index, n) else if (lineOf lines b).isNone then some (index, n + 1) else none

section Pair

variable {a b : Role} {index n m : Nat}

theorem checkPair_of_missing (ha : a ≠ .unused) (hb : b ≠ .unused)
    (h : (m = n ∧ ¬ Held lines a) ∨ (m = n + 1 ∧ Held lines a ∧ ¬ Held lines b)) : checkPair lines a b index n = some (index, m) := by
  obtain ⟨rfl, h⟩ | ⟨rfl, h, h'⟩ := h
  · rw [checkPair, if_pos ((lineOf_isNone ha).mpr h)]
  · rw [checkPair, if_neg fun h' => (lineOf_isNone ha).mp h' h, if_pos ((lineOf_isNone hb).mpr h')]

theorem checkPair_eq_none (ha : a ≠ .unused) (hb : b ≠ .unused) : checkPair lines a b index n = none ↔ Held lines a ∧ Held lines b := by
  by_cases h : Held lines a
  · by_cases h' : Held lines b
    · rw [checkPair, if_neg fun hn => (lineOf_isNone ha).mp hn h, if_neg fun hn => (lineOf_isNone hb).mp hn h']
      simp [h, h']
    · rw [checkPair_of_missing ha hb (.inr ⟨rfl, h, h'⟩)]
      simp [h']
  · rw [checkPair_of_missing ha hb (.inl ⟨rfl, h⟩)]
    simp [h]

end Pair

theorem checkSensors_eq (l : Ladder) (lines : Table 256 Line) : l.checkSensors lines =
    ((List.finRange 82).filter (fun h => l.headConfigured h)).findSome? (fun h => checkPair lines (.sensorA h) (.sensorB h) h.val 2) := rfl

theorem checkDetection_eq (l : Ladder) (lines : Table 256 Line) : l.checkDetection lines =
    l.pointsInUse.findSome? (fun p => checkPair lines (.detectN p) (.detectR p) p.val 4) := rfl

theorem mem_configured {h : HeadIx} : h ∈ (List.finRange 82).filter (fun h => l.headConfigured h) ↔ Configured l h := by
  simp [headConfigured_iff, List.mem_finRange]

theorem checkSensors_eq_none : l.checkSensors lines = none ↔ ∀ h, Configured l h → Held lines (.sensorA h) ∧ Held lines (.sensorB h) := by
  rw [checkSensors_eq, List.findSome?_eq_none_iff]
  simp only [mem_configured]
  exact forall_congr' fun h => imp_congr_right fun _ => checkPair_eq_none Role.noConfusion Role.noConfusion

theorem checkDetection_eq_none : l.checkDetection lines = none ↔
    ∀ p, l.config p ≠ none → Held lines (.detectN p) ∧ Held lines (.detectR p) := by
  rw [checkDetection_eq, List.findSome?_eq_none_iff]
  simp only [mem_pointsInUse]
  exact forall_congr' fun p => imp_congr_right fun _ => checkPair_eq_none Role.noConfusion Role.noConfusion

/-- A configured head that does not fail has both its sensors. -/
theorem sensors_of_passes {h : HeadIx} (hc : Configured l h) (hpass : ∀ n, ¬ SensorFails l lines h n) :
    Held lines (.sensorA h) ∧ Held lines (.sensorB h) := by
  by_contra hmissing
  by_cases ha : Held lines (.sensorA h)
  · exact hpass 3 ⟨hc, .inr ⟨rfl, ha, fun hb => hmissing ⟨ha, hb⟩⟩⟩
  · exact hpass 2 ⟨hc, .inl ⟨rfl, ha⟩⟩

theorem detections_of_passes {p : PointIx} (hc : l.config p ≠ none) (hpass : ∀ n, ¬ DetectionFails l lines p n) :
    Held lines (.detectN p) ∧ Held lines (.detectR p) := by
  by_contra hmissing
  by_cases ha : Held lines (.detectN p)
  · exact hpass 5 ⟨hc, .inr ⟨rfl, ha, fun hb => hmissing ⟨ha, hb⟩⟩⟩
  · exact hpass 4 ⟨hc, .inl ⟨rfl, ha⟩⟩

theorem checkSensors_of_first {h : HeadIx} {n : Nat} (hf : SensorFails l lines h n) (hfirst : ∀ k m, k < h → ¬ SensorFails l lines k m) :
    l.checkSensors lines = some (h.val, n) := by
  rw [checkSensors_eq]
  refine findSome?_of_first ((List.pairwise_lt_finRange 82).sublist List.filter_sublist) (mem_configured.mpr hf.1)
    (checkPair_of_missing Role.noConfusion Role.noConfusion hf.2) fun k hk hlt => ?_
  exact (checkPair_eq_none Role.noConfusion Role.noConfusion).mpr (sensors_of_passes (mem_configured.mp hk) fun m => hfirst k m hlt)

theorem checkDetection_of_first {p : PointIx} {n : Nat} (hf : DetectionFails l lines p n)
    (hfirst : ∀ q m, q < p → ¬ DetectionFails l lines q m) : l.checkDetection lines = some (p.val, n) := by
  rw [checkDetection_eq]
  refine findSome?_of_first pairwise_pointsInUse (mem_pointsInUse.mpr hf.1)
    (checkPair_of_missing Role.noConfusion Role.noConfusion hf.2) fun q hq hlt => ?_
  exact (checkPair_eq_none Role.noConfusion Role.noConfusion).mpr (detections_of_passes (mem_pointsInUse.mp hq) fun m => hfirst q m hlt)

theorem lineCheck : LineCheck := by
  intro l lines
  refine ⟨?_, fun i h hfirst => ?_, fun hroles => ⟨fun h n hf hfirst => ?_, fun hsensors p n hf hfirst => ?_⟩⟩
  · simp only [Ladder.checkLines, orElse_eq_none, checkRoles_eq_none, checkSensors_eq_none, checkDetection_eq_none]
    rfl
  · rw [Ladder.checkLines, checkRoles_of_first h hfirst]
    rfl
  · rw [Ladder.checkLines, checkRoles_eq_none.mpr hroles, checkSensors_of_first hf hfirst]
    rfl
  · rw [Ladder.checkLines, checkRoles_eq_none.mpr hroles,
      checkSensors_eq_none.mpr fun h hc => sensors_of_passes hc (hsensors h), checkDetection_of_first hf hfirst]
    rfl

/-! ## What COMMISSION creates (R39, R126, R164) -/

/-- Notices raised on points, one after another, are the only change. -/
theorem raisePoints_eq (ps : List PointIx) (r : PointReason) (y : Yard) :
    ∃ n, ps.foldl (fun z p => z.raisePoint p r) y = { y with notices := n } := by
  induction ps generalizing y with
  | nil => exact ⟨y.notices, rfl⟩
  | cons p ps ih => exact (ih (y.raisePoint p r)).imp fun n hn => hn

theorem raised_raisePoints {ps : List PointIx} {p : PointIx} (h : p ∈ ps) (r : PointReason) (y : Yard) :
    Raised (ps.foldl (fun z q => z.raisePoint q r) y) (.point p) (pointReasonNumber r) := by
  have hkept : ∀ (qs : List PointIx) (z : Yard), Raised z (.point p) (pointReasonNumber r) →
      Raised (qs.foldl (fun z q => z.raisePoint q r) z) (.point p) (pointReasonNumber r) := fun qs => by
    induction qs with
    | nil => exact fun z hz => hz
    | cons q qs ih => exact fun z hz => ih _ (Raised.raise hz _ _)
  induction ps generalizing y with
  | nil => cases h
  | cons q ps ih =>
    obtain rfl | h := List.mem_cons.mp h
    · exact hkept ps _ (raised_raisePoint _ _ _)
    · exact ih h _

theorem startupPoint_lost (a b : Bool) :
    (startupPoint a b).state.isLost = true ↔ (startupPoint a b).state = .lost .startupUnproved := by
  cases a <;> cases b <;> simp [startupPoint, provedLeg, PointState.isLost]

/-- The yard that COMMISSION founds, before the notices of its LOST points. -/
def founded (s : State) : Yard :=
  { s.yard with
      lead := some (startupSection s.ladder.consts.leadStall),
      sections := Table.tab (fun p => (s.ladder.config p).map (fun c => startupSection c.stall)),
      queues := Table.fill 40 [], points := startupPoints s, drive := Table.fill 80 false, slotsInUse := 0, waiting := [],
      plans := Table.tab (fun p => (s.ladder.config p).map (fun _ => Plan.idle)),
      control := { s.yard.control with
        mode := .standby, halt := 0, disturbed := s.ladder.pointsInUse.length + 1,
        lost := (startupLost (startupPoints s)).length, stall := 0 } }

theorem startupYard_eq (s : State) : ∃ n, startupYard s = { founded s with notices := n } := raisePoints_eq _ _ _

theorem sectionOf_founded (s : State) (sid : SectionId) : (founded s).sectionOf sid =
    ((match sid with
      | .lead => some s.ladder.consts.leadStall
      | .point p => (s.ladder.config p).map PointConfig.stall) : Option Nat).map startupSection := by
  cases sid with
  | lead => rfl
  | point p =>
    refine (Table.look_tab _ _).trans ?_
    dsimp only
    rw [Option.map_map]
    rfl

theorem pointOf_founded_unused {p : PointIx} (h : s.ladder.config p = none) : (founded s).pointOf p = none := by
  refine (Table.look_tab _ _).trans ?_
  rw [if_neg fun hin => inUse_iff.mp hin h]

theorem pointOf_founded {p : PointIx} (h : s.ladder.config p ≠ none) : (founded s).pointOf p =
    some (startupPoint (roleLevel s.lines (.detectN p)) (roleLevel s.lines (.detectR p))) := by
  refine (Table.look_tab _ _).trans ?_
  rw [if_pos (inUse_iff.mpr h)]

theorem planOf_founded (s : State) (p : PointIx) : (founded s).planOf p = (s.ladder.config p).map (fun _ => Plan.idle) := Table.look_tab _ _

/-- The points made LOST are those whose detection proves no leg. -/
theorem startupLost_eq (s : State) : startupLost (startupPoints s) =
    (List.finRange 40).filter (fun p => (founded s).pointStateOf p == some (.lost .startupUnproved)) := by
  refine List.filter_congr fun p _ => ?_
  rw [Yard.pointStateOf, show Table.look (startupPoints s) p = (founded s).pointOf p from rfl]
  by_cases hp : s.ladder.config p = none
  · rw [pointOf_founded_unused hp]
    rfl
  · rw [pointOf_founded hp, Bool.eq_iff_iff]
    simpa using startupPoint_lost _ _

theorem mem_startupLost {p : PointIx} (h : (founded s).pointStateOf p = some (.lost .startupUnproved)) :
    p ∈ startupLost (startupPoints s) := by
  rw [startupLost_eq, List.mem_filter, h]
  exact ⟨List.mem_finRange p, beq_self_eq_true _⟩

theorem startupPoint_spec (a b : Bool) :
    (a = true ∧ b = false → (startupPoint a b).state = .proved .N) ∧ (a = false ∧ b = true → (startupPoint a b).state = .proved .R) ∧
      (a = b → (startupPoint a b).state = .lost .startupUnproved) := by
  cases a <;> cases b <;> simp [startupPoint, provedLeg]

theorem startedHead_spec (configured a b : Bool) :
    (startedHead configured a b).condition = .ok ∧ (startedHead configured a b).last = none ∧
      (configured = false → (startedHead configured a b).state = .off) ∧
      (configured = true → (startedHead configured a b).state = if a = false ∧ b = false then .idle else .settling) := by
  cases configured <;> cases a <;> cases b <;> simp [startedHead, Head.off]

theorem commissionBody_refused (h : s.mode ≠ .setup) : commissionBody s = (refuse .badMode, s) := if_pos h

theorem commissionBody_ladder {n k : Nat} (hm : s.mode = .setup) (h : s.ladder.check = some (n, k)) :
    commissionBody s = (refuseCheck .ladderInvalid (n, k), s) := by
  rw [commissionBody, if_neg (not_not.mpr hm), h]

theorem commissionBody_lines {n k : Nat} (hm : s.mode = .setup) (hl : s.ladder.check = none)
    (h : s.ladder.checkLines s.lines = some (n, k)) : commissionBody s = (refuseCheck .linesInvalid (n, k), s) := by
  rw [commissionBody, if_neg (not_not.mpr hm), hl]
  dsimp only
  rw [h]

theorem commissionBody_passes (hm : s.mode = .setup) (hl : s.ladder.check = none) (h : s.ladder.checkLines s.lines = none) :
    commissionBody s = (done, s.commissionedFrom) := by
  rw [commissionBody, if_neg (not_not.mpr hm), hl]
  dsimp only
  rw [h]

/-- Settles O47: the checks stage by stage, and the yard and the heads that a ladder that passes is created with. -/
theorem commissionCreatesLadder : Obligations.CommissionCreatesLadder := by
  refine ⟨ladderCheck, ladderFailures, lineCheck, fun s hm => refuses_of_serve (c := .commission) rfl (commissionBody_refused hm),
    fun s hm => ⟨fun n k h => refuses_of_serve (c := .commission) rfl (commissionBody_ladder hm h),
      fun n k hl h => refuses_of_serve (c := .commission) rfl (commissionBody_lines hm hl h), fun hl h => ?_⟩⟩
  obtain ⟨n, hyard⟩ := startupYard_eq s
  have hraised : ∀ p, (founded s).pointStateOf p = some (.lost .startupUnproved) → Raised (startupYard s) (.point p) 1 := fun p hp =>
    raised_raisePoints (mem_startupLost hp) .lost _
  have hanswer := answers_of_serve (c := .commission) rfl (commissionBody_passes hm hl h)
  rw [State.commissionedFrom] at hanswer
  rw [hyard] at hanswer hraised
  refine ⟨_, hanswer, permitLaw_withYard _ _, attnLaw_withYard _ _, rfl, rfl, rfl, rfl, rfl, rfl, rfl, rfl, rfl,
    fun q => Table.look_fill _ _, fun d => Table.look_fill _ _, sectionOf_founded s, fun p hp => ⟨pointOf_founded_unused hp, ?_⟩,
    fun p c hc => ⟨?_, ?_⟩, fun k => ?_, rfl, rfl, rfl, rfl, congrArg List.length (startupLost_eq s), rfl, rfl⟩
  · exact (planOf_founded s p).trans (by rw [hp]; rfl)
  · exact (planOf_founded s p).trans (by rw [hc]; rfl)
  · have hpoint := pointOf_founded (s := s) (p := p) (by rw [hc]; exact Option.some_ne_none c)
    obtain ⟨hN, hR, hlost⟩ := startupPoint_spec (roleLevel s.lines (.detectN p)) (roleLevel s.lines (.detectR p))
    refine ⟨_, hpoint, rfl, rfl, rfl, hN, hR, fun hsame => ⟨hlost hsame, hraised p ?_⟩⟩
    rw [Yard.pointStateOf, hpoint, Option.map_some]
    exact congrArg some (hlost hsame)
  · have hhead : Table.look (startupHeads s) k =
        startedHead (s.ladder.headConfigured k) (roleLevel s.lines (.sensorA k)) (roleLevel s.lines (.sensorB k)) := Table.look_tab _ _
    have hspec := startedHead_spec (s.ladder.headConfigured k) (roleLevel s.lines (.sensorA k)) (roleLevel s.lines (.sensorB k))
    rw [← hhead] at hspec
    exact hspec

end Sys2Proof.Proofs
end


section
/-! SUPPORT. What a disturbance makes of the sections it names and of the cuts they list, and what a loss makes of a cut (R55,
R57). -/

namespace Sys2Proof.Proofs

open Sys2Proof Sys2Proof.Machine Sys2Proof.Spec

variable {e : Env} {y z : Yard} {i : SlotIx} {sid : SectionId} {c c' : Cut}

/-! ## The record of a cut through losses and disturbances -/

/-- The records agree but for their state and what the planner decides. -/
structure SameCut (c c' : Cut) : Prop where
  number : c'.number = c.number
  dest : c'.dest = c.dest
  axles : c'.axles = c.axles
  actual : c'.actual = c.actual
  bare : c'.started.map bare = c.started.map bare

theorem SameCut.refl (c : Cut) : SameCut c c := ⟨rfl, rfl, rfl, rfl, rfl⟩

theorem SameCut.modifyStarted (h : SameCut c c') {f : Started → Started} (hf : Passive f) :
    SameCut c { c' with started := c'.started.map f } :=
  ⟨h.number, h.dest, h.axles, h.actual, by rw [← h.bare, Option.map_map]; exact congrArg (fun g => c'.started.map g) (funext hf)⟩

theorem SameCut.started (h : SameCut c c') {x : Started} (hx : c.started = some x) :
    ∃ x', c'.started = some x' ∧ Proofs.bare x' = Proofs.bare x := by
  have hb := h.bare
  rw [hx, Option.map_some, Option.map_eq_some_iff] at hb
  exact hb

/-- The slot holds the cut with the state. -/
def HeldAs (c : Cut) (st : CutState) (o : Option Cut) : Prop := ∃ c', o = some c' ∧ SameCut c c' ∧ c'.state = st

/-- The slot holds the cut in its own state, or LOST where it was on the ladder. -/
def Lives (c : Cut) (o : Option Cut) : Prop := HeldAs c c.state o ∨ (c.onLadder = true ∧ HeldAs c .lost o)

theorem heldAs_self (h : y.cutAt i = some c) : HeldAs c c.state (y.cutAt i) := ⟨c, h, .refl c, rfl⟩

theorem lives_self (h : y.cutAt i = some c) : Lives c (y.cutAt i) := .inl (heldAs_self h)

theorem HeldAs.modifyStarted {st : CutState} {f : Started → Started} (hf : Passive f) (h : HeldAs c st (some c')) :
    HeldAs c st (some { c' with started := c'.started.map f }) := by
  obtain ⟨c'', hc, hsame, hst⟩ := h
  cases hc
  exact ⟨_, rfl, hsame.modifyStarted hf, hst⟩

theorem HeldAs.lose {st : CutState} (h : HeldAs c st (some c')) : HeldAs c .lost (some { c' with state := .lost }) := by
  obtain ⟨c'', hc, hsame, -⟩ := h
  cases hc
  exact ⟨_, rfl, ⟨hsame.number, hsame.dest, hsame.axles, hsame.actual, hsame.bare⟩, rfl⟩

theorem onLadder_of_state {a b : Cut} (h : a.state = b.state) : a.onLadder = b.onLadder := by rw [Cut.onLadder, Cut.onLadder, h]

theorem not_onLadder_of_lost (h : c.state = .lost) : c.onLadder = false := by simp [Cut.onLadder, h]

/-- A cut that is not on the ladder stays as it is. -/
theorem lossClosed_heldAs (e : Env) (i : SlotIx) (c : Cut) {st : CutState} (hst : st ≠ .entering ∧ st ≠ .rolling) :
    LossClosed e noDebts (fun _ y => HeldAs c st (y.cutAt i)) := by
  refine lossClosed_of_cut e i (fun c' f hf h => h.modifyStarted hf) fun c' hl h => ?_
  obtain ⟨c'', hc, -, hstate⟩ := h
  cases hc
  have hoff : c'.onLadder = false := by
    rw [Cut.onLadder, hstate, beq_eq_false_iff_ne.mpr hst.1, beq_eq_false_iff_ne.mpr hst.2]
    rfl
  rw [hoff] at hl
  cases hl

theorem lossClosed_lostAs (e : Env) (i : SlotIx) (c : Cut) : LossClosed e noDebts (fun _ y => HeldAs c .lost (y.cutAt i)) :=
  lossClosed_heldAs e i c ⟨CutState.noConfusion, CutState.noConfusion⟩

theorem lossClosed_lives (e : Env) (i : SlotIx) (c : Cut) : LossClosed e noDebts (fun _ y => Lives c (y.cutAt i)) := by
  refine lossClosed_of_cut e i (fun c' f hf h => h.imp (·.modifyStarted hf) (·.imp_right (·.modifyStarted hf))) fun c' hl h => .inr ?_
  obtain h | ⟨hon, h⟩ := h
  · have hsame : c'.onLadder = c.onLadder := by
      obtain ⟨c'', hc, -, hst⟩ := h
      cases hc
      exact onLadder_of_state hst
    exact ⟨hsame ▸ hl, h.lose⟩
  · exact ⟨hon, h.lose⟩

/-! ## A lost cut (R57) -/

theorem lost_loseAt (n : Nat) (h : Lives c (y.cutAt i)) (hl : c.onLadder = true) : HeldAs c .lost ((y.loseAt e (n + 1) i).cutAt i) := by
  have hclosed := lossClosed_lostAs e i c
  obtain ⟨c', hc, hsame, hst⟩ | ⟨-, h⟩ := h
  · refine hclosed.loseAt_of_marked (d := ()) (fun d j z hz => hclosed.loseAt (d := d) n j hz)
      (fun z hz => hclosed.absorbIfEntering (d := ()) i hz) hc ((onLadder_of_state hst).trans hl) ?_
    rw [Yard.cutAt_modifyCut, if_pos rfl, hc]
    exact HeldAs.lose ⟨c', rfl, hsame, hst⟩
  · exact hclosed.loseAt (d := ()) (n + 1) i h

theorem lost_loseCut (h : Lives c (y.cutAt i)) (hl : c.onLadder = true) : HeldAs c .lost ((y.loseCut e i).cutAt i) := lost_loseAt 41 h hl

theorem raised_loseAt (n : Nat) (h : y.cutAt i = some c) (hl : c.onLadder = true) : Raised (y.loseAt e (n + 1) i) (.cut i) 2 := by
  rw [CascadeClosed.loseAt_succ n h hl]
  exact (lossClosed_raised e _ _).absorbIfEntering (d := ()) i (raised_raiseCut i .lost _)

/-- Cuts lost one after another. -/
theorem lost_foldl {n : Nat} {cuts : List SlotIx} (hi : i ∈ cuts) (h : Lives c (y.cutAt i)) (hl : c.onLadder = true) :
    HeldAs c .lost ((cuts.foldl (fun z j => z.loseAt e (n + 1) j) y).cutAt i) := by
  induction cuts generalizing y with
  | nil => cases hi
  | cons j cuts ih =>
    obtain rfl | hi := List.mem_cons.mp hi
    · exact CascadeClosed.foldLoss (P := fun (_ : Unit) z => HeldAs c .lost (z.cutAt i)) (d := ())
        (lose := fun j z => z.loseAt e (n + 1) j) (fun d j z hz => (lossClosed_lostAs e i c).loseAt (d := d) (n + 1) j hz) cuts
        (lost_loseAt n h hl)
    · exact ih hi ((lossClosed_lives e i c).loseAt (d := ()) (n + 1) j h)

/-- The cut is in its state, or LOST with the reason raised. -/
def LostAloud (i : SlotIx) (c : Cut) (y : Yard) : Prop :=
  HeldAs c c.state (y.cutAt i) ∨ (HeldAs c .lost (y.cutAt i) ∧ Raised y (.cut i) 2)

theorem cascadeClosed_lostAloud (e : Env) (i : SlotIx) (c : Cut) : CascadeClosed e noDebts (fun _ y => LostAloud i c y) :=
  cascadeClosed_or (cascadeClosed_of_cut e i fun _ _ hf h => h.modifyStarted hf)
    (cascadeClosed_and (lossClosed_lostAs e i c).toCascadeClosed (lossClosed_raised e _ _).toCascadeClosed)

theorem LostAloud.lives (h : LostAloud i c y) (hl : c.onLadder = true) : Lives c (y.cutAt i) := h.imp_right fun h => ⟨hl, h.1⟩

theorem absorbIfEntering_fields (j : SlotIx) (y : Yard) :
    (y.absorbIfEntering j).slots = y.slots ∧ (y.absorbIfEntering j).notices = y.notices := by
  unfold Yard.absorbIfEntering
  repeat' split
  all_goals exact ⟨rfl, rfl⟩

theorem lostAloud_absorbIfEntering (j : SlotIx) (h : LostAloud i c y) : LostAloud i c (y.absorbIfEntering j) := by
  obtain ⟨hslots, hnotices⟩ := absorbIfEntering_fields j y
  rw [LostAloud, Yard.cutAt_congr hslots]
  exact h.imp_right (And.imp_right fun h => Raised.of_notices h hnotices)

/-- Whichever cut is lost, a cut that the cascade loses has its reason raised. -/
theorem lostAloud_loseAt (n : Nat) (j : SlotIx) (h : LostAloud i c y) (hl : c.onLadder = true) : LostAloud i c (y.loseAt e n j) := by
  induction n generalizing j y with
  | zero => exact h
  | succ n ih =>
    by_cases hon : ∃ b, y.cutAt j = some b ∧ b.onLadder = true
    · obtain ⟨b, hb, hbl⟩ := hon
      by_cases hji : j = i
      · subst hji
        exact .inr ⟨lost_loseAt n (h.lives hl) hl, raised_loseAt n hb hbl⟩
      · refine (cascadeClosed_lostAloud e i c).loseAt_of_marked (d := ()) (fun d k z hz => ih k hz)
          (fun z hz => lostAloud_absorbIfEntering j hz) hb hbl ?_
        have hcut : (y.modifyCut j (fun z => { z with state := .lost })).cutAt i = y.cutAt i := by rw [Yard.cutAt_modifyCut, if_neg hji]
        rw [LostAloud, hcut]
        exact h.imp_right fun h => ⟨h.1, Raised.of_notices h.2 (by simp)⟩
    · rwa [CascadeClosed.loseAt_of_off (n + 1) fun b hb => Bool.eq_false_iff.mpr fun hbl => hon ⟨b, hb, hbl⟩]

/-- What the loss of a cut on the ladder makes of it. -/
theorem lostAloud_of_lost (h : LostAloud i c y) (hl : c.onLadder = true) (hlost : HeldAs c .lost (y.cutAt i)) : Raised y (.cut i) 2 := by
  obtain ⟨c', hc, -, hst⟩ | ⟨-, hraised⟩ := h
  · obtain ⟨c'', hc'', -, hst''⟩ := hlost
    rw [hc] at hc''
    cases hc''
    rw [onLadder_of_state hst.symm, not_onLadder_of_lost hst''] at hl
    cases hl
  · exact hraised

/-! ## Disturbed sections (R55) -/

/-- The loss of a cut, with a cascade of a depth. -/
def loseTo (e : Env) (n : Nat) : SlotIx → Yard → Yard := fun j z => z.loseAt e n j

theorem disturb_eq (cause : DisturbCause) (sids : List SectionId) (y : Yard) :
    y.disturb e cause sids = y.disturbWith (loseTo e (41 + 1)) e cause sids := rfl

section DisturbWith

variable {n : Nat} {cause : DisturbCause} {sids : List SectionId}

theorem disturbWith_keeps {D : Type} {k : Debts D} {P : D → Yard → Prop} {d : D} (h : LossClosed e k P) (hy : P d y) :
    P d (y.disturbWith (loseTo e n) e cause sids) := h.disturbWith (fun _ j _ hz => h.loseAt n j hz) cause sids hy

theorem cutAt_markAll (cause : DisturbCause) (l : List SectionId) (y : Yard) (i : SlotIx) : (markAll cause l y).cutAt i = y.cutAt i :=
  Yard.cutAt_congr (congrArg Aside.slots (aside_markAll cause l y)) i

/-- What holds of the record of a section that has just been marked, losses and disturbances keep. -/
theorem lossClosed_marked (e : Env) (sid : SectionId) (cause : DisturbCause) (x : Section) :
    LossClosed e noDebts (fun _ y => y.sectionOf sid = some (disturbedRecord cause x)) :=
  lossClosed_of_section e sid (Q := fun o => o = some (disturbedRecord cause x))
    (fun _ z hz hQ => absurd (by cases hQ; rfl) hz) (fun z f hQ => by cases hQ; rfl)

theorem sectionOf_disturbWith {x : Section} (hsid : sid ∈ sids) (hx : y.sectionOf sid = some x) (ht : x.state ≠ .disturbed) :
    (y.disturbWith (loseTo e n) e cause sids).sectionOf sid = some (disturbedRecord cause x) := by
  have htrusted : y.trusted sid = true := by
    rw [← Bool.not_eq_false, ← untrusted_iff]
    exact fun h => ht (h x hx)
  rw [CascadeClosed.disturbWith_eq]
  refine (lossClosed_marked e sid cause x).foldAfterDisturbed (d := ())
    (fun d j z hz => (lossClosed_marked e sid cause x).loseAt (d := d) n j hz) _ _ ?_
  rw [sectionOf_markAll, if_pos (CascadeClosed.mem_fresh.mpr ⟨hsid, htrusted⟩), hx, Option.map_some]

/-- A section DISTURBED before keeps all but its list. -/
theorem lossClosed_disturbed (e : Env) (sid : SectionId) {x : Section} (hx : x.state = .disturbed) :
    LossClosed e noDebts (fun _ y => ∃ l, y.sectionOf sid = some { x with occupants := l }) :=
  lossClosed_of_section e sid (Q := fun o => ∃ l, o = some { x with occupants := l })
    (fun _ z hz ⟨l, hQ⟩ => absurd (by cases hQ; exact hx) hz) (fun z f ⟨l, hQ⟩ => by cases hQ; exact ⟨_, rfl⟩)

/-- The cuts of a list of sections are lost with it. -/
theorem lost_foldAfterDisturbed {l : List SectionId} {cutsOf : SectionId → List SlotIx} (hsid : sid ∈ l) (hi : i ∈ cutsOf sid)
    (h : Lives c (y.cutAt i)) (hl : c.onLadder = true) : HeldAs c .lost
      (((l.map (fun sid => (sid, cutsOf sid))).foldl (fun z r => z.afterDisturbed (loseTo e (n + 1)) e r.1 r.2) y).cutAt i) := by
  have hlost := lossClosed_lostAs e i c
  have hlives := lossClosed_lives e i c
  induction l generalizing y with
  | nil => cases hsid
  | cons s l ih =>
    obtain rfl | hsid := List.mem_cons.mp hsid
    · refine hlost.foldAfterDisturbed (d := ()) (fun d j z hz => hlost.loseAt (d := d) (n + 1) j hz) l cutsOf ?_
      exact hlost.raiseDisturbed (d := ()) _ (hlost.told () _ _ (lost_foldl hi h hl))
    · exact ih hsid (hlives.afterDisturbed (d := ()) (fun d j z hz => hlives.loseAt (d := d) (n + 1) j hz) s (cutsOf s) h)

theorem lost_disturbWith {x : Section} {o : Occupant} (hsid : sid ∈ sids) (hx : y.sectionOf sid = some x) (ht : x.state ≠ .disturbed)
    (ho : o ∈ x.occupants) (h : Lives c (y.cutAt o.slot)) (hl : c.onLadder = true) :
    HeldAs c .lost ((y.disturbWith (loseTo e (n + 1)) e cause sids).cutAt o.slot) := by
  have htrusted : y.trusted sid = true := by
    rw [← Bool.not_eq_false, ← untrusted_iff]
    exact fun h => ht (h x hx)
  rw [CascadeClosed.disturbWith_eq]
  refine lost_foldAfterDisturbed (CascadeClosed.mem_fresh.mpr ⟨hsid, htrusted⟩) ?_ ?_ hl
  · rw [Yard.listed, hx]
    exact List.mem_map_of_mem ho
  · rwa [cutAt_markAll]

end DisturbWith

/-- A section that a disturbance names becomes DISTURBED with the cause, and the cuts it listed are LOST. -/
theorem becameDisturbed_disturb {cause : DisturbCause} {sids : List SectionId} {x : Section} (hsid : sid ∈ sids)
    (hx : y.sectionOf sid = some x) (ht : x.state ≠ .disturbed) : BecameDisturbed y (y.disturb e cause sids) sid x cause x.count := by
  rw [disturb_eq]
  refine ⟨sectionOf_disturbWith hsid hx ht, fun o ho c hc hl => ?_⟩
  obtain ⟨c', hc', -, hst⟩ := lost_disturbWith (e := e) (n := 41) (cause := cause) hsid hx ht ho (lives_self hc) hl
  exact ⟨c', hc', hst⟩

theorem stays_disturbed_disturb {cause : DisturbCause} {sids : List SectionId} {x : Section} (hx : y.sectionOf sid = some x)
    (ht : x.state = .disturbed) : ∃ l, (y.disturb e cause sids).sectionOf sid = some { x with occupants := l } :=
  (lossClosed_disturbed e sid ht).disturb (d := ()) cause sids ⟨x.occupants, hx⟩

/-! ## A change of a count alone -/

theorem becameDisturbed_congr {x : Section} {cause : DisturbCause} {count : Nat} {z' : Yard} (h : BecameDisturbed y z sid x cause count)
    (hsection : z'.sectionOf sid = z.sectionOf sid) (hslots : z'.slots = z.slots) : BecameDisturbed y z' sid x cause count := by
  refine ⟨hsection.trans h.1, fun o ho c hc hl => ?_⟩
  obtain ⟨c', hc', hst⟩ := h.2 o ho c hc hl
  exact ⟨c', (Yard.cutAt_congr hslots o.slot).trans hc', hst⟩

theorem becameDisturbed_recount {x : Section} {cause : DisturbCause} {count : Nat} (h : BecameDisturbed y z sid x cause count)
    (f : Nat → Nat) : BecameDisturbed y (z.modifySection sid (fun a => { a with count := f a.count })) sid x cause (f count) := by
  refine ⟨?_, fun o ho c hc hl => ?_⟩
  · rw [Yard.sectionOf_modifySection, if_pos rfl, h.1]
    rfl
  · obtain ⟨c', hc', hst⟩ := h.2 o ho c hc hl
    exact ⟨c', (Yard.cutAt_congr (by simp) o.slot).trans hc', hst⟩

end Sys2Proof.Proofs
end


section
/-! PROOFS. The head decoder, head faults and rollbacks (R32 to R36, R53, R54). -/

namespace Sys2Proof.Proofs

open Sys2Proof Sys2Proof.Machine Sys2Proof.Spec

variable {s : State} {e : Env} {y z : Yard} {sid : SectionId}

/-! ## The decoder (R32 to R36) -/

theorem single_to {h : Head} {k : Sensor} {level : Bool} {d : DecoderState} (hm : decodeMove h.state k level = .to d) (now : Instant) :
    h.single k level now = (h.enter d now, .nothing) := by rw [Head.single, hm]

theorem single_deliver {h : Head} {k : Sensor} {level : Bool} {dir : Direction} (hm : decodeMove h.state k level = .deliver dir)
    (now : Instant) : h.single k level now = (h.completed dir, .passage (h.passage dir)) := by rw [Head.single, hm]

theorem single_fault {h : Head} {k : Sensor} {level : Bool} (hm : decodeMove h.state k level = .fault) (now : Instant) :
    h.single k level now = (h.faulted now, .fault) := by rw [Head.single, hm]

theorem faultOf_faulted (h : Head) (now : Instant) : FaultOf h (h.faulted now) now := ⟨rfl, rfl, rfl, rfl, rfl⟩

theorem change_A {h : Head} (hs : h.state ≠ .settling) (levelA levelB : Bool) (now : Instant) :
    h.change true false levelA levelB now = h.single .A levelA now := by rw [Head.change, if_neg hs]

theorem change_B {h : Head} (hs : h.state ≠ .settling) (levelA levelB : Bool) (now : Instant) :
    h.change false true levelA levelB now = h.single .B levelB now := by rw [Head.change, if_neg hs]

theorem singleChanges : SingleChanges := fun _ levelA levelB now hs => ⟨change_A hs levelA levelB now, change_B hs levelA levelB now⟩

theorem singleFaults : SingleFaults := by
  intro h now other
  refine ⟨fun hs => ?_, fun hs => ?_, fun hs => ?_, fun hs => ?_⟩
  · obtain hs | hs := hs
    all_goals
      rw [change_A (by rw [hs]; exact DecoderState.noConfusion), single_fault (by rw [hs]; rfl)]
      exact ⟨_, rfl, faultOf_faulted h now⟩
  · obtain hs | hs := hs
    all_goals
      rw [change_B (by rw [hs]; exact DecoderState.noConfusion), single_fault (by rw [hs]; rfl)]
      exact ⟨_, rfl, faultOf_faulted h now⟩
  · rw [change_A (by rw [hs]; exact DecoderState.noConfusion), single_fault (by rw [hs]; rfl)]
    exact ⟨_, rfl, faultOf_faulted h now⟩
  · rw [change_B (by rw [hs]; exact DecoderState.noConfusion), single_fault (by rw [hs]; rfl)]
    exact ⟨_, rfl, faultOf_faulted h now⟩

theorem coincidentChanges : CoincidentChanges := by
  intro h now
  obtain ⟨state, condition, first, longAgo, gap, timer, fault, last⟩ := h
  refine ⟨?_, ?_, ?_, ?_, ?_, ?_, ?_, ?_⟩
  all_goals
    intro hs
    dsimp only at hs
    subst hs
  · exact ⟨_, rfl, rfl, rfl, rfl, rfl, rfl⟩
  · exact ⟨⟨_, rfl, rfl, rfl, rfl, rfl⟩, ⟨_, rfl, rfl, rfl, rfl, rfl⟩, _, rfl, rfl, rfl, rfl, rfl, rfl⟩
  · exact ⟨_, rfl, rfl, rfl, rfl, rfl⟩
  · exact ⟨_, rfl, rfl, rfl, rfl, rfl⟩
  · exact ⟨_, rfl, rfl, rfl, rfl⟩
  · exact ⟨_, rfl, rfl, rfl, rfl⟩
  · exact ⟨_, rfl, rfl, rfl, rfl, rfl⟩
  · exact ⟨_, rfl, rfl, rfl, rfl, rfl⟩

theorem unfollowedHeads : UnfollowedHeads := by
  intro h a b levelA levelB now
  refine ⟨fun hs => ?_, fun hs => ?_⟩
  · unfold Head.change
    rw [if_pos hs]
    cases levelA <;> cases levelB <;> rfl
  · obtain ⟨state, condition, first, longAgo, gap, timer, fault, last⟩ := h
    dsimp only at hs
    obtain rfl | rfl := hs
    all_goals cases a <;> cases b <;> cases levelA <;> cases levelB <;> rfl

/-- The four transitions of an axle in its direction. -/
theorem four_transitions (h : Head) (t1 t2 t3 t4 : Instant) (dir : Direction) (hs : h.state = .idle) :
    ∃ (first second : Sensor) (a b c d : Head),
      (dir = .downhill → first = .A ∧ second = .B) ∧ (dir = .uphill → first = .B ∧ second = .A) ∧
      h.single first true t1 = (a, .nothing) ∧ a.single second true t2 = (b, .nothing) ∧
      b.single first false t3 = (c, .nothing) ∧
      c.single second false t4 =
        (d, .passage { direction := dir, instant := t1, interval := min (max (t2 - t1).toNat 1) 65535,
                       longAgo := false }) ∧
      d.state = .idle ∧ d.condition = h.condition ∧ d.timer = none ∧
      b.timer = some (t2 + 20000#32) ∧ c.timer = none := by
  obtain ⟨state, condition, first, longAgo, gap, timer, fault, last⟩ := h
  dsimp only at hs
  subst hs
  cases dir with
  | downhill =>
    refine ⟨.A, .B, _, _, _, _, fun _ => ⟨rfl, rfl⟩, nofun, single_to rfl t1, single_to rfl t2, single_to rfl t3, single_deliver rfl t4, ?_⟩
    exact ⟨rfl, rfl, rfl, rfl, rfl⟩
  | uphill =>
    refine ⟨.B, .A, _, _, _, _, nofun, fun _ => ⟨rfl, rfl⟩, single_to rfl t1, single_to rfl t2, single_to rfl t3, single_deliver rfl t4, ?_⟩
    exact ⟨rfl, rfl, rfl, rfl, rfl⟩

/-! ## A head fault (R36, R54) -/

/-- Sections and queues as they stand. -/
theorem trafficClosed_sections (f : SectionId → Option Section) (q : Table 40 (List QueueEntry)) :
    TrafficClosed (fun y => (∀ sid, y.sectionOf sid = f sid) ∧ y.queues = q) where
  congr h hy := ⟨fun sid => (h.sectionOf sid).trans (hy.1 sid), h.queues.trans hy.2⟩
  started i f hf hy := ⟨fun sid => (sectionOf_of_fields (by simp) (by simp) sid).trans (hy.1 sid), by simpa using hy.2⟩
  reserve _ _ hy := hy
  release _ _ hy := hy

/-- Where no cut is listed, the effects of a disturbance leave sections and queues as the marking made them. -/
theorem foldAfterDisturbed_unlisted {lose : SlotIx → Yard → Yard} {cutsOf : SectionId → List SlotIx} (l : List SectionId)
    (h : ∀ sid ∈ l, cutsOf sid = []) (y : Yard) {z : Yard}
    (hz : (l.map (fun sid => (sid, cutsOf sid))).foldl (fun z r => z.afterDisturbed lose e r.1 r.2) y = z) :
    (∀ sid, z.sectionOf sid = y.sectionOf sid) ∧ z.queues = y.queues := by
  have hclosed := trafficClosed_sections y.sectionOf y.queues
  have hall : ∀ (l : List SectionId) (a : Yard), (∀ sid ∈ l, cutsOf sid = []) →
      ((∀ sid, a.sectionOf sid = y.sectionOf sid) ∧ a.queues = y.queues) →
      (∀ sid, ((l.map (fun sid => (sid, cutsOf sid))).foldl (fun z r => z.afterDisturbed lose e r.1 r.2) a).sectionOf sid =
        y.sectionOf sid) ∧
        ((l.map (fun sid => (sid, cutsOf sid))).foldl (fun z r => z.afterDisturbed lose e r.1 r.2) a).queues = y.queues := by
    intro l
    induction l with
    | nil => exact fun a _ ha => ha
    | cons s l ih =>
      intro a hl ha
      refine ih _ (fun sid hsid => hl sid (List.mem_cons_of_mem _ hsid)) ?_
      dsimp only
      rw [hl s List.mem_cons_self, Yard.afterDisturbed, List.foldl_nil]
      have htold := hclosed.congr (.reportDisturbed _) (hclosed.sectionTold (e := e) s ha)
      cases s <;> exact htold
  rw [← hz]
  exact hall l y h ⟨fun _ => rfl, rfl⟩

theorem disturb_unlisted {cause : DisturbCause} {sids : List SectionId}
    (h : ∀ sid ∈ sids, ∀ x, y.sectionOf sid = some x → x.occupants = []) :
    (∀ sid, (y.disturb e cause sids).sectionOf sid = (markAll cause (CascadeClosed.fresh y sids) y).sectionOf sid) ∧
      (y.disturb e cause sids).queues = y.queues := by
  obtain ⟨z, hz⟩ : ∃ z, y.disturb e cause sids = z := ⟨_, rfl⟩
  have hlisted : ∀ sid ∈ CascadeClosed.fresh y sids, y.listed sid = [] := fun sid hsid => by
    unfold Yard.listed
    split
    next x hx => rw [h sid (CascadeClosed.mem_fresh.mp hsid).1 x hx]; rfl
    · rfl
  rw [disturb_eq, CascadeClosed.disturbWith_eq] at hz
  obtain ⟨hsections, hqueues⟩ := foldAfterDisturbed_unlisted _ hlisted _ hz
  have hmarked : (markAll cause (CascadeClosed.fresh y sids) y).queues = y.queues := congrArg Aside.queues (aside_markAll _ _ _)
  rw [disturb_eq, CascadeClosed.disturbWith_eq, hz]
  exact ⟨hsections, hqueues.trans hmarked⟩

theorem headFaultDisturbs : HeadFaultDisturbs := by
  rintro e y z h rfl
  refine ⟨fun sid hsid x hx => ⟨fun ht => becameDisturbed_disturb hsid hx ht, fun ht => ?_⟩, fun hempty => ?_⟩
  · obtain ⟨l, hl⟩ := stays_disturbed_disturb (e := e) (cause := .headFault) (sids := e.ladder.adjoining h) hx ht
    exact ⟨_, hl, ht, rfl, rfl⟩
  · obtain ⟨hsections, hqueues⟩ := disturb_unlisted (e := e) (cause := .headFault) hempty
    refine ⟨fun sid hsid => ?_, hqueues⟩
    rw [Yard.headFault, hsections, sectionOf_markAll, if_neg fun hin => hsid (CascadeClosed.mem_fresh.mp hin).1]

/-- Settles O25: the decoder's table by cases, and one event taking the due lines of a head. -/
theorem fourTransitionsDeliverOnePassage : Obligations.FourTransitionsDeliverOnePassage := by
  refine ⟨singleFaults, coincidentChanges, unfollowedHeads, singleChanges, headFaultDisturbs, fun line k s hdue hrole => ?_,
    four_transitions⟩
  have hconsumer : (Table.look s.lines line).role.consumer = .head k := by obtain h | h := hrole <;> rw [h] <;> rfl
  have hexec := exec_transition hdue
  rw [hconsumer] at hexec
  obtain ⟨r, hr⟩ : ∃ r, headChange s.lines (takeDue s.lines (.head k)) s.heads k s.clock = r := ⟨_, rfl⟩
  have htaken : s.takeTransitions (.head k) =
      ({ s with lines := takeDue s.lines (.head k), heads := Table.put s.heads k r.1 }).withYard (s.yard.headEvent s.env k r.2) := by
    rw [← hr]
    rfl
  rw [htaken] at hexec
  refine ⟨_, r.2, hexec, ?_, fun h => ?_, fun pass h => ?_, fun h => ?_⟩
  · change _ = (Table.look (Table.put s.heads k r.1) k, r.2)
    rw [Table.look_put_self]
    exact hr
  all_goals
    rw [h]
    exact settledFrom_withYard _ _

/-! ## Rollbacks (R53) -/

/-- A rollback at a head makes the section above it DISTURBED and moves one axle up into it. -/
theorem rollback_above {h : HeadIx} {x : Section} (habove : e.ladder.sectionAbove h = some sid) (hbelow : e.ladder.below h ≠ .area sid)
    (hx : y.sectionOf sid = some x) :
    (x.state ≠ .disturbed → BecameDisturbed y (y.rollback e h) sid x .rollback (min (x.count + 1) 255)) ∧
      (x.state = .disturbed → ∃ x', (y.rollback e h).sectionOf sid = some x' ∧ x'.state = .disturbed ∧ x'.cause = x.cause ∧
        x'.count = min (x.count + 1) 255) := by
  have hmem : sid ∈ e.ladder.adjoining h := by simp [Ladder.adjoining, habove]
  obtain ⟨d, hd⟩ : ∃ d, y.disturb e .rollback (e.ladder.adjoining h) = d := ⟨_, rfl⟩
  have hyard : y.rollback e h = d.raiseRaw sid ∨ ∃ other, other ≠ sid ∧ y.rollback e h = (d.raiseRaw sid).lowerRaw other := by
    rw [Yard.rollback, habove, hd]
    dsimp only
    split
    next other heq => exact .inr ⟨other, fun hsame => hbelow (by rw [heq, hsame]), rfl⟩
    · exact .inl rfl
    · exact .inl rfl
  have hfinal : (y.rollback e h).sectionOf sid = (d.raiseRaw sid).sectionOf sid ∧ (y.rollback e h).slots = (d.raiseRaw sid).slots := by
    obtain heq | ⟨other, hne, heq⟩ := hyard
    · rw [heq]
      exact ⟨rfl, rfl⟩
    · rw [heq, Yard.lowerRaw, Yard.sectionOf_modifySection, if_neg hne]
      exact ⟨rfl, by simp⟩
  obtain ⟨hsection, hslots⟩ := hfinal
  refine ⟨fun ht => becameDisturbed_congr ?_ hsection hslots, fun ht => ?_⟩
  · have hbecame := becameDisturbed_disturb (e := e) (cause := .rollback) hmem hx ht
    rw [hd] at hbecame
    exact becameDisturbed_recount hbecame fun n => min (n + 1) 255
  · obtain ⟨l, hl⟩ := stays_disturbed_disturb (e := e) (cause := .rollback) (sids := e.ladder.adjoining h) hx ht
    rw [hd] at hl
    rw [hsection, Yard.raiseRaw, Yard.sectionOf_modifySection, if_pos rfl, hl]
    exact ⟨_, rfl, ht, rfl, rfl⟩

/-- A rollback at a head makes the section below it DISTURBED and takes one axle out of it. -/
theorem rollback_below {h : HeadIx} {x : Section} (hbelow : e.ladder.below h = .area sid) (habove : e.ladder.sectionAbove h ≠ some sid)
    (hx : y.sectionOf sid = some x) :
    (x.state ≠ .disturbed → BecameDisturbed y (y.rollback e h) sid x .rollback (x.count - 1)) ∧
      (x.state = .disturbed → ∃ x', (y.rollback e h).sectionOf sid = some x' ∧ x'.state = .disturbed ∧ x'.cause = x.cause ∧
        x'.count = x.count - 1) := by
  have hmem : sid ∈ e.ladder.adjoining h := by simp [Ladder.adjoining, hbelow]
  obtain ⟨d, hd⟩ : ∃ d, y.disturb e .rollback (e.ladder.adjoining h) = d := ⟨_, rfl⟩
  obtain ⟨a, ha⟩ : ∃ a : Yard, y.rollback e h = a.lowerRaw sid ∧ a.sectionOf sid = d.sectionOf sid ∧ a.slots = d.slots := by
    rw [Yard.rollback, hbelow, hd]
    dsimp only
    refine ⟨_, rfl, ?_⟩
    split
    next other heq =>
      have hne : other ≠ sid := fun hsame => habove (by rw [heq, hsame])
      rw [Yard.raiseRaw, Yard.sectionOf_modifySection, if_neg hne]
      exact ⟨rfl, by simp⟩
    · exact ⟨rfl, rfl⟩
  obtain ⟨hyard, hsection, hslots⟩ := ha
  rw [hyard]
  refine ⟨fun ht => ?_, fun ht => ?_⟩
  · have hbecame := becameDisturbed_disturb (e := e) (cause := .rollback) hmem hx ht
    rw [hd] at hbecame
    exact becameDisturbed_recount (becameDisturbed_congr hbecame hsection hslots) fun n => n - 1
  · obtain ⟨l, hl⟩ := stays_disturbed_disturb (e := e) (cause := .rollback) (sids := e.ladder.adjoining h) hx ht
    rw [hd] at hl
    rw [Yard.lowerRaw, Yard.sectionOf_modifySection, if_pos rfl, hsection, hl]
    exact ⟨_, rfl, ht, rfl, rfl⟩

/-- An uphill passage rolls back a yard that has the sections and the cuts of the yard it met. -/
theorem deliver_uphill (e : Env) (y : Yard) (h : HeadIx) {pass : Passage} (hup : pass.direction = .uphill) :
    ∃ a : Yard, y.deliver e h pass = a.rollback e h ∧ (∀ sid, a.sectionOf sid = y.sectionOf sid) ∧ a.slots = y.slots := by
  unfold Yard.deliver
  rw [hup]
  obtain ⟨rfl, hplace⟩ | ⟨-, hplace⟩ | ⟨p, k, -, hplace⟩ := headPlace_cases h <;> rw [hplace]
  · exact ⟨_, rfl, fun sid => sectionOf_of_fields rfl rfl sid, rfl⟩
  · exact ⟨y, rfl, fun _ => rfl, rfl⟩
  · exact ⟨y, rfl, fun _ => rfl, rfl⟩

theorem becameDisturbed_of_source {a : Yard} {x : Section} {cause : DisturbCause} {n : Nat} (h : BecameDisturbed a z sid x cause n)
    (hslots : a.slots = y.slots) : BecameDisturbed y z sid x cause n :=
  ⟨h.1, fun o ho c hc hl => h.2 o ho c ((Yard.cutAt_congr hslots o.slot).trans hc) hl⟩

/-- Settles O29: the fault of the head and of its sections, and the rollback of an uphill passage. -/
theorem bothActiveExpiryFaultsHead : Obligations.BothActiveExpiryFaultsHead := by
  refine ⟨fun e y h pass sid x hup hx => ?_, fun h s d hd htimed hexp => ?_⟩
  · obtain ⟨a, ha, hsections, hslots⟩ := deliver_uphill e y h hup
    have hax := (hsections sid).trans hx
    refine ⟨_, ha, fun habove hbelow => ?_, fun hbelow habove => ?_⟩
    · obtain ⟨h1, h2⟩ := rollback_above habove hbelow hax
      exact ⟨fun ht => becameDisturbed_of_source (h1 ht) hslots, h2⟩
    · obtain ⟨h1, h2⟩ := rollback_below hbelow habove hax
      exact ⟨fun ht => becameDisturbed_of_source (h1 ht) hslots, h2⟩
  · have hexpired : (Table.look s.heads h).bothActiveExpired s.clock = true := by
      rw [Head.bothActiveExpired, hd]
      dsimp only
      rw [htimed, hexp]
      rfl
    have hexec : exec (.bothActiveTimerExpiry h) s = .next (({ s with
        heads := Table.put s.heads h ((Table.look s.heads h).faulted s.clock) }).withYard (s.yard.headFault s.env h)) := by
      change execBothActiveTimerExpiry h s = _
      rw [execBothActiveTimerExpiry, if_pos hexpired]
    have hlook := Table.look_put_self s.heads h ((Table.look s.heads h).faulted s.clock)
    refine ⟨_, hexec, congrArg Head.state hlook, congrArg Head.condition hlook, congrArg Head.timer hlook, congrArg Head.fault hlook,
      (congrArg Head.last hlook).trans rfl, fun k hk => ?_, fun sid hsid x hx => ?_⟩
    · change Table.look (Table.put s.heads h _) k = _
      rw [Table.look_put, if_neg (Ne.symm hk)]
    · obtain ⟨hfault, hkept⟩ := (headFaultDisturbs s.env s.yard _ h rfl).1 sid hsid x hx
      by_cases ht : x.state = .disturbed
      · obtain ⟨x', hx', hst, -, hcount⟩ := hkept ht
        exact ⟨x', hx', hst, hcount, fun hne => absurd ht hne⟩
      · exact ⟨_, (hfault ht).1, rfl, rfl, fun _ => ⟨rfl, rfl, rfl, rfl⟩⟩

end Sys2Proof.Proofs
end


section
/-! PROOFS. RESET SECTION (R37, R62, R63). -/

namespace Sys2Proof.Proofs

open Sys2Proof Sys2Proof.Machine Sys2Proof.Spec

variable {s : State} {e : Env} {y z : Yard} {sid : SectionId} {x : Section} {i : SlotIx} {c : Cut}

/-! ## Sections that a loss does not touch (R57) -/

theorem holders_nil (h : ∀ sid, y.lists sid i = false) : CascadeClosed.holders y i = [] := by
  rw [CascadeClosed.holders, List.filter_eq_nil_iff]
  exact fun sid _ => by rw [h sid]; exact Bool.false_ne_true

theorem lists_congr (h : z.sectionOf sid = y.sectionOf sid) (i : SlotIx) : z.lists sid i = y.lists sid i := by
  rw [Yard.lists, h]
  rfl

theorem lists_eq_false : y.lists sid i = false ↔ ∀ x, y.sectionOf sid = some x → ∀ o ∈ x.occupants, o.slot ≠ i := by
  unfold Yard.lists
  cases y.sectionOf sid <;> simp

/-- Leaving the queues changes queues, waiting entries, plans and what the planner makes of them. -/
theorem sections_departQueue (q : PointIx) (i : SlotIx) (y : Yard) :
    (∀ sid, (y.departQueue e q i).sectionOf sid = y.sectionOf sid) ∧ (y.departQueue e q i).control = y.control := by
  unfold Yard.departQueue
  dsimp only
  repeat' split
  · have hstand : ((y.putQueue q ((y.queueOf q).filter (fun x => !(x.slot == i)))).withdrawFor e q i |>.modifyPlan q (fun _ => Plan.idle)).standing =
        (y.putQueue q ((y.queueOf q).filter (fun x => !(x.slot == i)))).standing := by simp
    obtain ⟨hlead, hsections, -, -, -, -, -, hcontrol⟩ := Yard.standing_ext hstand
    exact ⟨sectionOf_of_fields hlead hsections, hcontrol⟩
  · exact ⟨sectionOf_of_fields rfl rfl, rfl⟩
  · exact ⟨sectionOf_of_fields rfl rfl, rfl⟩

theorem sections_evaluateNewHead (q : PointIx) (wasHead : Bool) (y : Yard) :
    (∀ sid, (y.evaluateNewHead e q wasHead).sectionOf sid = y.sectionOf sid) ∧ (y.evaluateNewHead e q wasHead).control = y.control := by
  have hstand : (y.evaluateNewHead e q wasHead).standing = y.standing := by
    unfold Yard.evaluateNewHead
    split <;> simp
  obtain ⟨hlead, hsections, -, -, -, -, -, hcontrol⟩ := Yard.standing_ext hstand
  exact ⟨sectionOf_of_fields hlead hsections, hcontrol⟩

theorem sections_leaveQueues (i : SlotIx) (y : Yard) :
    (∀ sid, (y.leaveQueues e i).sectionOf sid = y.sectionOf sid) ∧ (y.leaveQueues e i).control = y.control := by
  unfold Yard.leaveQueues
  split
  next q hq =>
    unfold Yard.leaveQueue
    split
    · obtain ⟨hsections, hcontrol⟩ := sections_departQueue (e := e) q i y
      obtain ⟨hsections', hcontrol'⟩ := sections_evaluateNewHead (e := e) q (y.queueHead q == some i) (y.departQueue e q i)
      exact ⟨fun sid => (hsections' sid).trans (hsections sid), hcontrol'.trans hcontrol⟩
    · exact ⟨fun _ => rfl, rfl⟩
  · exact ⟨fun _ => rfl, rfl⟩

theorem sections_dequeued (i : SlotIx) (y : Yard) :
    (∀ sid, (CascadeClosed.dequeued e i y).sectionOf sid = y.sectionOf sid) ∧ (CascadeClosed.dequeued e i y).control = y.control := by
  obtain ⟨hsections, hcontrol⟩ := sections_leaveQueues (e := e) i (y.modifyCut i (fun z => { z with state := .lost }))
  exact ⟨fun sid => (hsections sid).trans (sectionOf_of_fields (by simp) (by simp) sid), hcontrol.trans (by simp)⟩

theorem sections_absorbIfEntering (i : SlotIx) (y : Yard) :
    (∀ sid, (y.absorbIfEntering i).sectionOf sid = y.sectionOf sid) ∧ (y.absorbIfEntering i).control = y.control := by
  unfold Yard.absorbIfEntering
  repeat' split
  all_goals exact ⟨sectionOf_of_fields rfl rfl, rfl⟩

/-- The end of a loss, after the sections that listed the cut have been disturbed. -/
theorem sections_released (c : Cut) (i : SlotIx) (y : Yard) :
    (∀ sid, (((y.releaseLost c).raiseCut i .lost).absorbIfEntering i).sectionOf sid = y.sectionOf sid) ∧
      (((y.releaseLost c).raiseCut i .lost).absorbIfEntering i).control = y.control := by
  obtain ⟨hsections, hcontrol⟩ := sections_absorbIfEntering i ((y.releaseLost c).raiseCut i .lost)
  have hrelease : (y.releaseLost c).lead = y.lead ∧ (y.releaseLost c).sections = y.sections ∧ (y.releaseLost c).control = y.control := by
    unfold Yard.releaseLost
    split <;> exact ⟨rfl, rfl, rfl⟩
  obtain ⟨hlead, hsec, hcon⟩ := hrelease
  exact ⟨fun sid => (hsections sid).trans (sectionOf_of_fields hlead hsec sid), hcontrol.trans hcon⟩

/-- The loss of a cut that no section lists. -/
theorem loseAt_unlisted (n : Nat) (h : ∀ sid, y.lists sid i = false) (hc : y.cutAt i = some c) (hl : c.onLadder = true) :
    y.loseAt e (n + 1) i = (((CascadeClosed.dequeued e i y).releaseLost c).raiseCut i .lost).absorbIfEntering i := by
  have hnone : CascadeClosed.holders (CascadeClosed.dequeued e i y) i = [] :=
    holders_nil fun sid => (lists_congr ((sections_dequeued i y).1 sid) i).trans (h sid)
  rw [CascadeClosed.loseAt_succ n hc hl, hnone]
  rfl

theorem sections_loseAt_unlisted (n : Nat) (h : ∀ sid, y.lists sid i = false) :
    (∀ sid, (y.loseAt e (n + 1) i).sectionOf sid = y.sectionOf sid) ∧ (y.loseAt e (n + 1) i).control = y.control := by
  by_cases hon : ∃ c, y.cutAt i = some c ∧ c.onLadder = true
  · obtain ⟨c, hc, hl⟩ := hon
    rw [loseAt_unlisted n h hc hl]
    obtain ⟨hsections, hcontrol⟩ := sections_dequeued (e := e) i y
    obtain ⟨hsections', hcontrol'⟩ := sections_released c i (CascadeClosed.dequeued e i y)
    exact ⟨fun sid => (hsections' sid).trans (hsections sid), hcontrol'.trans hcontrol⟩
  · rw [CascadeClosed.loseAt_of_off (n + 1) fun c hc => Bool.eq_false_iff.mpr fun hl => hon ⟨c, hc, hl⟩]
    exact ⟨fun _ => rfl, rfl⟩

/-- Cuts that no section lists are lost one after another. -/
theorem sections_foldl_unlisted (n : Nat) (cuts : List SlotIx) (h : ∀ i ∈ cuts, ∀ sid, y.lists sid i = false) :
    (∀ sid, (cuts.foldl (fun z i => z.loseAt e (n + 1) i) y).sectionOf sid = y.sectionOf sid) ∧
      (cuts.foldl (fun z i => z.loseAt e (n + 1) i) y).control = y.control := by
  induction cuts generalizing y with
  | nil => exact ⟨fun _ => rfl, rfl⟩
  | cons i cuts ih =>
    obtain ⟨hsections, hcontrol⟩ := sections_loseAt_unlisted (e := e) n (h i List.mem_cons_self)
    obtain ⟨hsections', hcontrol'⟩ := ih (y := y.loseAt e (n + 1) i)
      fun j hj sid => (lists_congr (hsections sid) j).trans (h j (List.mem_cons_of_mem _ hj) sid)
    exact ⟨fun sid => (hsections' sid).trans (hsections sid), hcontrol'.trans hcontrol⟩

/-! ## A section with an empty list (R57) -/

theorem sectionOf_toldDisturbed (s : SectionId) (y : Yard) (sid : SectionId) :
    (((y.sectionTold e s).reportDisturbed).raiseDisturbed s).sectionOf sid = y.sectionOf sid := by
  have hraise : ∀ a : Yard, (a.raiseDisturbed s).sectionOf sid = a.sectionOf sid := fun a => by
    cases s <;> exact sectionOf_of_fields rfl rfl sid
  rw [hraise, sectionOf_reportDisturbed, sectionOf_sectionTold]

theorem sectionOf_foldAfterDisturbed {lose : SlotIx → Yard → Yard}
    (hlose : ∀ j (z : Yard), z.sectionOf sid = some x → (lose j z).sectionOf sid = some x) (cutsOf : List (SectionId × List SlotIx))
    (h : y.sectionOf sid = some x) : (cutsOf.foldl (fun z r => z.afterDisturbed lose e r.1 r.2) y).sectionOf sid = some x := by
  induction cutsOf generalizing y with
  | nil => exact h
  | cons r cutsOf ih =>
    refine ih ?_
    dsimp only
    rw [Yard.afterDisturbed, sectionOf_toldDisturbed]
    exact CascadeClosed.foldLoss (P := fun (_ : Unit) z => z.sectionOf sid = some x) (d := ()) (fun _ j z hz => hlose j z hz) r.2 h

/-- A loss does not touch a section with nothing in its list. -/
theorem sectionOf_loseAt_of_empty (n : Nat) (j : SlotIx) (hx : y.sectionOf sid = some x) (hempty : x.occupants = []) :
    (y.loseAt e n j).sectionOf sid = some x := by
  induction n generalizing j y with
  | zero => exact hx
  | succ n ih =>
    by_cases hon : ∃ c, y.cutAt j = some c ∧ c.onLadder = true
    · obtain ⟨c, hc, hl⟩ := hon
      have hdequeued := ((sections_dequeued (e := e) j y).1 sid).trans hx
      have hnot : sid ∉ CascadeClosed.holders (CascadeClosed.dequeued e j y) j := fun hin => by
        have hlists := (List.mem_filter.mp hin).2
        rw [lists_eq_false.mpr fun z hz o ho => ?_] at hlists
        · cases hlists
        · rw [hdequeued] at hz
          cases hz
          rw [hempty] at ho
          cases ho
      have hfresh : ∀ z : Yard, sid ∉ CascadeClosed.fresh z (CascadeClosed.holders (CascadeClosed.dequeued e j y) j) := fun z hin =>
        hnot (CascadeClosed.mem_fresh.mp hin).1
      rw [CascadeClosed.loseAt_succ n hc hl, (sections_released _ _ _).1, CascadeClosed.disturbWith_eq]
      refine sectionOf_foldAfterDisturbed (fun k z hz => ih k hz) _ ?_
      rw [sectionOf_markAll, if_neg (hfresh _), sectionOf_strikeAll, if_neg hnot, hdequeued]
    · rwa [CascadeClosed.loseAt_of_off (n + 1) fun c hc => Bool.eq_false_iff.mpr fun hl => hon ⟨c, hc, hl⟩]

theorem sectionOf_foldl_of_empty (n : Nat) (cuts : List SlotIx) (hx : y.sectionOf sid = some x) (hempty : x.occupants = []) :
    (cuts.foldl (fun z i => z.loseAt e n i) y).sectionOf sid = some x :=
  CascadeClosed.foldLoss (P := fun (_ : Unit) z => z.sectionOf sid = some x) (lose := fun j z => z.loseAt e n j) (d := ())
    (fun _ j _ hz => sectionOf_loseAt_of_empty n j hz hempty) cuts hx

/-! ## The request (R62, R63) -/

theorem blocks_iff {h : HeadIx} : s.headBlocks h = true ↔ Blocks s h := by simp [State.headBlocks, Blocks]

theorem mem_headsOf {h : HeadIx} : (s.ladder.headsOf sid).contains h = true ↔ h ∈ s.ladder.headsOf sid := List.contains_iff_mem

theorem blockingHead_of_first {h : HeadIx} (hmem : h ∈ s.ladder.headsOf sid) (hb : Blocks s h)
    (hfirst : ∀ k, k ∈ s.ladder.headsOf sid → Blocks s k → h ≤ k) : s.blockingHead sid = some h := by
  refine find?_finRange_iff.mpr ⟨?_, fun k hk => ?_⟩
  · rw [mem_headsOf.mpr hmem, blocks_iff.mpr hb]
    rfl
  · rw [Bool.and_eq_false_iff]
    by_contra hno
    push Not at hno
    obtain ⟨h1, h2⟩ := hno
    have hle := hfirst k (mem_headsOf.mp (by simpa using h1)) (blocks_iff.mp (by simpa using h2))
    exact absurd hk (not_lt.mpr hle)

theorem blockingHead_none (h : ∀ k, k ∈ s.ladder.headsOf sid → ¬ Blocks s k) : s.blockingHead sid = none := by
  rw [State.blockingHead, List.find?_eq_none]
  intro k _ hk
  rw [Bool.and_eq_true, mem_headsOf, blocks_iff] at hk
  exact h k hk.1 hk.2

theorem restores_iff {h : HeadIx} : Restores s sid h ↔ (Table.look s.heads h).condition = .faulty ∧ s.returnsToOk sid h = true := by
  have hroot : s.ladder.isRootSection sid = true ↔ ∃ r, s.ladder.root = some r ∧ sid = .point r := by
    cases sid with
    | lead => simp [Ladder.isRootSection]
    | point p =>
      rw [Ladder.isRootSection, beq_iff_eq]
      exact ⟨fun h => ⟨p, h, rfl⟩, fun ⟨r, h, hr⟩ => by cases hr; exact h⟩
  have hblocks : s.headBlocks h = false ↔ ¬ Blocks s h := by rw [← blocks_iff, Bool.not_eq_true]
  unfold Restores State.returnsToOk
  rw [Bool.or_eq_true, Bool.and_eq_true, Bool.and_eq_true, mem_headsOf, beq_iff_eq, hroot, Bool.not_eq_true', hblocks]
  refine and_congr_right fun _ => or_congr_right ?_
  exact ⟨fun ⟨h0, hb, hr⟩ => ⟨⟨h0, hr⟩, hb⟩, fun ⟨⟨h0, hr⟩, hb⟩ => ⟨h0, hb, hr⟩⟩

theorem restoredHeads_spec (s : State) (sid : SectionId) (h : HeadIx) :
    (Restores s sid h → Table.look (s.restoredHeads sid) h =
        { Table.look s.heads h with state := .idle, condition := .ok, fault := none }) ∧
      (¬ Restores s sid h → Table.look (s.restoredHeads sid) h = Table.look s.heads h) := by
  rw [restores_iff, State.restoredHeads, Table.look_tab, Head.restored]
  refine ⟨fun ⟨hf, hr⟩ => by rw [if_pos hr, if_pos hf], fun hno => ?_⟩
  by_cases hr : s.returnsToOk sid h = true
  · rw [if_pos hr, if_neg fun hf => hno ⟨hf, hr⟩]
  · rw [if_neg hr]

/-- The section cleared and its listed cuts lost, before the planner is told. -/
def emptiedBy (e : Env) (sid : SectionId) (x : Section) (y : Yard) : Yard :=
  (x.occupants.map (fun o => o.slot)).foldl (fun z i => z.loseAt e (41 + 1) i) (y.putSection sid (some x.cleared))

/-- The counts that RESET SECTION lets fall (R63). -/
def lowered (x : Section) (m : ModeControl) : ModeControl :=
  { m with disturbed := m.disturbed - (if x.state = .disturbed then 1 else 0), stall := m.stall - (if x.stallFlag = true then 1 else 0) }

theorem resetSection_eq (e : Env) (sid : SectionId) (x : Section) (y : Yard) :
    y.resetSection e sid x = ((emptiedBy e sid x y).toldClear e sid).modifyControl (lowered x) := by
  obtain ⟨b, hb⟩ : ∃ b, (emptiedBy e sid x y).toldClear e sid = b := ⟨_, rfl⟩
  have hreset : y.resetSection e sid x =
      if x.stallFlag = true then (if x.state = .disturbed then b.reportUndisturbed else b).reportUnstalled
      else (if x.state = .disturbed then b.reportUndisturbed else b) := by rw [← hb]; rfl
  rw [hreset, hb]
  unfold lowered Yard.reportUnstalled Yard.reportUndisturbed Yard.modifyControl
  by_cases hd : x.state = .disturbed <;> by_cases hf : x.stallFlag = true <;> simp [hd, hf]

theorem sectionOf_emptiedBy (e : Env) (sid : SectionId) (x : Section) (y : Yard) : (emptiedBy e sid x y).sectionOf sid = some x.cleared :=
  sectionOf_foldl_of_empty (41 + 1) _ (by rw [Yard.sectionOf_putSection, if_pos rfl]) rfl

theorem standing_toldClear (e : Env) (sid : SectionId) (y : Yard) : (y.toldClear e sid).standing = y.standing := by
  cases sid with
  | lead => rfl
  | point p => exact Yard.standing_evaluate e p y

/-- A listed cut is lost with its reason raised. -/
theorem lost_emptiedBy {o : Occupant} (ho : o ∈ x.occupants) (hc : y.cutAt o.slot = some c) (hl : c.onLadder = true) :
    HeldAs c .lost ((emptiedBy e sid x y).cutAt o.slot) ∧ Raised (emptiedBy e sid x y) (.cut o.slot) 2 := by
  have hcut : (y.putSection sid (some x.cleared)).cutAt o.slot = some c := (Yard.cutAt_congr (by simp) o.slot).trans hc
  have hlost : HeldAs c .lost ((emptiedBy e sid x y).cutAt o.slot) :=
    lost_foldl (n := 41) (List.mem_map_of_mem ho) (lives_self hcut) hl
  refine ⟨hlost, lostAloud_of_lost ?_ hl hlost⟩
  exact CascadeClosed.foldLoss (P := fun (_ : Unit) z => LostAloud o.slot c z) (lose := fun j z => z.loseAt e (41 + 1) j) (d := ())
    (fun _ j _ hz => lostAloud_loseAt (41 + 1) j hz hl) _ (.inl (heldAs_self hcut))

/-- Where no other section lists a cut that the section lists, no other section and no count changes. -/
theorem emptiedBy_alone (h : ∀ o ∈ x.occupants, ∀ other z, other ≠ sid → y.sectionOf other = some z → ∀ a ∈ z.occupants, a.slot ≠ o.slot) :
    (∀ other, other ≠ sid → (emptiedBy e sid x y).sectionOf other = y.sectionOf other) ∧ (emptiedBy e sid x y).control = y.control := by
  have hunlisted : ∀ i ∈ x.occupants.map (fun o => o.slot), ∀ s, (y.putSection sid (some x.cleared)).lists s i = false := by
    intro i hi s
    obtain ⟨o, ho, rfl⟩ := List.mem_map.mp hi
    refine lists_eq_false.mpr fun z hz a ha => ?_
    rw [Yard.sectionOf_putSection] at hz
    split at hz
    · cases hz
      cases ha
    next hne => exact h o ho s z (Ne.symm hne) hz a ha
  obtain ⟨hsections, hcontrol⟩ := sections_foldl_unlisted (e := e) 41 _ hunlisted
  refine ⟨fun other hne => ?_, hcontrol.trans (by simp)⟩
  rw [emptiedBy, hsections, Yard.sectionOf_putSection, if_neg (Ne.symm hne)]

/-- What every RESET SECTION that passes its checks makes of a section that is not CLEAR. -/
theorem resetSection_cleared (e : Env) (sid : SectionId) (x : Section) (y : Yard) :
    (y.resetSection e sid x).sectionOf sid = some x.cleared ∧
      (∀ o c, o ∈ x.occupants → y.cutAt o.slot = some c → (c.state = .entering ∨ c.state = .rolling) →
        ∃ c', (y.resetSection e sid x).cutAt o.slot = some c' ∧ c'.state = .lost ∧ c'.number = c.number ∧
          Raised (y.resetSection e sid x) (.cut o.slot) 2) := by
  have htold : ∀ a : Yard, (a.modifyControl (lowered x)).slots = a.slots := fun _ => rfl
  rw [resetSection_eq]
  refine ⟨?_, fun o c ho hc hst => ?_⟩
  · rw [sectionOf_congr_modifyControl, sectionOf_of_standing (standing_toldClear e sid _), sectionOf_emptiedBy]
  · have hl : c.onLadder = true := by obtain h | h := hst <;> simp [Cut.onLadder, h]
    obtain ⟨hlost, hraised⟩ := lost_emptiedBy (e := e) (sid := sid) ho hc hl
    have hkept : HeldAs c .lost (((emptiedBy e sid x y).toldClear e sid).cutAt o.slot) ∧
        Raised ((emptiedBy e sid x y).toldClear e sid) (.cut o.slot) 2 := by
      cases sid with
      | lead => exact ⟨hlost, hraised⟩
      | point p => exact ⟨((lossClosed_lostAs e o.slot c).plan ()).evaluate p hlost, (planClosed_raised e _ _).evaluate p hraised⟩
    obtain ⟨⟨c', hc', hsame, hstate⟩, hkept⟩ := hkept
    exact ⟨c', hc', hstate, hsame.number, Raised.of_notices hkept rfl⟩

theorem resetSection_alone (h : ∀ o ∈ x.occupants, ∀ other z, other ≠ sid → y.sectionOf other = some z → ∀ a ∈ z.occupants, a.slot ≠ o.slot) :
    (∀ other, other ≠ sid → (y.resetSection e sid x).sectionOf other = y.sectionOf other) ∧
      (y.resetSection e sid x).control = lowered x y.control := by
  obtain ⟨hsections, hcontrol⟩ := emptiedBy_alone (e := e) h
  rw [resetSection_eq]
  refine ⟨fun other hne => ?_, ?_⟩
  · rw [sectionOf_congr_modifyControl, sectionOf_of_standing (standing_toldClear e sid _), hsections other hne]
  · exact congrArg (lowered x) ((Yard.standing_ext (standing_toldClear e sid _)).2.2.2.2.2.2.2.trans hcontrol)

theorem resetSection_queues (y : Yard) (hempty : x.occupants = []) : (y.resetSection e sid x).queues = y.queues := by
  have hnone : emptiedBy e sid x y = y.putSection sid (some x.cleared) := by rw [emptiedBy, hempty]; rfl
  rw [resetSection_eq, hnone, Yard.modifyControl_queues, queues_of_standing (standing_toldClear e sid _), Yard.putSection_queues]

/-- The yard a section's loss leaves is the planner's, but for the mode control record. -/
theorem settledFrom_told {z w : Yard} {f : ModeControl → ModeControl} (hz : z = w.modifyControl f) (heads : Table 82 Head) :
    SettledFrom { s with heads := heads } { w with control := z.control } (({ s with heads := heads }).withYard z) := by
  subst hz
  exact ⟨⟨_, _, rfl⟩, permitLaw_withYard _ _, attnLaw_withYard _ _⟩

theorem selector?_of_point {sel : Byte} {p : PointIx} (h : sel.toNat = p.val) : sel = selectorCode (.point p) := by
  rw [selectorCode]
  exact BitVec.eq_of_toNat_eq (by rw [h, BitVec.toNat_ofNat]; omega)

theorem resetSection_refusals (s : State) (sel : Byte) :
    (s.mode = .setup → Refuses (.resetSection sel) s .badMode []) ∧
      (s.mode ≠ .setup →
        (39 < sel.toNat → sel ≠ 255 → Refuses (.resetSection sel) s .badValue [0]) ∧
        ∀ p : PointIx, sel.toNat = p.val → s.yard.sectionOf (.point p) = none → Refuses (.resetSection sel) s .noRecord [sel]) := by
  refine ⟨fun hm => ?_, fun hm => ⟨fun h hne => ?_, fun p hp hnone => ?_⟩⟩
  all_goals refine refuses_of_serve (c := .resetSection sel) rfl ?_
  · rw [resetSectionBody, onSection, if_pos hm]
    rfl
  · rw [resetSectionBody, onSection, if_neg hm, selector?_beyond h hne]
    rfl
  · rw [resetSectionBody, onSection, if_neg hm, selector?_of_point hp, selector?_code]
    dsimp only
    rw [hnone]
    rfl

theorem resetSectionOf_pass (hm : s.mode ≠ .setup) (hx : s.yard.sectionOf sid = some x) :
    resetSectionBody (selectorCode sid) s = resetSectionOf s sid x := onSection_pass hm (selector?_code sid) hx

/-- Settles O58: the checks in their order, the heads returned, and the section emptied of its cuts. -/
theorem resetSectionClearsSection : Obligations.ResetSectionClearsSection := by
  refine ⟨resetSection_refusals, fun s sid x hm hx => ⟨fun p hp hmoving => ?_, fun hrests => ?_⟩⟩
  · refine refuses_of_serve (c := .resetSection (selectorCode sid)) rfl ((resetSectionOf_pass hm hx).trans ?_)
    subst hp
    rw [resetSectionOf, show s.yard.sectionMoving (.point p) = true from hmoving]
    rfl
  have hstill : s.yard.sectionMoving sid = false := by
    cases sid with
    | lead => rfl
    | point p => exact hrests p rfl
  have hbody : resetSectionBody (selectorCode sid) s = match s.blockingHead sid with
      | some h => (refuseAt .sensorActive h.val, s)
      | none => (done, ({ s with heads := s.restoredHeads sid }).withYard (s.yard.afterReset s.env sid x)) := by
    rw [resetSectionOf_pass hm hx, resetSectionOf, hstill]
    rfl
  refine ⟨fun h hmem hb hfirst => ?_, fun hfree => ?_⟩
  · refine refuses_of_serve (c := .resetSection (selectorCode sid)) rfl (hbody.trans ?_)
    rw [blockingHead_of_first hmem hb hfirst]
    rfl
  rw [blockingHead_none hfree] at hbody
  have hanswer := answers_of_serve (c := .resetSection (selectorCode sid)) rfl hbody
  refine ⟨_, hanswer, permitLaw_withYard _ _, attnLaw_withYard _ _, fun h => (restoredHeads_spec s sid h).1,
    fun h => (restoredHeads_spec s sid h).2, rfl, rfl, rfl, fun hclear => ?_, fun hnot => ?_⟩
  · rw [Yard.afterReset, if_pos hclear]
    exact settledFrom_withYard _ _
  · obtain ⟨hsection, hlost⟩ := resetSection_cleared s.env sid x s.yard
    have hshape := resetSection_eq s.env sid x s.yard
    rw [Yard.afterReset, if_neg hnot]
    refine ⟨hsection, fun o c => hlost o c, fun h => ?_, fun hempty => resetSection_queues (e := s.env) (sid := sid) s.yard hempty,
      fun p hp => ?_⟩
    · obtain ⟨hothers, hcontrol⟩ := resetSection_alone (e := s.env) h
      exact ⟨congrArg ModeControl.disturbed hcontrol, congrArg ModeControl.stall hcontrol, ((congrArg ModeControl.lost hcontrol).trans rfl),
        ((congrArg ModeControl.mode hcontrol).trans rfl), hothers⟩
    · subst hp
      refine ⟨emptiedBy s.env (.point p) x s.yard, ?_, (sectionOf_emptiedBy _ _ _ _).trans hsection.symm, ?_, fun hempty => ?_⟩
      · exact settledFrom_told hshape _
      · refine Eq.trans ?_ (congrArg (fun z : Yard => z.queueOf p) hshape).symm
        exact (queueOf_congr ((Yard.modifyControl_queues _ _).trans (queues_of_standing (standing_toldClear s.env (.point p) _))) p).symm
      · rw [emptiedBy, hempty]
        exact congrArg (fun z => s.yard.putSection (.point p) z) hsection.symm

end Sys2Proof.Proofs
end


section
/-! PROOFS. The loss of a cut (R57). -/

namespace Sys2Proof.Proofs

open Sys2Proof Sys2Proof.Machine Sys2Proof.Spec

variable {s : State} {e : Env} {y z : Yard} {sid : SectionId} {x : Section} {i j : SlotIx} {c : Cut} {q : PointIx}

/-! ## Fills, queues and the crest unit through a loss -/

theorem trackOf_congr (h : z.tracks = y.tracks) (t : TrackIx) : z.trackOf t = y.trackOf t := by rw [Yard.trackOf, h]; rfl

theorem fill_congr {fill : TrackIx → Nat} (h : z.tracks = y.tracks) (hy : ∀ t, (y.trackOf t).fill = fill t) (t : TrackIx) :
    (z.trackOf t).fill = fill t := by
  rw [trackOf_congr h]
  exact hy t

theorem trafficClosed_fill (fill : TrackIx → Nat) : TrafficClosed (fun y => ∀ t, (y.trackOf t).fill = fill t) where
  congr h := fill_congr h.tracks
  started i f _ := fill_congr (by simp)
  reserve t n hy k := by
    rw [Yard.trackOf_reserve]
    split <;> exact hy k
  release t n hy k := by
    rw [Yard.trackOf_release]
    split <;> exact hy k

/-- A loss moves no axle into a track. -/
theorem lossClosed_fill (e : Env) (fill : TrackIx → Nat) : LossClosed e noDebts (fun _ y => ∀ t, (y.trackOf t).fill = fill t) where
  toCascadeClosed := (trafficClosed_fill fill).cascade e (fun _ _ _ => fill_congr rfl)
    (fun c sid _ => fill_congr (by simp [Yard.markDisturbed])) (fun sid i _ => fill_congr (by simp))
  lost _ _ _ _ _ _ := fill_congr (by simp)
  absorbed _ _ _ _ _ := fill_congr rfl

/-- A loss adds nothing to a queue. -/
theorem lossClosed_unqueued (e : Env) (i : SlotIx) :
    LossClosed e noDebts (fun (_ : Unit) y => ∀ q, ∀ a ∈ y.queueOf q, a.slot ≠ i) := by
  have hqueues : ∀ {y z : Yard}, z.queues = y.queues → (∀ q, ∀ a ∈ y.queueOf q, a.slot ≠ i) → ∀ q, ∀ a ∈ z.queueOf q, a.slot ≠ i :=
    fun ht hy q a ha => hy q a (by rwa [queueOf_congr ht] at ha)
  refine { toCascadeClosed := ?_, lost := fun _ y j b _ _ => hqueues (by simp), absorbed := fun _ _ _ _ _ => hqueues rfl }
  refine TrafficClosed.cascade ⟨fun h => hqueues h.queues, fun i f _ => hqueues (by simp), fun t n => hqueues (by simp),
    fun t n => hqueues (by simp)⟩ e (fun q l hl hy r a ha => ?_)
      (fun c sid _ => hqueues (by simp [Yard.markDisturbed])) (fun sid i _ => hqueues (by simp))
  rw [Yard.queueOf_putQueue] at ha
  split at ha
  · exact hy q a (hl.subset ha)
  · exact hy r a ha

/-- The cascade changes neither the crest unit nor the pending list. -/
theorem cascadeClosed_of_crest (e : Env) (Q : Crest → List SlotIx → Prop) :
    CascadeClosed e noDebts (fun (_ : Unit) y => Q y.crest y.pendingList) := by
  have hkept : ∀ {y z : Yard}, z.crest = y.crest → z.pendingList = y.pendingList → Q y.crest y.pendingList → Q z.crest z.pendingList :=
    fun hc hp hy => by rwa [hc, hp]
  exact TrafficClosed.cascade ⟨fun h => hkept h.crest h.pendingList, fun i f _ => hkept (by simp) (by simp),
    fun t n => hkept (by simp) (by simp), fun t n => hkept (by simp) (by simp)⟩ e (fun q l _ => hkept rfl rfl)
      (fun c sid _ => hkept (by simp [Yard.markDisturbed]) (by simp [Yard.markDisturbed])) (fun sid i _ => hkept (by simp) (by simp))

theorem lossClosed_of_crest (e : Env) {Q : Crest → List SlotIx → Prop}
    (habsorbed : ∀ k l j x, k.state = .entering j x → Q k l → Q { k with state := .absorbing (some j) x } l) :
    LossClosed e noDebts (fun (_ : Unit) y => Q y.crest y.pendingList) where
  toCascadeClosed := cascadeClosed_of_crest e Q
  lost _ y i c _ _ hy := by
    have hcrest : (y.modifyCut i (fun z => { z with state := .lost })).crest = y.crest := by simp
    have hlist : (y.modifyCut i (fun z => { z with state := .lost })).pendingList = y.pendingList := by simp
    rwa [hcrest, hlist]
  absorbed _ y j x := habsorbed y.crest y.pendingList j x

/-- The crest unit goes from the entering cut to its absorption. -/
theorem lossClosed_entering (e : Env) (i : SlotIx) (x : Entry) (k : Crest) : LossClosed e noDebts (fun (_ : Unit) y =>
    y.crest = { k with state := .entering i x } ∨ y.crest = { k with state := .absorbing (some i) x }) := by
  refine lossClosed_of_crest e (Q := fun z _ => z = { k with state := .entering i x } ∨ z = { k with state := .absorbing (some i) x })
    fun z l j x' hj hz => .inr ?_
  obtain rfl | rfl := hz <;> cases hj
  rfl

/-! ## Leaving the queues (R42, R57 step 2) -/

theorem inQueue_iff : y.inQueue q i = true ↔ ∃ a ∈ y.queueOf q, a.slot = i := by simp [Yard.inQueue]

theorem queueOf_departQueue (q : PointIx) (i : SlotIx) (y : Yard) (r : PointIx) :
    (y.departQueue e q i).queueOf r = if q = r then (y.queueOf q).filter (fun a => !(a.slot == i)) else y.queueOf r := by
  have hqueues : (y.departQueue e q i).queues = (y.putQueue q ((y.queueOf q).filter (fun a => !(a.slot == i)))).queues := by
    unfold Yard.departQueue
    dsimp only
    repeat' split
    · exact queues_of_standing (by simp)
    all_goals rfl
  rw [queueOf_congr hqueues, Yard.queueOf_putQueue]

theorem queues_evaluateNewHead (q : PointIx) (wasHead : Bool) (y : Yard) : (y.evaluateNewHead e q wasHead).queues = y.queues := by
  refine queues_of_standing ?_
  unfold Yard.evaluateNewHead
  split <;> simp

theorem leaveQueue_of_present (h : ∃ a ∈ y.queueOf q, a.slot = i) :
    y.leaveQueue e q i = (y.departQueue e q i).evaluateNewHead e q (y.queueHead q == some i) := if_pos (inQueue_iff.mpr h)

theorem leaveQueues_of_alone (h : ∃ a ∈ y.queueOf q, a.slot = i) (halone : ∀ r, (∃ a ∈ y.queueOf r, a.slot = i) → r = q) :
    y.leaveQueues e i = y.leaveQueue e q i := by
  have hfind : (List.finRange 40).find? (fun q => y.inQueue q i) = some q := by
    refine find?_finRange_iff.mpr ⟨inQueue_iff.mpr h, fun r hr => ?_⟩
    by_contra hr'
    exact absurd (halone r (inQueue_iff.mp (by simpa using hr'))) (ne_of_lt hr)
  rw [Yard.leaveQueues, hfind]

/-- A cut that stood in one queue at most stands in none. -/
theorem unqueued_leaveQueues
    (h : ∀ q r, (∃ a ∈ y.queueOf q, a.slot = i) → (∃ a ∈ y.queueOf r, a.slot = i) → q = r) :
    ∀ q, ∀ a ∈ (y.leaveQueues e i).queueOf q, a.slot ≠ i := by
  intro r a ha
  by_cases hin : ∃ q, ∃ a ∈ y.queueOf q, a.slot = i
  · obtain ⟨q, hq⟩ := hin
    rw [leaveQueues_of_alone hq (fun r hr => h r q hr hq), leaveQueue_of_present hq, queueOf_congr (queues_evaluateNewHead _ _ _), queueOf_departQueue] at ha
    split at ha
    · simpa using (List.mem_filter.mp ha).2
    next hne => exact fun heq => hne (h q r hq ⟨a, ha, heq⟩)
  · have hnone : (List.finRange 40).find? (fun q => y.inQueue q i) = none :=
      List.find?_eq_none.mpr fun q _ hq => hin ⟨q, inQueue_iff.mp hq⟩
    rw [Yard.leaveQueues, hnone] at ha
    exact fun heq => hin ⟨r, a, ha, heq⟩

theorem queueOf_departQueue_of_head {a h : QueueEntry} {rest : List QueueEntry} (hq : y.queueOf q = a :: h :: rest) (ha : a.slot = i)
    (hrest : ∀ b ∈ h :: rest, b.slot ≠ i) : (y.departQueue e q i).queueOf q = h :: rest := by
  rw [queueOf_departQueue, if_pos rfl, hq, List.filter_cons_of_neg (by simp [ha]), List.filter_eq_self]
  exact fun b hb => by simpa using hrest b hb

theorem hasPlan_departQueue (hplan : (y.planOf q).isSome = true) : ((y.departQueue e q i).planOf q).isSome = true := by
  have hput : ((y.putQueue q ((y.queueOf q).filter (fun x => !(x.slot == i)))).planOf q).isSome = true := hplan
  have hclosed := planClosed_hasPlan e q
  unfold Yard.departQueue
  dsimp only
  repeat' split
  · exact hclosed.plan _ _ _ (hclosed.withdrawFor q i hput)
  all_goals exact hput

/-- The cut behind the head of a queue comes to the planner as the head leaves. -/
theorem leaveQueue_of_head {a h : QueueEntry} {rest : List QueueEntry} (hq : y.queueOf q = a :: h :: rest) (ha : a.slot = i)
    (hrest : ∀ b ∈ h :: rest, b.slot ≠ i) :
    (y.leaveQueue e q i).queueOf q = h :: rest ∧ ((y.planOf q).isSome = true → Heads q h.slot (y.leaveQueue e q i)) := by
  have hleft := queueOf_departQueue_of_head (e := e) hq ha hrest
  have hhead : (y.queueHead q == some i) = true := by rw [queueHead_of_cons hq, ha]; exact beq_self_eq_true _
  have hnew : y.leaveQueue e q i = (y.departQueue e q i).evaluate e q := by
    rw [leaveQueue_of_present ⟨a, by simp [hq], ha⟩, Yard.evaluateNewHead, hleft, hhead]
    rfl
  rw [hnew]
  exact ⟨(queueOf_congr (queues_of_standing (Yard.standing_evaluate e q _)) q).trans hleft,
    fun hsome => heads_evaluate hleft (hasPlan_departQueue hsome)⟩

/-! ## The loss (R57) -/

/-- The end of a loss changes tracks, notices and the crest unit alone. -/
theorem released_fields (c : Cut) (i : SlotIx) (y : Yard) :
    (((y.releaseLost c).raiseCut i .lost).absorbIfEntering i).queues = y.queues ∧
      (((y.releaseLost c).raiseCut i .lost).absorbIfEntering i).plans = y.plans ∧
      (((y.releaseLost c).raiseCut i .lost).absorbIfEntering i).slots = y.slots := by
  unfold Yard.absorbIfEntering Yard.releaseLost
  repeat' split
  all_goals exact ⟨rfl, rfl, rfl⟩

/-- The sections that list the cut, DISTURBED with the cut struck from their lists (R57 steps 3 and 4). -/
def struck (e : Env) (i : SlotIx) (y : Yard) : Yard :=
  strikeAll i (CascadeClosed.holders (CascadeClosed.dequeued e i y) i) (CascadeClosed.dequeued e i y)

theorem loseCut_eq (hc : y.cutAt i = some c) (hl : c.onLadder = true) :
    y.loseCut e i = ((((struck e i y).disturbWith (loseTo e (40 + 1)) e .lostCut
      (CascadeClosed.holders (CascadeClosed.dequeued e i y) i)).releaseLost c).raiseCut i .lost).absorbIfEntering i :=
  CascadeClosed.loseAt_succ 41 hc hl

theorem mem_holders : sid ∈ CascadeClosed.holders y i ↔ y.lists sid i = true := by
  rw [CascadeClosed.holders, List.mem_filter]
  exact and_iff_right (mem_allSections sid)

/-- What the striking of a lost cut keeps. -/
theorem disturb_struck {P : Unit → Yard → Prop} (h : LossClosed e noDebts P) (hy : P () (CascadeClosed.dequeued e i y)) :
    P () ((struck e i y).disturbWith (loseTo e (40 + 1)) e .lostCut (CascadeClosed.holders (CascadeClosed.dequeued e i y) i)) :=
  h.disturbStruck (d := ()) (fun d j _ hz => h.loseAt (d := d) (40 + 1) j hz) .lostCut i (fun _ hsid => mem_holders.mp hsid) hy

theorem crest_released {x : Entry} {k : Crest} (c : Cut)
    (h : y.crest = { k with state := .entering i x } ∨ y.crest = { k with state := .absorbing (some i) x }) :
    (((y.releaseLost c).raiseCut i .lost).absorbIfEntering i).crest = { k with state := .absorbing (some i) x } := by
  have hcrest : ((y.releaseLost c).raiseCut i .lost).crest = y.crest := by
    unfold Yard.releaseLost
    split <;> rfl
  rw [Yard.absorbIfEntering, hcrest]
  obtain h | h := h <;> rw [h] <;> dsimp only
  · exact congrArg Yard.crest (if_pos rfl)
  · exact hcrest.trans h

/-- The loss of the entering cut begins its absorption (R98). -/
theorem absorbing_loseAt {x : Entry} {k : Crest} (n : Nat) (hc : y.cutAt i = some c) (hl : c.onLadder = true)
    (h : y.crest = { k with state := .entering i x } ∨ y.crest = { k with state := .absorbing (some i) x }) :
    (y.loseAt e (n + 1) i).crest = { k with state := .absorbing (some i) x } := by
  have hclosed := lossClosed_entering e i x k
  rw [CascadeClosed.loseAt_succ n hc hl]
  refine crest_released c (hclosed.disturbStruck (d := ()) (fun d j z hz => hclosed.loseAt (d := d) n j hz) .lostCut i
    (fun sid hsid => mem_holders.mp hsid) (hclosed.leaveQueues (d := ()) i ?_))
  rwa [Yard.modifyCut_crest]

theorem sectionOf_struck (sid : SectionId) : (struck e i y).sectionOf sid =
    (y.sectionOf sid).map (fun x => { x with occupants := x.occupants.filter (fun o => !(o.slot == i)) }) := by
  have hdequeued := (sections_dequeued (e := e) i y).1 sid
  rw [struck, sectionOf_strikeAll, hdequeued]
  split
  · rfl
  next hnot =>
    have hlists : y.lists sid i = false := by
      rw [← lists_congr hdequeued i]
      exact Bool.eq_false_iff.mpr fun h => hnot (mem_holders.mpr h)
    cases hx : y.sectionOf sid with
    | none => rfl
    | some x =>
      have hself : x.occupants.filter (fun o => !(o.slot == i)) = x.occupants :=
        List.filter_eq_self.mpr fun o ho => by simpa using lists_eq_false.mp hlists x hx o ho
      rw [Option.map_some, hself]

/-- No section lists a lost cut. -/
theorem unlisted_loseCut (hc : y.cutAt i = some c) (hl : c.onLadder = true) (hx : (y.loseCut e i).sectionOf sid = some x) :
    ∀ o ∈ x.occupants, o.slot ≠ i := by
  have hclosed := lossClosed_of_section e sid (Q := fun o => ∀ x, o = some x → ∀ o ∈ x.occupants, o.slot ≠ i)
    (fun _ _ _ _ => by rintro _ ⟨⟩ _ ⟨⟩) (fun a _ hQ => by
      rintro _ ⟨⟩ o ho
      exact hQ a rfl o (List.mem_of_mem_filter ho))
  rw [loseCut_eq hc hl, (sections_released _ _ _).1] at hx
  refine disturbWith_keeps (d := ()) hclosed ?_ x hx
  rw [sectionOf_struck]
  rintro x' hx' o ho
  obtain ⟨x'', -, rfl⟩ := Option.map_eq_some_iff.mp hx'
  simpa using (List.mem_filter.mp ho).2

/-- A section that listed the cut becomes DISTURBED, with the other cuts that it listed LOST. -/
theorem becameDisturbed_loseCut (hc : y.cutAt i = some c) (hl : c.onLadder = true) (hx : y.sectionOf sid = some x)
    (ht : x.state ≠ .disturbed) (hin : ∃ o ∈ x.occupants, o.slot = i) : BecameDisturbed y (y.loseCut e i) sid x .lostCut x.count := by
  have hheld : sid ∈ CascadeClosed.holders (CascadeClosed.dequeued e i y) i := by
    rw [mem_holders, lists_congr ((sections_dequeued i y).1 sid), Yard.lists, hx]
    simpa using hin
  have hstruck := (sectionOf_struck (e := e) (i := i) sid).trans (congrArg _ hx)
  refine ⟨?_, fun o ho b hb hbl => ?_⟩
  · rw [loseCut_eq hc hl, (sections_released _ _ _).1, sectionOf_disturbWith hheld hstruck ht]
    rfl
  · by_cases hoi : o.slot = i
    · obtain ⟨c', hc', -, hst⟩ := lost_loseCut (e := e) (lives_self hb) hbl (i := o.slot)
      rw [hoi] at hc' ⊢
      exact ⟨c', hc', hst⟩
    · have hlives : Lives b ((struck e i y).cutAt o.slot) := by
        have hclosed := lossClosed_lives e o.slot b
        rw [struck, Yard.cutAt_congr (congrArg Aside.slots (aside_strikeAll _ _ _))]
        refine hclosed.leaveQueues (d := ()) i ?_
        rw [Yard.cutAt_modifyCut, if_neg (Ne.symm hoi)]
        exact lives_self hb
      obtain ⟨c', hc', -, hst⟩ := lost_disturbWith (e := e) (n := 40) (cause := .lostCut) hheld hstruck ht
        (List.mem_filter.mpr ⟨ho, by simpa using hoi⟩) hlives hbl
      rw [loseCut_eq hc hl, Yard.cutAt_congr (released_fields c i _).2.2]
      exact ⟨c', hc', hst⟩

/-- Settles O31: each consequence of the loss, kept through the cascade or read off its end. -/
theorem lostCutIsMarkedAndFillKept : Obligations.LostCutIsMarkedAndFillKept := by
  intro e i y c hc hl
  obtain ⟨z, hz, hsame, hst⟩ := lost_loseCut (e := e) (lives_self hc) hl
  have hqueue : ∀ r, (y.modifyCut i (fun z => { z with state := .lost })).queueOf r = y.queueOf r := queueOf_congr (by simp)
  refine ⟨y.loseCut e i, z, rfl, hz, hst, hsame.number, hsame.dest, hsame.axles, raised_loseAt 41 hc hl,
    (lossClosed_fill e (fun t => (y.trackOf t).fill)).loseCut (d := ()) i fun _ => rfl,
    fun sid x hx => unlisted_loseCut hc hl hx, fun halone => ?_, fun sid x hx ht hin => becameDisturbed_loseCut hc hl hx ht hin,
    fun hunlisted q a h rest hq ha hrest hothers => ?_, fun x hx => ?_⟩
  · have hqueues := (released_fields c i ((struck e i y).disturbWith (loseTo e (40 + 1)) e .lostCut
      (CascadeClosed.holders (CascadeClosed.dequeued e i y) i))).1
    have hunqueued := disturb_struck (lossClosed_unqueued e i) (y := y) (unqueued_leaveQueues (by simpa only [hqueue] using halone))
    intro q a ha
    rw [loseCut_eq hc hl, queueOf_congr hqueues] at ha
    exact hunqueued q a ha
  · have hlists : ∀ sid, y.lists sid i = false := fun sid => lists_eq_false.mpr fun x hx => hunlisted sid x hx
    rw [Yard.loseCut, cascadeDepth, loseAt_unlisted 41 hlists hc hl]
    obtain ⟨hqueues, hplans, -⟩ := released_fields c i (CascadeClosed.dequeued e i y)
    have halone : (y.modifyCut i (fun z => { z with state := .lost })).leaveQueues e i = _ := leaveQueues_of_alone (q := q)
      ⟨a, by simp [hqueue, hq], ha⟩ fun r ⟨b, hb, hbi⟩ => by_contra fun hne => hothers r hne b (by rwa [hqueue] at hb) hbi
    obtain ⟨hleft, hheads⟩ := leaveQueue_of_head (e := e) ((hqueue q).trans hq) ha hrest
    rw [← halone] at hleft hheads
    refine ⟨(queueOf_congr hqueues q).trans hleft, fun pl hpl => ?_⟩
    rw [planOf_congr hplans]
    exact (hheads (by rw [planOf_congr (y := y) (by simp), hpl]; rfl)).2
  · have hself : y.crest = { y.crest with state := .entering i x } := by rw [← hx]
    exact congrArg Crest.state (absorbing_loseAt (e := e) 41 hc hl (.inl hself))

end Sys2Proof.Proofs
end


section
/-! SUPPORT. The arrival of axles in a track (R118) and of a cut (R51). -/

namespace Sys2Proof.Proofs

open Sys2Proof Sys2Proof.Machine Sys2Proof.Spec

variable {e : Env} {y z : Yard} {i : SlotIx} {c : Cut} {x : Started} {n : Nat} {t u : TrackIx} {l : Ladder}

/-! ## Tracks -/

/-- The tracks after the arrival of axles, before OVERFILL is judged. -/
def filled (t : TrackIx) (n : Nat) (y : Yard) : Yard :=
  (y.modifyTrack t (fun x => { x with fill := min ((y.trackOf t).fill + n) Config.maxFill })).release t n

/-- The track stands above its capacity (R118). -/
def Overfull (l : Ladder) (t : TrackIx) (y : Yard) : Prop :=
  l.isReject t = false ∧ 0 < (y.trackOf t).capacity ∧ (y.trackOf t).capacity < (y.trackOf t).fill

theorem account_of_overfull (h : Overfull l t (filled t n y)) : y.account l t n = (filled t n y).raise (.track t) 1 := by
  obtain ⟨hreject, hpos, hover⟩ := h
  refine if_pos ?_
  rw [hreject, Bool.and_eq_true, Bool.and_eq_true, decide_eq_true_iff, decide_eq_true_iff]
  exact ⟨⟨rfl, hpos⟩, hover⟩

theorem account_of_room (h : ¬ Overfull l t (filled t n y)) : y.account l t n = filled t n y := by
  refine if_neg fun hover => h ?_
  simp only [Bool.and_eq_true, Bool.not_eq_true', decide_eq_true_eq] at hover
  exact ⟨hover.1.1, hover.1.2, hover.2⟩

theorem trackOf_filled (t : TrackIx) (n : Nat) (y : Yard) (u : TrackIx) : (filled t n y).trackOf u =
    if t = u then { y.trackOf u with fill := min ((y.trackOf u).fill + n) 65535, reserved := (y.trackOf u).reserved - n }
    else y.trackOf u := by
  rw [filled, Yard.trackOf_release, Yard.trackOf_modifyTrack]
  split
  next heq =>
    subst heq
    rfl
  · rfl

theorem trackOf_account (l : Ladder) (t : TrackIx) (n : Nat) (y : Yard) (u : TrackIx) : (y.account l t n).trackOf u =
    if t = u then { y.trackOf u with fill := min ((y.trackOf u).fill + n) 65535, reserved := (y.trackOf u).reserved - n }
    else y.trackOf u := by
  rw [← trackOf_filled]
  by_cases h : Overfull l t (filled t n y)
  · rw [account_of_overfull h]
    rfl
  · rw [account_of_room h]

/-- An arrival changes tracks and notices alone. -/
theorem account_fields (l : Ladder) (t : TrackIx) (n : Nat) (y : Yard) :
    y.account l t n = { y with tracks := (y.account l t n).tracks, notices := (y.account l t n).notices } := by
  by_cases h : Overfull l t (filled t n y)
  · rw [account_of_overfull h]
    rfl
  · rw [account_of_room h]
    rfl

theorem raised_account {k : NoticeKey} {r : Nat} (h : Raised y k r) (l : Ladder) (t : TrackIx) (n : Nat) : Raised (y.account l t n) k r := by
  have hfilled : Raised (filled t n y) k r := Raised.of_notices h rfl
  by_cases hover : Overfull l t (filled t n y)
  · rw [account_of_overfull hover]
    exact Raised.raise hfilled _ _
  · rwa [account_of_room hover]

/-! ## Cuts -/

theorem complete_iff (hc : y.cutAt i = some c) (hx : c.started = some x) : y.complete i = true ↔ x.inTrack = c.axles := by
  rw [Yard.complete, hc]
  simp [hx]

/-- The yard with the cut ARRIVED in the track it was bound for. -/
def arrived (e : Env) (i : SlotIx) (c : Cut) (x : Started) (y : Yard) : Yard :=
  ((y.putSlot i (some (.cut { c with state := .arrived, actual := some x.resolved }))).account e.ladder x.resolved c.axles).raiseCut i .arrived

theorem arrive_of_rolling (hc : y.cutAt i = some c) (hx : c.started = some x) (hst : c.state = .rolling) :
    y.arrive e i = arrived e i c x y := by
  rw [Yard.arrive, hc]
  dsimp only
  rw [hx]
  dsimp only
  rw [if_pos hst, Yard.modifyCut, hc]
  rfl

theorem arrive_of_not_rolling (hc : y.cutAt i = some c) (hst : c.state ≠ .rolling) : y.arrive e i = y := by
  rw [Yard.arrive, hc]
  dsimp only
  split
  · rw [if_neg hst]
  · rfl

theorem cutAt_arrived (j : SlotIx) : (arrived e i c x y).cutAt j =
    if i = j then some { c with state := .arrived, actual := some x.resolved } else y.cutAt j := by
  rw [← Yard.cutAt_putSlot_cut]
  exact Yard.cutAt_congr (congrArg Yard.slots (account_fields _ _ _ _)) j

theorem trackOf_arrived (t : TrackIx) : (arrived e i c x y).trackOf t = if x.resolved = t then
    { y.trackOf t with fill := min ((y.trackOf t).fill + c.axles) 65535, reserved := (y.trackOf t).reserved - c.axles }
    else y.trackOf t := trackOf_account e.ladder x.resolved c.axles (y.putSlot i _) t

theorem arrived_fields (e : Env) (i : SlotIx) (c : Cut) (x : Started) (y : Yard) : arrived e i c x y =
    { y with slots := (arrived e i c x y).slots, tracks := (arrived e i c x y).tracks, notices := (arrived e i c x y).notices } := by
  have h := account_fields e.ladder x.resolved c.axles (y.putSlot i (some (.cut { c with state := .arrived, actual := some x.resolved })))
  unfold arrived
  rw [h]
  rfl

theorem raised_arrived {k : NoticeKey} {r : Nat} (h : Raised y k r) : Raised (arrived e i c x y) k r := by
  have hput : Raised (y.putSlot i (some (.cut { c with state := .arrived, actual := some x.resolved }))) k r := Raised.of_notices h rfl
  exact Raised.raise (raised_account hput _ _ _) _ _

end Sys2Proof.Proofs
end


section
/-! PROOFS. SHORT_CUT and the re-examination of a short cut (R59, R97). -/

namespace Sys2Proof.Proofs

open Sys2Proof Sys2Proof.Machine Sys2Proof.Spec

variable {s : State} {e : Env} {y z : Yard} {sid : SectionId} {x : Section} {i j : SlotIx} {c : Cut} {n : Nat}

/-! ## The marker at the head (R102) -/

/-- Only a marker and its notice are changed. -/
structure OnlyMarker (y z : Yard) : Prop where
  lead : z.lead = y.lead
  sections : z.sections = y.sections
  queues : z.queues = y.queues
  pendingList : z.pendingList = y.pendingList
  crest : z.crest = y.crest
  tracks : z.tracks = y.tracks
  points : z.points = y.points
  drive : z.drive = y.drive
  slotsInUse : z.slotsInUse = y.slotsInUse
  waiting : z.waiting = y.waiting
  plans : z.plans = y.plans
  control : z.control = y.control
  cutAt : ∀ j, z.cutAt j = y.cutAt j
  raised : ∀ key n, Raised y key n → Raised z key n

theorem OnlyMarker.refl (y : Yard) : OnlyMarker y y :=
  ⟨rfl, rfl, rfl, rfl, rfl, rfl, rfl, rfl, rfl, rfl, rfl, rfl, fun _ => rfl, fun _ _ h => h⟩

theorem OnlyMarker.sectionOf (h : OnlyMarker y z) (sid : SectionId) : z.sectionOf sid = y.sectionOf sid :=
  sectionOf_of_fields h.lead h.sections sid

theorem onlyMarker_judgeMarker (y : Yard) : OnlyMarker y y.judgeMarker := by
  unfold Yard.judgeMarker
  split
  next i _ =>
    split
    next n hold =>
      split
      · have hcut : ∀ j, (y.putSlot i (some (.hold n true))).cutAt j = y.cutAt j := fun j => by
          rw [Yard.cutAt_putSlot_hold]
          split
          next hij =>
            subst hij
            rw [Yard.cutAt, hold]
          · rfl
        exact ⟨rfl, rfl, rfl, rfl, rfl, rfl, rfl, rfl, rfl, rfl, rfl, rfl, hcut,
          fun key n h => Raised.raise (y := y.putSlot i (some (Record.hold _ true))) (Raised.of_notices h rfl) _ _⟩
      · exact .refl y
    · exact .refl y
  · exact .refl y

/-! ## The re-examination of one section (R59) -/

/-- The record of a section after a cut has been examined for an axle count. -/
def examined (i : SlotIx) (n : Nat) (x : Section) : Section :=
  if keptBy i n x.occupants = x.occupants then x
  else if keptBy i n x.occupants = [] then { x.relist [] with state := .clear, stallTimer := none, stallFlag := false }
  else x.relist (keptBy i n x.occupants)

theorem kept_iff {l : List Occupant} : l.any (fun o => o.slot == i && o.exited == n) = false ↔ keptBy i n l = l := by
  rw [keptBy, List.filter_eq_self, List.any_eq_false]
  exact forall₂_congr fun o _ => by rw [Bool.not_eq_true, Bool.not_eq_true']

theorem reexamine_of_kept (hn : y.axlesOf i = n) (h : ∀ x, y.sectionOf sid = some x → keptBy i n x.occupants = x.occupants) :
    y.reexamine e i sid = y := by
  unfold Yard.reexamine
  split
  next x hx => rw [hn, kept_iff.mpr (h x hx), if_neg Bool.false_ne_true]
  · rfl

theorem reexamine_of_left (hn : y.axlesOf i = n) (hx : y.sectionOf sid = some x) (h : keptBy i n x.occupants ≠ x.occupants) :
    y.reexamine e i sid = if keptBy i n x.occupants = [] then (emptied sid x y).toldClear e sid
      else y.putSection sid (some (x.relist (keptBy i n x.occupants))) := by
  have hany : x.occupants.any (fun o => o.slot == i && o.exited == n) = true := by
    rw [← Bool.not_eq_false]
    exact fun hf => h (kept_iff.mp hf)
  rw [Yard.reexamine, hx]
  dsimp only
  rw [hn, hany, if_pos rfl, ← keptBy]
  simp only [List.isEmpty_iff]
  split
  next hempty =>
    rw [hempty]
    cases sid <;> rfl
  · rfl

/-- A property that the planner and the changes of sections and counts keep. -/
theorem reexamine_keeps {P : Yard → Prop} (h : PlanClosed e P) (haside : ∀ {y z : Yard}, aside z = aside y → P y → P z)
    (sid : SectionId) (hy : P y) : P (y.reexamine e i sid) := by
  by_cases hkept : ∀ x, y.sectionOf sid = some x → keptBy i (y.axlesOf i) x.occupants = x.occupants
  · rwa [reexamine_of_kept rfl hkept]
  · push Not at hkept
    obtain ⟨x, hx, hleft⟩ := hkept
    rw [reexamine_of_left rfl hx hleft]
    split
    · have hemptied : P (emptied sid x y) := haside (by simp [aside, emptied]) hy
      cases sid with
      | lead => exact hemptied
      | point q => exact h.evaluate q hemptied
    · exact haside (by simp [aside]) hy

theorem sectionOf_reexamine (hn : y.axlesOf i = n) (sid' : SectionId) : (y.reexamine e i sid).sectionOf sid' =
    if sid = sid' then (y.sectionOf sid').map (examined i n) else y.sectionOf sid' := by
  by_cases hkept : ∀ x, y.sectionOf sid = some x → keptBy i n x.occupants = x.occupants
  · rw [reexamine_of_kept hn hkept]
    split
    next heq =>
      subst heq
      cases hx : y.sectionOf sid with
      | none => rfl
      | some x => rw [Option.map_some, examined, if_pos (hkept x hx)]
    · rfl
  · push Not at hkept
    obtain ⟨x, hx, hleft⟩ := hkept
    have htold : ∀ w : Yard, (w.toldClear e sid).sectionOf sid' = w.sectionOf sid' := fun w =>
      sectionOf_of_standing (standing_toldClear e sid w) sid'
    rw [reexamine_of_left hn hx hleft]
    split
    next hempty =>
      rw [htold, sectionOf_emptied]
      split
      next heq =>
        subst heq
        rw [hx, Option.map_some, examined, if_neg hleft, if_pos hempty]
      · rfl
    next hsome =>
      rw [Yard.sectionOf_putSection]
      split
      next heq =>
        subst heq
        rw [hx, Option.map_some, examined, if_neg hleft, if_neg hsome]
      · rfl

/-! ## The re-examination of every section (R59) -/

theorem axlesOf_of_held {st : CutState} (h : HeldAs c st (y.cutAt i)) : y.axlesOf i = c.axles := by
  obtain ⟨c', hc', hsame, -⟩ := h
  rw [Yard.axlesOf, hc']
  exact hsame.axles

/-- The sections of a list examined one after the other. -/
def examineAll (e : Env) (i : SlotIx) (l : List SectionId) (y : Yard) : Yard := l.foldl (fun w sid => w.reexamine e i sid) y

theorem examineAll_keeps {P : Yard → Prop} (h : PlanClosed e P) (haside : ∀ {y z : Yard}, aside z = aside y → P y → P z)
    (l : List SectionId) (hy : P y) : P (examineAll e i l y) := by
  induction l generalizing y with
  | nil => exact hy
  | cons sid l ih => exact ih (reexamine_keeps h haside sid hy)

theorem held_reexamine {st : CutState} (sid : SectionId) (h : HeldAs c st (y.cutAt i)) : HeldAs c st ((y.reexamine e i sid).cutAt i) :=
  reexamine_keeps (P := fun y => HeldAs c st (y.cutAt i)) ((trafficClosed_cut fun _ _ hf h => h.modifyStarted hf).plan e)
    (fun ha h => by rwa [Yard.cutAt_congr (congrArg Aside.slots ha) i]) sid h

theorem held_examineAll {st : CutState} (l : List SectionId) (h : HeldAs c st (y.cutAt i)) :
    HeldAs c st ((examineAll e i l y).cutAt i) := by
  induction l generalizing y with
  | nil => exact h
  | cons sid l ih => exact ih (held_reexamine sid h)

theorem sectionOf_examineAll {st : CutState} {l : List SectionId} (hl : l.Nodup) (h : HeldAs c st (y.cutAt i)) (sid : SectionId) :
    (examineAll e i l y).sectionOf sid = if sid ∈ l then (y.sectionOf sid).map (examined i c.axles) else y.sectionOf sid := by
  induction l generalizing y with
  | nil => rfl
  | cons s l ih =>
    obtain ⟨hs, hl⟩ := List.nodup_cons.mp hl
    have hstep : (examineAll e i (s :: l) y).sectionOf sid = (examineAll e i l (y.reexamine e i s)).sectionOf sid := rfl
    rw [hstep, ih hl (held_reexamine s h), sectionOf_reexamine (axlesOf_of_held h)]
    by_cases hsid : s = sid
    · subst hsid
      simp [hs]
    · simp [hsid, Ne.symm hsid]

/-- Sections that hold no entry to strike are left alone. -/
theorem examineAll_of_kept {l : List SectionId} (hn : y.axlesOf i = n)
    (h : ∀ sid ∈ l, ∀ x, y.sectionOf sid = some x → keptBy i n x.occupants = x.occupants) : examineAll e i l y = y := by
  induction l with
  | nil => rfl
  | cons s l ih =>
    have hstep : examineAll e i (s :: l) y = examineAll e i l (y.reexamine e i s) := rfl
    rw [hstep, reexamine_of_kept hn (h s List.mem_cons_self)]
    exact ih fun sid hsid => h sid (List.mem_cons_of_mem _ hsid)

/-- A cut that has entries to strike in one section alone. -/
theorem examineAll_of_alone {st : CutState} {l : List SectionId} (hl : l.Nodup) (hsid : sid ∈ l) (hheld : HeldAs c st (y.cutAt i))
    (h : ∀ s, s ≠ sid → ∀ x, y.sectionOf s = some x → keptBy i c.axles x.occupants = x.occupants) :
    examineAll e i l y = y.reexamine e i sid := by
  induction l with
  | nil => cases hsid
  | cons s l ih =>
    obtain ⟨hs, hl⟩ := List.nodup_cons.mp hl
    have hstep : examineAll e i (s :: l) y = examineAll e i l (y.reexamine e i s) := rfl
    by_cases hsame : s = sid
    · subst hsame
      refine hstep.trans (examineAll_of_kept (axlesOf_of_held (held_reexamine s hheld)) fun r hr x hx => ?_)
      have hne : r ≠ s := fun heq => hs (heq ▸ hr)
      rw [sectionOf_reexamine (axlesOf_of_held hheld), if_neg (Ne.symm hne)] at hx
      exact h r hne x hx
    · rw [hstep, reexamine_of_kept (axlesOf_of_held hheld) (h s hsame)]
      exact ih hl ((List.mem_cons.mp hsid).resolve_left (Ne.symm hsame))

theorem reexamineAll_eq (i : SlotIx) (y : Yard) : y.reexamineAll e i =
    if (examineAll e i allSections y).complete i then (examineAll e i allSections y).arrive e i else examineAll e i allSections y := rfl

/-! ## The cut cut short (R97) -/

/-- The yard with the entering cut's count reduced, before it is re-examined (R97 steps 1 to 3). -/
def reduced (i : SlotIx) (c : Cut) (z : Started) (y : Yard) : Yard :=
  (((y.putSlot i (some (.cut (shortened c z)))).release z.resolved c.axles).reserve z.resolved z.crestAxles).raiseCut i .short

/-- The crest unit IDLE, with the cut for its previous cut (R93). -/
def leftCrest (i : SlotIx) (number : Word16) (last : Instant) (longAgo : Bool) (y : Yard) : Yard :=
  y.modifyCrest (fun x =>
    { x with state := .idle, timer := none, previous := some { slot := i, number := number, instant := last, longAgo := longAgo } })

theorem modifyCut_self {f : Cut → Cut} (hc : y.cutAt i = some c) (hf : f c = c) : y.modifyCut i f = y := by
  have hlook : Table.look y.slots i = some (.cut c) := by
    unfold Yard.cutAt at hc
    split at hc
    next hl =>
      cases hc
      exact hl
    all_goals cases hc
  rw [Yard.modifyCut, hc]
  dsimp only
  rw [hf, Yard.putSlot, table_put_self hlook]

/-- A cut that is not ENTERING keeps its record as the crest unit leaves it. -/
theorem leaveEntering_of_left {number : Word16} {last : Instant} {longAgo : Bool} (hc : y.cutAt i = some c) (hst : c.state ≠ .entering) :
    y.leaveEntering i number last longAgo = (leftCrest i number last longAgo y).judgeMarker := by
  have hkept : y.modifyCut i (fun c => if c.state = .entering then { c with state := .rolling } else c) = y :=
    modifyCut_self hc (if_neg hst)
  rw [Yard.leaveEntering, hkept]
  rfl

theorem shortCut_eq {e : Env} {x : Entry} {g : GapTimer} {z : Started} (hcrest : y.crest.state = .entering i x)
    (hg : y.crest.timer = some g) (hexp : atOrAfter e.now g.expiry = true ∨ g.longAgo = true) (hc : y.cutAt i = some c)
    (hst : c.state = .entering) (hz : c.started = some z) :
    y.shortCut e = ((reduced i c z y).reexamineAll e i).leaveEntering i x.number g.origin g.longAgo := by
  have horigin : y.crest.gapOrigin = g.origin := by rw [Crest.gapOrigin, hg]; rfl
  have hlong : y.crest.gapLongAgo = g.longAgo := by rw [Crest.gapLongAgo, hg]; rfl
  rw [Yard.shortCut, hcrest]
  dsimp only
  rw [hc]
  dsimp only
  rw [hz]
  dsimp only
  rw [gapExpired_of_timer hg hexp, hst, horigin, hlong, if_pos (show (true && CutState.entering == CutState.entering) = true from rfl)]
  unfold reduced
  rfl

theorem trackOf_reduced (z : Started) (y : Yard) (k : TrackIx) : (reduced i c z y).trackOf k =
    if z.resolved = k then { y.trackOf k with reserved := (y.trackOf k).reserved - c.axles + z.crestAxles } else y.trackOf k := by
  have h : (reduced i c z y).trackOf k =
      (((y.putSlot i (some (.cut (shortened c z)))).release z.resolved c.axles).reserve z.resolved z.crestAxles).trackOf k := rfl
  rw [h, Yard.trackOf_reserve, Yard.trackOf_release]
  split <;> rfl

/-- What the planner and the tracker keep of the approach while a short cut is re-examined. -/
theorem examineAll_approach (l : List SectionId) (y : Yard) :
    (examineAll e i l y).queues = y.queues ∧ (examineAll e i l y).crest = y.crest ∧ (examineAll e i l y).pendingList = y.pendingList ∧
      ∀ k, ((examineAll e i l y).trackOf k).fill = (y.trackOf k).fill := by
  have happroach : TrafficClosed (fun z => z.queues = y.queues ∧ z.crest = y.crest ∧ z.pendingList = y.pendingList) :=
    { congr := fun h hy => by rwa [h.queues, h.crest, h.pendingList]
      started := fun j f _ hy => by simpa using hy
      reserve := fun _ _ hy => hy
      release := fun _ _ hy => hy }
  obtain ⟨hq, hc, hp⟩ := examineAll_keeps (i := i) (happroach.plan e) (fun ha hy =>
    ⟨(congrArg Aside.queues ha).trans hy.1, (congrArg Aside.crest ha).trans hy.2.1, (congrArg Aside.pendingList ha).trans hy.2.2⟩)
    l ⟨rfl, rfl, rfl⟩
  exact ⟨hq, hc, hp, examineAll_keeps (i := i) ((trafficClosed_fill _).plan e) (fun ha => fill_congr (congrArg Aside.tracks ha)) l
    fun _ => rfl⟩

theorem raised_examineAll (k : NoticeKey) (r : Nat) (l : List SectionId) (h : Raised y k r) : Raised (examineAll e i l y) k r :=
  examineAll_keeps (planClosed_raised e k r) (fun ha h => Raised.of_notices h (congrArg Aside.notices ha)) l h

/-! ## SHORT_CUT (R97) -/

theorem cutAt_reduced (i : SlotIx) (c : Cut) (z : Started) (y : Yard) : (reduced i c z y).cutAt i = some (shortened c z) := by
  have hcut := Yard.cutAt_putSlot_cut i i (shortened c z) y
  rw [if_pos rfl] at hcut
  exact hcut

/-- What SHORT_CUT leaves, before the marker is judged: the cut ROLLING, or ARRIVED with all its axles in its track. -/
structure CutShort (e : Env) (i : SlotIx) (c : Cut) (z : Started) (y a : Yard) (b : Cut) (w : Started) : Prop where
  held : (examineAll e i allSections (reduced i c z y)).cutAt i = some b
  same : SameCut (shortened c z) b
  rolling : b.state = .rolling
  started : b.started = some w
  bare : Proofs.bare w = Proofs.bare { z with short := some c.axles }
  arrives : z.inTrack = z.crestAxles → a = arrived e i b w (examineAll e i allSections (reduced i c z y))
  rolls : z.inTrack ≠ z.crestAxles → a = examineAll e i allSections (reduced i c z y)

/-- What a cut has done, field by field. -/
theorem bare_fields {a b : Started} (h : bare a = bare b) :
    a.order = b.order ∧ a.progress = b.progress ∧ a.crestAxles = b.crestAxles ∧ a.inTrack = b.inTrack ∧ a.short = b.short := by
  simp only [bare, Started.mk.injEq] at h
  obtain ⟨horder, -, -, -, hprogress, hcrest, htrack, -, -, -, hshort, -⟩ := h
  exact ⟨horder, hprogress, hcrest, htrack, hshort⟩

theorem cutShort_reexamineAll (e : Env) (i : SlotIx) (c : Cut) (z : Started) (y : Yard) :
    ∃ b w, CutShort e i c z y ((reduced i c z y).reexamineAll e i) b w := by
  have hheld : HeldAs (shortened c z) .rolling ((reduced i c z y).cutAt i) := ⟨_, cutAt_reduced i c z y, .refl _, rfl⟩
  obtain ⟨b, hb, hsame, hst⟩ := held_examineAll (e := e) allSections hheld
  obtain ⟨w, hw, hbare⟩ := hsame.started rfl
  have hdone := complete_iff hb hw
  obtain ⟨-, -, -, htrack, -⟩ := bare_fields hbare
  rw [htrack, show b.axles = z.crestAxles from hsame.axles] at hdone
  refine ⟨b, w, hb, hsame, hst, hw, hbare, fun h => ?_, fun h => ?_⟩
  · rw [reexamineAll_eq, if_pos (hdone.mpr h), arrive_of_rolling hb hw hst]
  · rw [reexamineAll_eq, if_neg fun hin => h (hdone.mp hin)]

namespace CutShort

variable {z : Started} {a : Yard} {b : Cut} {w : Started}

theorem fields (h : CutShort e i c z y a b w) : a = { examineAll e i allSections (reduced i c z y) with
    slots := a.slots, tracks := a.tracks, notices := a.notices } := by
  by_cases hin : z.inTrack = z.crestAxles
  · rw [h.arrives hin]
    exact arrived_fields e i b w _
  · rw [h.rolls hin]

theorem raised (h : CutShort e i c z y a b w) : Raised a (.cut i) 6 := by
  have hreduced : Raised (reduced i c z y) (.cut i) 6 := raised_raiseCut i .short _
  have hshort := raised_examineAll (e := e) (i := i) (.cut i) 6 allSections hreduced
  by_cases hin : z.inTrack = z.crestAxles
  · rw [h.arrives hin]
    exact raised_arrived hshort
  · rw [h.rolls hin]
    exact hshort

theorem sectionOf (h : CutShort e i c z y a b w) (sid : SectionId) : a.sectionOf sid = (y.sectionOf sid).map (examined i z.crestAxles) := by
  have hheld : HeldAs (shortened c z) .rolling ((reduced i c z y).cutAt i) := ⟨_, cutAt_reduced i c z y, .refl _, rfl⟩
  have hexamined := sectionOf_examineAll (e := e) allSections_nodup hheld sid
  rw [if_pos (mem_allSections sid)] at hexamined
  have hkept : (reduced i c z y).sectionOf sid = y.sectionOf sid := sectionOf_of_fields rfl rfl sid
  have hfields := h.fields
  rw [hkept, show (shortened c z).axles = z.crestAxles from rfl] at hexamined
  rw [← hexamined]
  generalize examineAll e i allSections (reduced i c z y) = q at hfields
  exact sectionOf_of_fields (congrArg Yard.lead hfields) (congrArg Yard.sections hfields) sid

theorem fill (h : CutShort e i c z y a b w) (k : TrackIx) : (a.trackOf k).fill =
    if z.inTrack = z.crestAxles ∧ k = w.resolved then min ((y.trackOf k).fill + z.crestAxles) 65535 else (y.trackOf k).fill := by
  obtain ⟨-, -, -, hfill⟩ := examineAll_approach (e := e) (i := i) allSections (reduced i c z y)
  have hreduced : ((reduced i c z y).trackOf k).fill = (y.trackOf k).fill := by
    rw [trackOf_reduced]
    split <;> rfl
  by_cases hin : z.inTrack = z.crestAxles
  · rw [h.arrives hin, trackOf_arrived]
    by_cases hk : w.resolved = k
    · rw [if_pos hk, if_pos ⟨hin, hk.symm⟩, show b.axles = z.crestAxles from h.same.axles]
      exact congrArg (fun f => min (f + z.crestAxles) 65535) ((hfill k).trans hreduced)
    · rw [if_neg hk, if_neg fun hboth => hk hboth.2.symm, hfill, hreduced]
  · rw [h.rolls hin, if_neg fun hboth => hin hboth.1, hfill, hreduced]

/-- The record that the cut ends with. -/
theorem cutAt (h : CutShort e i c z y a b w) : ∃ c', a.cutAt i = some c' ∧ SameCut { shortened c z with actual := c'.actual } c' ∧ c'.started = some w ∧
    (z.inTrack = z.crestAxles → c'.state = .arrived ∧ c'.actual = some w.resolved) ∧ (z.inTrack ≠ z.crestAxles → c'.state = .rolling) := by
  have hb := h.same
  by_cases hin : z.inTrack = z.crestAxles
  · refine ⟨{ b with state := .arrived, actual := some w.resolved }, ?_, ⟨hb.number, hb.dest, hb.axles, rfl, hb.bare⟩, h.started,
      fun _ => ⟨rfl, rfl⟩, fun hno => absurd hin hno⟩
    rw [h.arrives hin, cutAt_arrived, if_pos rfl]
  · exact ⟨b, by rw [h.rolls hin, h.held], ⟨hb.number, hb.dest, hb.axles, rfl, hb.bare⟩, h.started, fun hyes => absurd hyes hin,
      fun _ => h.rolling⟩

end CutShort

/-- The sections that SHORT_CUT leaves are those of its re-examination. -/
theorem reexamined_of_examined {s t : State} {i : SlotIx} {n : Nat}
    (h : ∀ sid, t.yard.sectionOf sid = (s.yard.sectionOf sid).map (examined i n)) : Reexamined s t i n := by
  intro sid x hx
  have hleft := h sid
  rw [hx, Option.map_some] at hleft
  rw [hleft]
  unfold examined
  refine ⟨fun hkept => by rw [if_pos hkept], fun hne => ⟨fun hsome => ?_, fun hempty => ?_⟩⟩
  · rw [if_neg hne, if_neg hsome]
    rfl
  · rw [if_neg hne, if_pos hempty]
    rfl

namespace CutShort

variable {z : Started} {a : Yard} {b : Cut} {w : Started}

theorem approach (h : CutShort e i c z y a b w) : a.queues = y.queues ∧ a.crest = y.crest ∧ a.pendingList = y.pendingList := by
  obtain ⟨hqueues, hcrest, hpending, -⟩ := examineAll_approach (e := e) (i := i) allSections (reduced i c z y)
  have hfields := h.fields
  generalize examineAll e i allSections (reduced i c z y) = q at hfields hqueues hcrest hpending
  exact ⟨(congrArg Yard.queues hfields).trans hqueues, (congrArg Yard.crest hfields).trans hcrest,
    (congrArg Yard.pendingList hfields).trans hpending⟩

/-- A cut that has nothing to strike and does not arrive. -/
theorem of_kept (h : CutShort e i c z y a b w) (hin : z.inTrack ≠ z.crestAxles)
    (hkept : ∀ sid x, y.sectionOf sid = some x → keptBy i z.crestAxles x.occupants = x.occupants) : a = reduced i c z y := by
  have haxles : (reduced i c z y).axlesOf i = z.crestAxles := by
    rw [Yard.axlesOf, cutAt_reduced]
    rfl
  rw [h.rolls hin]
  refine examineAll_of_kept haxles fun sid _ x hx => hkept sid x ?_
  rw [← hx]
  exact (sectionOf_of_fields rfl rfl sid).symm

/-- A cut that has entries to strike in one section, which they empty. -/
theorem of_alone (h : CutShort e i c z y a b w) (hin : z.inTrack ≠ z.crestAxles) (hx : y.sectionOf sid = some x)
    (hleft : keptBy i z.crestAxles x.occupants ≠ x.occupants) (hempty : keptBy i z.crestAxles x.occupants = [])
    (hothers : ∀ s x, s ≠ sid → y.sectionOf s = some x → keptBy i z.crestAxles x.occupants = x.occupants) :
    a = (emptied sid x (reduced i c z y)).toldClear e sid := by
  have hheld : HeldAs (shortened c z) .rolling ((reduced i c z y).cutAt i) := ⟨_, cutAt_reduced i c z y, .refl _, rfl⟩
  have hsections : ∀ s, (reduced i c z y).sectionOf s = y.sectionOf s := sectionOf_of_fields rfl rfl
  rw [h.rolls hin, examineAll_of_alone allSections_nodup (mem_allSections sid) hheld fun s hs x hx => hothers s x hs (by rwa [← hsections s])]
  rw [reexamine_of_left (axlesOf_of_held hheld) ((hsections sid).trans hx) hleft]
  exact if_pos hempty

end CutShort

/-- Settles O32: the cut reduced, re-examined section by section, arrived or rolling, and left to the crest unit as its previous
cut. -/
theorem shortCutReducesEnteringCut : Obligations.ShortCutReducesEnteringCut := by
  intro s i x g c z hcrest hg hexp hc hst hz
  obtain ⟨b, w, h⟩ := cutShort_reexamineAll s.env i c z s.yard
  have hshort := shortCut_eq (e := s.env) hcrest hg hexp hc hst hz
  generalize (reduced i c z s.yard).reexamineAll s.env i = a at h hshort
  obtain ⟨c', hc', hsame, hstarted, harrives, hrolls⟩ := h.cutAt
  have hoff : c'.state ≠ .entering := by
    by_cases hin : z.inTrack = z.crestAxles
    · rw [(harrives hin).1]
      exact CutState.noConfusion
    · rw [hrolls hin]
      exact CutState.noConfusion
  rw [leaveEntering_of_left hc' hoff] at hshort
  have hd := onlyMarker_judgeMarker (leftCrest i x.number g.origin g.longAgo a)
  generalize (leftCrest i x.number g.origin g.longAgo a).judgeMarker = d at hshort hd
  have hexec : exec .shortCut s = .next (s.withYard d) := congrArg (fun y => Host.Outcome.next (s.withYard y)) hshort
  obtain ⟨hqueues, hcrest', hpending⟩ := h.approach
  obtain ⟨horder, -, haxles, htrack, hshortnote⟩ := bare_fields h.bare
  have hfill : ∀ k, (d.trackOf k).fill = _ := fun k => (congrArg Track.fill (trackOf_congr hd.tracks k)).trans (h.fill k)
  refine ⟨s.withYard d, c', w, hexec, congrArg Crest.state hd.crest, congrArg Crest.timer hd.crest, congrArg Crest.previous hd.crest,
    (congrArg Crest.nextOrder hd.crest).trans ((congrArg Crest.nextOrder hcrest' :)), (hd.cutAt i).trans hc', hstarted, hsame.number, hsame.axles,
    hshortnote, horder, ?_, Raised.withYard (hd.raised _ _ (Raised.of_notices h.raised rfl)), hd.pendingList.trans hpending,
    rfl, rfl, hd.queues.trans hqueues, ?_, ?_, htrack, haxles, fun hin => ⟨(harrives hin).1, (harrives hin).2, ?_, fun k => ?_⟩,
    fun hin => ⟨hrolls hin, fun k => ?_, fun hkept hle hres => ?_⟩⟩
  · by_cases hin : z.inTrack = z.crestAxles
    · exact .inr (harrives hin).1
    · exact .inl (hrolls hin)
  · exact reexamined_of_examined fun sid => (hd.sectionOf sid).trans (h.sectionOf sid)
  · intro q x hx hleft hempty hin hothers
    have ha : (emptied (.point q) x (reduced i c z s.yard)).evaluate s.env q = a :=
      (h.of_alone hin hx hleft hempty fun s x hs hx => hothers s x hs hx).symm
    have haside : aside (emptied (.point q) x (reduced i c z s.yard)) = aside (reduced i c z s.yard) := by simp [aside, emptied]
    refine ⟨_, a, ha, congrArg Aside.queues haside, congrArg Aside.points haside, congrArg Aside.plans haside,
      congrArg Aside.waiting haside, congrArg Aside.slotsInUse haside, congrArg Aside.drive haside,
      (congrArg ModeControl.freezeFlag (control_emptied _ _ _)).trans rfl, fun sid => ?_, congrArg Aside.slots haside, hd.points, hd.plans,
      hd.waiting, hd.tracks, hd.slotsInUse, hd.drive, hd.cutAt⟩
    refine Eq.trans ?_ (hd.sectionOf sid).symm
    rw [← ha]
    exact (sectionOf_of_standing (Yard.standing_evaluate s.env q _) sid).symm
  · have harrival : a = _ := h.arrives hin
    refine Raised.withYard (hd.raised _ _ (Raised.of_notices ?_ rfl))
    rw [harrival]
    exact raised_raiseCut i .arrived _
  · refine (hfill k).trans ?_
    simp only [hin, true_and]
  · refine (hfill k).trans ?_
    rw [if_neg fun hboth => hin hboth.1]
  · have ha := h.of_kept hin fun sid x hx => hkept sid x hx
    subst ha
    have hb : b = shortened c z := by
      have hheld := h.held
      rw [← h.rolls hin, cutAt_reduced] at hheld
      exact (Option.some.inj hheld).symm
    have hw := h.started
    rw [hb] at hw
    refine ⟨(Option.some.inj hw).symm, hd.plans, hd.points, fun k => ?_⟩
    refine (trackOf_congr hd.tracks k).trans ((trackOf_reduced z s.yard k).trans ?_)
    by_cases hk : z.resolved = k
    · subst hk
      rw [if_pos rfl, if_pos rfl]
      have hsum : (s.yard.trackOf z.resolved).reserved - c.axles + z.crestAxles =
          (s.yard.trackOf z.resolved).reserved - (c.axles - z.crestAxles) := by omega
      exact congrArg (fun r => { s.yard.trackOf z.resolved with reserved := r }) hsum
    · rw [if_neg hk, if_neg (Ne.symm hk)]
      rfl

end Sys2Proof.Proofs
end


section
/-! PROOFS. Passages through the sections: the exit, the leg check, the entry and the arrival in a track (R44 to R51, R118). -/

namespace Sys2Proof.Proofs

open Sys2Proof Sys2Proof.Machine Sys2Proof.Spec

variable {s : State} {e : Env} {y z : Yard} {sid : SectionId} {x : Section} {i j : SlotIx} {c : Cut} {n : Nat}

/-! ## The arrival of axles (R118) -/

theorem notices_account (l : Ladder) (t : TrackIx) (n : Nat) (y : Yard) : (y.account l t n).notices =
    if l.consts.reject ≠ some t ∧ 0 < (y.trackOf t).capacity ∧ (y.trackOf t).capacity < min ((y.trackOf t).fill + n) 65535 then
      (y.raise (.track t) 1).notices
    else y.notices := by
  have hfilled := trackOf_filled t n y t
  rw [if_pos rfl] at hfilled
  have hover : Overfull l t (filled t n y) ↔ l.consts.reject ≠ some t ∧ 0 < (y.trackOf t).capacity ∧
      (y.trackOf t).capacity < min ((y.trackOf t).fill + n) 65535 := by
    rw [Overfull, hfilled, Ladder.isReject, beq_eq_false_iff_ne]
  by_cases h : Overfull l t (filled t n y)
  · rw [account_of_overfull h, if_pos (hover.mp h)]
    rfl
  · rw [account_of_room h, if_neg (mt hover.mpr h)]
    rfl

theorem trackEntry : TrackEntry := by
  intro e y i c x hc hx
  obtain ⟨a, ha⟩ : ∃ a, y.putSlot i (some (.cut { c with started := some { x with inTrack := x.inTrack + 1 } })) = a := ⟨_, rfl⟩
  have hcut : a.cutAt i = some { c with started := some { x with inTrack := x.inTrack + 1 } } := by
    rw [← ha, Yard.cutAt_putSlot_cut, if_pos rfl]
  have hentered : y.entryTrack e i = if a.complete i then a.arrive e i else a := by
    rw [← ha, ← modifyStarted_eq hc hx (fun x => { x with inTrack := x.inTrack + 1 })]
    rfl
  have hcomplete := complete_iff hcut rfl
  refine ⟨fun h => ?_, fun hin hst => ?_⟩
  · rw [hentered, ha]
    split
    next hdone => exact arrive_of_not_rolling hcut (h.resolve_left fun hne => hne (hcomplete.mp hdone))
    · rfl
  · rw [if_pos (hcomplete.mpr hin), arrive_of_rolling hcut rfl hst] at hentered
    have hfields := arrived_fields e i { c with started := some { x with inTrack := x.inTrack + 1 } } { x with inTrack := x.inTrack + 1 } a
    refine ⟨_, hentered, ?_, ?_, raised_raiseCut i .arrived _, (congrArg Yard.queues hfields).trans ?_,
      (congrArg Yard.points hfields).trans ?_, (congrArg Yard.crest hfields).trans ?_⟩
    · rw [cutAt_arrived, if_pos rfl]
    · rw [trackOf_arrived, if_pos rfl, trackOf_congr (y := y) (by rw [← ha]; rfl)]
    all_goals
      rw [← ha]
      rfl

/-! ## The passage at a head (R44, R48) -/

/-- What lies below a head, by the target it leads to (R44). -/
def belowOf : Target → Below
  | .point q => .area (.point q)
  | .track t => .track t
  | .none => .nothing

theorem enterBelow_eq (b : Target) (cut : Option SlotIx) (above : Bool) (pass : Passage) (y : Yard) :
    y.enterBelow e (belowOf b) cut above pass = entersBelow e b cut above pass y := by
  cases b <;> cases cut <;> rfl

theorem isLeading_iff {q : PointIx} : y.isLeading q i = true ↔
    ∃ x k, y.startedAt i = some x ∧ x.route.findIdx? (fun pr => pr.1 == q) = some k ∧ x.progress ≤ k := by
  unfold Yard.isLeading Started.positionOf
  cases hx : y.startedAt i with
  | none => simp
  | some x =>
    cases hk : x.route.findIdx? (fun pr => pr.1 == q) with
    | none => simp [hk]
    | some k => simp [hk]

theorem below_legHead (l : Ladder) (p : PointIx) (leg : Leg) : l.below (legHead p leg) = belowOf (l.target p leg) := by
  rw [Ladder.below, headPlace_legHead]
  dsimp only
  cases l.target p leg <;> rfl

theorem sectionAbove_legHead (l : Ladder) (p : PointIx) (leg : Leg) : l.sectionAbove (legHead p leg) = some (.point p) := by
  rw [Ladder.sectionAbove, headPlace_legHead]

theorem downhillPassage : DownhillPassage := by
  refine ⟨fun e y pass p leg hdown => ?_, fun e y pass r hdown hroot => ?_, fun y q i => isLeading_iff⟩
  · rw [Yard.deliver, headPlace_legHead, hdown]
    dsimp only
    rw [Yard.downhill, sectionAbove_legHead]
    dsimp only
    rw [below_legHead, enterBelow_eq, headPlace_legHead]
    obtain ⟨left, out⟩ := y.takeOut e (.point p)
    cases left <;> rfl
  · have hplace : headPlace entryHeadE = .entry := rfl
    rw [Yard.deliver, hplace, hdown]
    dsimp only
    rw [Yard.downhill, Ladder.sectionAbove, hplace]
    dsimp only
    rw [Ladder.below, hplace, hroot]
    dsimp only
    rw [← enterBelow_eq]
    obtain ⟨left, out⟩ := y.takeOut e .lead
    cases left <;> rfl

/-! ## The exit (R44, R45) -/

theorem takeOut_of_disturbed (hx : y.sectionOf sid = some x) (hd : x.state = .disturbed) : y.takeOut e sid = (none, y.lowerRaw sid) := by
  rw [Yard.takeOut, hx]
  exact if_pos hd

theorem takeOut_of_absent (hx : y.sectionOf sid = some x) (hd : x.state ≠ .disturbed) (h : ∀ o ∈ x.occupants, o.entered ≤ o.exited) :
    y.takeOut e sid = (none, y.disturb e .phantomExit [sid]) := by
  have hnone : x.occupants.find? Occupant.present = none :=
    List.find?_eq_none.mpr fun o ho => by simpa [Occupant.present] using h o ho
  rw [Yard.takeOut, hx]
  dsimp only
  rw [if_neg hd, hnone]

/-- The occupant list after the exit of the first entry with an axle in the section. -/
def leftAfter (pre post : List Occupant) (o : Occupant) (axles : Nat) : List Occupant :=
  pre ++ (if o.exited + 1 = axles then post else { o with exited := o.exited + 1 } :: post)

theorem axleCount_leftAfter {pre post : List Occupant} {o : Occupant} {axles : Nat} (ho : o.exited < o.entered)
    (hlast : o.exited + 1 = axles → o.entered = axles) : axleCount (leftAfter pre post o axles) + 1 = axleCount (pre ++ o :: post) := by
  rw [leftAfter, axleCount_append, axleCount_append, axleCount_cons]
  split
  next h =>
    have := hlast h
    omega
  · rw [axleCount_cons]
    dsimp only
    omega

theorem takeOut_of_present {pre post : List Occupant} {o : Occupant} (hx : y.sectionOf sid = some x) (hd : x.state ≠ .disturbed)
    (hl : x.occupants = pre ++ o :: post) (hpre : ∀ p ∈ pre, p.entered ≤ p.exited) (ho : o.exited < o.entered)
    (hc : y.cutAt o.slot = some c) : y.takeOut e sid = (some (o.slot, o.exited == 0),
      if leftAfter pre post o c.axles = [] then (emptied sid x y).toldClear e sid
      else (y.putSection sid (some (x.relist (leftAfter pre post o c.axles)))).restartStall e sid) := by
  have haxles : y.axlesOf o.slot = c.axles := by rw [Yard.axlesOf, hc]; rfl
  have hleft : exitFirst y.axlesOf x.occupants = leftAfter pre post o c.axles := by rw [hl, exitFirst_append hpre ho, haxles]; rfl
  rw [Yard.takeOut, hx]
  dsimp only
  rw [if_neg hd, hl, find_present_append hpre ho, ← hl]
  dsimp only
  rw [hleft]
  simp only [List.isEmpty_iff]
  split
  next hnil =>
    rw [hnil]
    cases sid <;> rfl
  · rfl

/-- The emptied section's yard, field by field (R41). -/
theorem emptied_eq (sid : SectionId) (x : Section) (y : Yard) : emptied sid x y =
    { y.putSection sid (some { x.relist [] with state := .clear, stallTimer := none, stallFlag := false }) with
        control := { y.control with stall := if x.stallFlag = true then y.control.stall - 1 else y.control.stall } } := by
  refine yard_ext_aside (fun s => ?_) ?_ (by simp [aside, emptied])
  · have hput : ∀ m : ModeControl, ({ y.putSection sid (some { x.relist [] with state := .clear, stallTimer := none, stallFlag := false }) with
        control := m } : Yard).sectionOf s =
        (y.putSection sid (some { x.relist [] with state := .clear, stallTimer := none, stallFlag := false })).sectionOf s :=
      fun m => sectionOf_of_fields rfl rfl s
    rw [sectionOf_emptied, hput, Yard.sectionOf_putSection]
  · rw [control_emptied]
    cases x.stallFlag <;> rfl

theorem exitStep : ExitStep := by
  intro e y sid x hx
  refine ⟨fun hd => ?_, fun hd => ⟨fun pre post o c hl hpre ho hc => ?_, fun habsent => ?_⟩⟩
  · rw [takeOut_of_disturbed hx hd, Yard.lowerRaw, Yard.modifySection, hx]
  · have hout := takeOut_of_present (e := e) hx hd hl hpre ho hc
    by_cases hnil : leftAfter pre post o c.axles = []
    · rw [if_pos hnil] at hout
      have hsection : ((emptied sid x y).toldClear e sid).sectionOf sid =
          some { x.relist [] with state := .clear, stallTimer := none, stallFlag := false } := by
        rw [sectionOf_of_standing (standing_toldClear e sid _), sectionOf_emptied, if_pos rfl]
      refine ⟨_, _, hout, hsection, hnil.symm, rfl, fun hcount hlast => ?_, fun _ => ⟨rfl, rfl, rfl, fun w hw => ?_⟩, fun h => absurd rfl h,
        fun other hne => ?_⟩
      · rw [hcount, hl]
        refine Eq.trans ?_ (axleCount_leftAfter ho hlast)
        rw [hnil]
        rfl
      · subst hw
        rw [← emptied_eq]
        exact ⟨fun hs => by subst hs; rfl, fun q hs => by subst hs; rfl⟩
      · rw [sectionOf_of_standing (standing_toldClear e sid _), sectionOf_emptied, if_neg (Ne.symm hne)]
    · rw [if_neg hnil] at hout
      have hsections : ∀ s, ((y.putSection sid (some (x.relist (leftAfter pre post o c.axles)))).restartStall e sid).sectionOf s =
          if sid = s then some { x.relist (leftAfter pre post o c.axles) with
            stallFlag := false, stallTimer := some (stallExpiry e x) } else y.sectionOf s := fun s => by
        rw [sectionOf_restartStall (by rw [Yard.sectionOf_putSection, if_pos rfl]), Yard.sectionOf_putSection]
        split <;> rfl
      refine ⟨_, _, hout, (hsections sid).trans (if_pos rfl), rfl, rfl, fun hcount hlast => ?_, fun h => absurd h hnil, fun _ => ⟨rfl, rfl, rfl⟩,
        fun other hne => (hsections other).trans (if_neg (Ne.symm hne))⟩
      rw [hcount, hl]
      exact axleCount_leftAfter ho hlast
  · exact ⟨_, takeOut_of_absent hx hd habsent, becameDisturbed_disturb List.mem_cons_self hx hd⟩

/-! ## A LOST point stays LOST (R128) -/

theorem pointStateOf_of_lost {p : PointIx} {f : FaultCause} {pt : Point} (h : y.pointOf p = some pt) (hl : pt.state = .lost f) :
    y.pointStateOf p = some (.lost f) := by rw [Yard.pointStateOf, h, ← hl]; rfl

theorem planClosed_lostPoint (e : Env) (p : PointIx) (f : FaultCause) : PlanClosed e (fun y => y.pointStateOf p = some (.lost f)) where
  plan _ _ _ hy := (pointStateOf_congr (by simp) p).trans hy
  speed _ _ _ hy := (pointStateOf_congr (by simp) p).trans hy
  remove _ _ hy := hy
  pop _ _ _ hy _ := hy
  place _ w hy := by
    unfold Yard.placeWaiting
    split <;> exact hy
  divert y i q l c hy := (pointStateOf_congr (sameDrives_divertInto i q l c y).points p).trans hy
  cancelled _ _ hy := hy
  grant y w hy _ _ hel := by
    obtain ⟨origin, hl⟩ := lie_of_eligible hel
    rw [pointStateOf_grant hl]
    split
    next heq =>
      subst heq
      obtain ⟨pt, hpt, hst⟩ := Option.map_eq_some_iff.mp hy
      rw [pointLie_of_pointOf hpt, hst] at hl
      cases hl
    · exact hy

theorem lostPoint_losePoint {p q : PointIx} {f g : FaultCause} (h : y.pointStateOf p = some (.lost f)) :
    (y.losePoint e q g).pointStateOf p = some (.lost f) := by
  have hclosed := planClosed_lostPoint e p f
  cases hq : y.pointOf q with
  | none => rwa [Yard.losePoint, hq]
  | some pt =>
    cases hl : pt.state.isLost with
    | true =>
      rw [Yard.losePoint, hq]
      dsimp only
      rwa [hl, if_pos rfl]
    | false =>
      have hne : q ≠ p := fun heq => by
        subst heq
        rw [Yard.pointStateOf, hq, Option.map_some, Option.some.injEq] at h
        rw [h] at hl
        cases hl
      have hdriven : (if pt.state.inMotion then y.freeDrive e q else y).pointStateOf p = some (.lost f) := by
        split
        · exact hclosed.arbitrate (y := { y.releaseDrive q with slotsInUse := y.slotsInUse - 1 }) h
        · exact h
      have hdropped := hclosed.dropLost q hdriven
      rw [losePoint_eq hq hl]
      refine hclosed.evaluate q ?_
      rw [reportedLost, pointStateOf_congr (Yard.reportLost_points _), pointStateOf_congr (Yard.raisePoint_points _ _ _),
        pointStateOf_setPointState_of_ne hne]
      exact hdropped

/-- Losses and disturbances keep a LOST point's state. -/
theorem lossClosed_lostPoint (e : Env) (p : PointIx) (f : FaultCause) :
    LossClosed e noDebts (fun (_ : Unit) y => y.pointStateOf p = some (.lost f)) where
  plan _ := planClosed_lostPoint e p f
  losePoint _ _ _ _ hy := lostPoint_losePoint hy
  raised _ _ _ _ hy := hy
  queue _ _ _ _ _ hy := hy
  absorbed _ _ _ _ _ hy := hy
  mark _ _ c sid _ hy := (pointStateOf_congr (by simp [Yard.markDisturbed]) p).trans hy
  told _ y sid hy := by
    rw [pointStateOf_congr (Yard.reportDisturbed_points _)]
    unfold Yard.sectionTold
    repeat' split
    · exact hy
    · exact lostPoint_losePoint hy
    · exact (planClosed_lostPoint e p f).sectionNotClear _ hy
  strike _ _ _ _ _ hy := (pointStateOf_congr (by simp) p).trans hy
  release _ _ c hy := by
    unfold Yard.releaseLost
    split <;> exact hy
  lost _ _ _ _ _ _ hy := (pointStateOf_congr (by simp) p).trans hy

theorem losePoint_lost {p : PointIx} {pt : Point} (f : FaultCause) (hpt : y.pointOf p = some pt) (hl : pt.state.isLost = false) :
    (y.losePoint e p f).pointStateOf p = some (.lost f) := by
  obtain ⟨-, -, -, hpoint, -⟩ := losePoint_spec (e := e) f hpt hl
  exact pointStateOf_of_lost hpoint rfl

/-! ## The leg check (R46, R47) -/

section LegCheck

variable {p q r : PointIx} {leg named : Leg} {x x' : Started} {b : Cut} {st : CutState}

theorem legMismatch_lost (h : y.pointLie p = some named) : (y.legMismatch e p named).pointStateOf p = some (.lost .legMismatch) := by
  cases hpt : y.pointOf p with
  | none =>
    rw [Yard.pointLie, hpt] at h
    cases h
  | some pt =>
    rw [Yard.legMismatch, if_pos h]
    exact losePoint_lost _ hpt (not_motion_of_lie ((pointLie_of_pointOf hpt).symm.trans h)).2

theorem hasPlan_losePoint {f : FaultCause} (hplan : (y.planOf r).isSome = true) : ((y.losePoint e p f).planOf r).isSome = true := by
  have hclosed := planClosed_hasPlan e r
  cases hpt : y.pointOf p with
  | none => rwa [Yard.losePoint, hpt]
  | some pt =>
    cases hl : pt.state.isLost with
    | true =>
      rw [Yard.losePoint, hpt]
      dsimp only
      rwa [hl, if_pos rfl]
    | false =>
      have hdriven : ((if pt.state.inMotion then y.freeDrive e p else y).planOf r).isSome = true := by
        split
        · exact hclosed.arbitrate (y := { y.releaseDrive p with slotsInUse := y.slotsInUse - 1 }) hplan
        · exact hplan
      have hdropped := hclosed.dropLost p hdriven
      rw [losePoint_eq hpt hl]
      refine hclosed.evaluate p ?_
      generalize (if pt.state.inMotion then y.freeDrive e p else y) = a at hdropped
      rw [reportedLost, planOf_congr (y := a.dropLost e p) (by simp)]
      exact hdropped

theorem hasPlan_legMismatch (hplan : (y.planOf r).isSome = true) : ((y.legMismatch e p named).planOf r).isSome = true := by
  unfold Yard.legMismatch
  split
  · exact hasPlan_losePoint hplan
  · exact hplan

theorem traffic_legMismatch {P : Yard → Prop} (h : TrafficClosed P) (hy : P y) : P (y.legMismatch e p named) := by
  unfold Yard.legMismatch
  split
  · exact h.losePoint p _ hy
  · exact hy

theorem trafficClosed_queues (l : Table 40 (List QueueEntry)) : TrafficClosed (fun y => y.queues = l) where
  congr h hy := h.queues.trans hy
  started _ _ _ hy := by simpa using hy
  reserve _ _ hy := hy
  release _ _ hy := hy

/-- With no entry waiting the loss of a point at rest changes no cut. -/
theorem legMismatch_of_idle (hw : y.waiting = []) :
    (y.legMismatch e p named).waiting = [] ∧ (y.legMismatch e p named).slots = y.slots := by
  unfold Yard.legMismatch
  split
  next hlie =>
    cases hpt : y.pointOf p with
    | none =>
      rw [Yard.pointLie, hpt] at hlie
      cases hlie
    | some pt =>
      obtain ⟨hstill, hl⟩ := not_motion_of_lie ((pointLie_of_pointOf hpt).symm.trans hlie)
      obtain ⟨a, ha, ⟨t, ht⟩, -⟩ := losePoint_spec (e := e) .legMismatch hpt hl
      rw [hstill, if_neg Bool.false_ne_true] at ha
      subst ha
      have hdrop : a.dropLost e p = a := by
        rw [Yard.dropLost, claimOf_of_absent (by rw [Yard.waitingOf, hw]; rfl)]
      rw [ht]
      simp [reportedLost, hdrop, hw]
  · exact ⟨hw, rfl⟩

theorem markHazard_spec (hc : y.cutAt i = some c) (hx : c.started = some x) :
    (y.markHazard i).cutAt i = some { c with started := some { x with hazard := true } } ∧
      (x.hazard = false → Raised (y.markHazard i) (.cut i) 3) ∧ (y.markHazard i).queues = y.queues ∧ (y.markHazard i).plans = y.plans ∧
      (y.markHazard i).points = y.points ∧ (y.markHazard i).waiting = y.waiting := by
  rw [Yard.markHazard, startedAt_of_cutAt hc, hx]
  dsimp only
  split
  next hmarked =>
    refine ⟨?_, fun h => absurd hmarked (by rw [h]; exact Bool.false_ne_true), rfl, rfl, rfl, rfl⟩
    have hself : { x with hazard := true } = x := by rw [← hmarked]
    rw [hself, hc, ← hx]
  · refine ⟨?_, fun _ => raised_raiseCut i .hazard _, by simp, by simp, by simp, by simp⟩
    rw [Yard.cutAt_congr (Yard.raiseCut_slots _ _ _), cutAt_modifyStarted_self _ hc hx]

/-- With no entry waiting a departure changes the queue and the plan alone. -/
theorem departQueue_of_idle (hw : y.waiting = []) : (y.departQueue e q i).waiting = [] ∧ (y.departQueue e q i).slots = y.slots := by
  have hnone : (y.putQueue q ((y.queueOf q).filter (fun a => !(a.slot == i)))).waitingOf q = none := by
    rw [Yard.waitingOf, show (y.putQueue q _).waiting = [] from hw]
    rfl
  unfold Yard.departQueue
  dsimp only
  rw [withdrawFor_of_absent hnone]
  repeat' split
  · exact ⟨by simpa using hw, by simp⟩
  all_goals exact ⟨hw, rfl⟩

/-- A cut that leaves a queue heads it no more. -/
theorem queueHead_departQueue : (y.departQueue e q i).queueHead q ≠ some i := by
  intro hhead
  rw [Yard.queueHead, queueOf_departQueue, if_pos rfl] at hhead
  obtain ⟨a, ha, hai⟩ := Option.map_eq_some_iff.mp hhead
  have hmem := List.mem_of_mem_head? ha
  simp [hai] at hmem

/-- A cut that leaves a queue while no entry waits keeps its record. -/
theorem cutAt_leaveQueue_of_idle (hw : y.waiting = []) : (y.leaveQueue e q i).cutAt i = y.cutAt i := by
  obtain ⟨hwaiting, hslots⟩ := departQueue_of_idle (e := e) (i := i) (q := q) hw
  have hout : Headless (· = q) i (y.cutAt i) (y.departQueue e q i) :=
    ⟨fun r hr => by subst hr; exact queueHead_departQueue, fun w hin => absurd (hwaiting ▸ hin) List.not_mem_nil, Yard.cutAt_congr hslots i⟩
  unfold Yard.leaveQueue Yard.evaluateNewHead
  repeat' split
  · exact ((headClosed_headless e (· = q) i _).evaluate rfl hout).cut
  · exact hout.cut
  · rfl

theorem cascade_leaveQueueBelow {P : Unit → Yard → Prop} (h : CascadeClosed e noDebts P) (hy : P () y) : P () (y.leaveQueueBelow e p named i) := by
  unfold Yard.leaveQueueBelow
  split
  · exact h.leaveQueue (d := ()) _ _ hy
  · exact hy
  · exact hy

/-- The started part of a cut bound for the fallback track of the leg it took (R46 step 4). -/
def settled (l : Ladder) (f : TrackIx) (x : Started) : Started :=
  { boundTo l f none x with
      diversions := x.diversions.filter (fun d => (boundTo l f none x).route.any (fun pr => pr.1 == d.point)) }

theorem settleLeg_cut {f : TrackIx} (hc : y.cutAt i = some c) (hl : c.onLadder = true) (hx : c.started = some x)
    (hf : e.ladder.fallback p leg = some f) :
    (y.settleLeg e p leg i).cutAt i = some { c with started := some (settled e.ladder f x) } := by
  obtain ⟨hcut, -⟩ := reroute_cut (e := e) (t := f) (cause := none) hc hl hx
  rw [Yard.settleLeg, hf]
  exact (cutAt_modifyStarted_self _ hcut rfl).trans rfl

/-- The settling of a leg changes cuts and reserved counts alone. -/
theorem settleLeg_fields : (y.settleLeg e p leg i).notices = y.notices ∧ (y.settleLeg e p leg i).points = y.points ∧
    (y.settleLeg e p leg i).queues = y.queues ∧ (y.settleLeg e p leg i).plans = y.plans := by
  unfold Yard.settleLeg Yard.pruneDiversions Yard.reroute
  repeat' split
  all_goals simp

theorem hazard_of_bare {a b : Started} (h : bare a = bare b) : a.hazard = b.hazard := by
  simp only [bare, Started.mk.injEq] at h
  exact h.2.2.2.2.2.2.2.2.2.2.2

theorem legCheck_of_named (hc : y.cutAt i = some c) (hx : c.started = some x) (hleg : x.legAt p = some named) (leading : Bool) :
    y.legCheck e p leg i leading = if named = leg then (some i, y)
      else if leading then (some i, (((y.legMismatch e p named).markHazard i).leaveQueueBelow e p named i).settleLeg e p leg i)
      else (none, (y.legMismatch e p named).loseCut e i) := by
  rw [Yard.legCheck, startedAt_of_cutAt hc, hx, Option.bind_some, hleg]

end LegCheck

theorem legCheck : LegCheck := by
  intro e y p leg named i leading c x hc hl hx hleg
  have hcheck := legCheck_of_named (e := e) (leg := leg) hc hx hleg leading
  have hheld : HeldAs c c.state ((y.legMismatch e p named).cutAt i) :=
    traffic_legMismatch (P := fun y => HeldAs c c.state (y.cutAt i)) (trafficClosed_cut fun _ _ hf h => h.modifyStarted hf) (heldAs_self hc)
  refine ⟨fun hsame => by rw [hcheck, if_pos hsame], fun hne hlead => ?_, fun hne hlead => ?_⟩ <;> subst hlead
  · rw [if_neg hne, if_pos rfl] at hcheck
    obtain ⟨c1, hc1, hsame1, hst1⟩ := hheld
    obtain ⟨x1, hx1, hbare1⟩ := hsame1.started hx
    obtain ⟨hcut, hraised, hqueues, hplans, hpoints, hwaiting⟩ := markHazard_spec hc1 hx1
    have hsame : (y.legMismatch e p named).queues = y.queues := traffic_legMismatch (trafficClosed_queues y.queues) rfl
    have hlost : y.pointLie p = some named → (y.legMismatch e p named).pointStateOf p = some (.lost .legMismatch) := legMismatch_lost
    have hidle := legMismatch_of_idle (e := e) (y := y) (p := p) (named := named)
    have hplan := fun r => hasPlan_legMismatch (e := e) (y := y) (p := p) (r := r) (named := named)
    generalize y.legMismatch e p named = a at *
    have hmarked : HeldAs { c1 with started := some { x1 with hazard := true } } c.state ((a.markHazard i).cutAt i) := ⟨_, hcut, .refl _, hst1⟩
    generalize a.markHazard i = b at *
    -- the cut leaves the queue below
    have hleft : HeldAs { c1 with started := some { x1 with hazard := true } } c.state ((b.leaveQueueBelow e p named i).cutAt i) :=
      cascade_leaveQueueBelow (P := fun _ y => HeldAs _ c.state (y.cutAt i)) (cascadeClosed_of_cut e i fun _ _ hf h => h.modifyStarted hf) hmarked
    have hleftRaised : x1.hazard = false → Raised (b.leaveQueueBelow e p named i) (.cut i) 3 := fun h =>
      cascade_leaveQueueBelow (lossClosed_raised e _ _).toCascadeClosed (hraised h)
    have hleftLost : y.pointLie p = some named → (b.leaveQueueBelow e p named i).pointStateOf p = some (.lost .legMismatch) := fun h =>
      cascade_leaveQueueBelow (lossClosed_lostPoint e p _).toCascadeClosed ((pointStateOf_congr hpoints p).trans (hlost h))
    have hbelow : ∀ r, e.ladder.target p named = .point r → b.leaveQueueBelow e p named i = b.leaveQueue e r i :=
      fun r hr => by rw [Yard.leaveQueueBelow, hr]
    have hkept : b.waiting = [] → (b.leaveQueueBelow e p named i).cutAt i = b.cutAt i := fun hw => by
      unfold Yard.leaveQueueBelow
      split
      · exact cutAt_leaveQueue_of_idle hw
      all_goals rfl
    generalize b.leaveQueueBelow e p named i = d at *
    -- the cut settles its leg
    obtain ⟨c2, hc2, hsame2, hst2⟩ := hleft
    obtain ⟨x2, hx2, hbare2⟩ := hsame2.started rfl
    obtain ⟨hnotices, hpoints', hqueues', hplans'⟩ := settleLeg_fields (e := e) (y := d) (p := p) (leg := leg) (i := i)
    obtain ⟨c', x', hz, hst', hx', hhazard, hsettled⟩ : ∃ c' x', (d.settleLeg e p leg i).cutAt i = some c' ∧ c'.state = c.state ∧
        c'.started = some x' ∧ x'.hazard = true ∧ ∀ f, e.ladder.fallback p leg = some f → x' = settled e.ladder f x2 := by
      cases hf : e.ladder.fallback p leg with
      | none => exact ⟨c2, x2, by rw [Yard.settleLeg, hf, hc2], hst2, hx2, hazard_of_bare hbare2, fun f h => by cases h⟩
      | some f =>
        exact ⟨_, _, settleLeg_cut hc2 ((onLadder_of_state hst2).trans hl) hx2 hf, hst2, rfl, hazard_of_bare hbare2,
          fun g h => by cases h; rfl⟩
    refine ⟨_, c', x', hcheck, hz, hst', hx', hhazard, fun h => Raised.of_notices (hleftRaised ?_) hnotices,
      fun h => (pointStateOf_congr hpoints' p).trans (hleftLost h), fun r hr a' h rest hq ha hrest => ?_, fun f hf => ?_⟩
    · exact (hazard_of_bare hbare1).trans h
    · have hq' : b.queueOf r = a' :: h :: rest := (queueOf_congr (hqueues.trans hsame) r).trans hq
      obtain ⟨hqueue, hheads⟩ := leaveQueue_of_head (e := e) hq' ha hrest
      rw [← hbelow r hr] at hqueue hheads
      refine ⟨(queueOf_congr hqueues' r).trans hqueue, fun pl hpl => ?_⟩
      rw [planOf_congr hplans']
      exact (hheads (by rw [planOf_congr hplans]; exact hplan r (by rw [hpl]; rfl))).2
    · have hfinal := hsettled f hf
      refine ⟨by rw [hfinal]; rfl, fun v hv => ?_, fun hw hne => ?_⟩
      · rw [hfinal] at hv ⊢
        obtain ⟨pr, hpr, heq⟩ := List.any_eq_true.mp (List.mem_filter.mp hv).2
        exact ⟨pr, hpr, beq_iff_eq.mp heq⟩
      · obtain ⟨hw', hslots⟩ := hidle hw
        have hcut2 := hkept (hwaiting.trans hw')
        rw [hc2, hcut, Option.some.injEq] at hcut2
        have hresolved : x2.resolved = x.resolved := by
          rw [Yard.cutAt_congr hslots, hc, Option.some.injEq] at hc1
          subst hc1 hcut2
          rw [hx, Option.some.injEq] at hx1
          rw [← Option.some.inj hx2, ← hx1]
        rw [hfinal]
        exact if_neg fun heq => hne (heq.trans hresolved)
  · rw [if_neg hne, if_neg Bool.false_ne_true] at hcheck
    obtain ⟨c', hc', -, hst⟩ := lost_loseCut (e := e) (.inl hheld) hl
    exact ⟨_, c', hcheck, hc', hst, fun hlie => (lossClosed_lostPoint e p _).loseCut (d := ()) i (legMismatch_lost hlie)⟩

/-! ## Further axles, and axles without a cut (R49, R50) -/

/-- A section with nothing listed that is DISTURBED stands through losses and disturbances. -/
theorem lossClosed_still (e : Env) {r : Section} (hd : r.state = .disturbed) (hempty : r.occupants = []) :
    LossClosed e noDebts (fun _ y => y.sectionOf sid = some r) :=
  lossClosed_of_section e sid (Q := fun o => o = some r) (fun _ z hz hQ => absurd (by cases hQ; exact hd) hz) fun z f hQ => by
    cases hQ
    rw [hempty, List.filter_nil, ← hempty]

/-- What losses and disturbances keep of a section that has become DISTURBED. -/
theorem becameDisturbed_keep {cause : DisturbCause} {g : Yard} (h : BecameDisturbed y z sid x cause n)
    (hkeep : ∀ P : Unit → Yard → Prop, LossClosed e noDebts P → P () z → P () g) : BecameDisturbed y g sid x cause n := by
  refine ⟨hkeep (fun _ y => y.sectionOf sid = some _) (lossClosed_still e rfl rfl) h.1, fun o ho c hc hl => ?_⟩
  obtain ⟨c', hc', hst⟩ := h.2 o ho c hc hl
  obtain ⟨c'', hc'', -, hst''⟩ := hkeep (fun _ y => HeldAs c' .lost (y.cutAt o.slot)) (lossClosed_lostAs e o.slot c') ⟨c', hc', .refl c', hst⟩
  exact ⟨c'', hc'', hst''⟩

/-- A disturbance of a yard in which the cuts listed before live on. -/
theorem becameDisturbed_of_lives {cause : DisturbCause} {sids : List SectionId} (hsid : sid ∈ sids) (hx : z.sectionOf sid = some x)
    (ht : x.state ≠ .disturbed) (hlives : ∀ o ∈ x.occupants, ∀ c, y.cutAt o.slot = some c → c.onLadder = true → Lives c (z.cutAt o.slot)) :
    BecameDisturbed y (z.disturb e cause sids) sid x cause x.count := by
  rw [disturb_eq]
  refine ⟨sectionOf_disturbWith hsid hx ht, fun o ho c hc hl => ?_⟩
  obtain ⟨c', hc', -, hst⟩ := lost_disturbWith (e := e) (n := 41) (cause := cause) hsid hx ht ho (hlives o ho c hc hl) hl
  exact ⟨c', hc', hst⟩

theorem becameDisturbed_overcount (hx : z.sectionOf sid = some x) (ht : x.state ≠ .disturbed)
    (hlives : ∀ o ∈ x.occupants, ∀ c, y.cutAt o.slot = some c → c.onLadder = true → Lives c (z.cutAt o.slot)) :
    BecameDisturbed y (z.overcount e sid i) sid x .overcount x.count :=
  becameDisturbed_keep (becameDisturbed_of_lives List.mem_cons_self hx ht hlives) fun _ h hz => h.loseCut (d := ()) i hz

section Section

variable {q : PointIx} {x : Section}

theorem sectionDisturbed_iff (hx : y.sectionOf sid = some x) : y.sectionDisturbed sid = true ↔ x.state = .disturbed := by
  simp [Yard.sectionDisturbed, Yard.sectionState, hx]

theorem sectionFull_iff (hx : y.sectionOf sid = some x) : y.sectionFull sid = true ↔ 255 ≤ x.count := by
  rw [Yard.sectionFull, hx]
  exact decide_eq_true_iff

theorem lists_iff (hx : y.sectionOf sid = some x) : y.lists sid i = true ↔ ∃ o ∈ x.occupants, o.slot = i := by
  simp [Yard.lists, hx]

theorem sectionOf_axleAtPoint (sid : SectionId) : (y.axleAtPoint e q).sectionOf sid = y.sectionOf sid := by
  unfold Yard.axleAtPoint
  split
  · exact sectionOf_losePoint q _ y sid
  · rfl

theorem axleAtPoint_of_rest (h : y.pointInMotion q = false) : y.axleAtPoint e q = y := by
  rw [Yard.axleAtPoint, h, if_neg Bool.false_ne_true]

theorem not_lost_of_inMotion {st : PointState} (h : st.inMotion = true) : st.isLost = false := by
  cases st with
  | lost f => cases h
  | _ => rfl

/-- An axle that enters during a throw makes the point LOST (R137). -/
theorem axleAtPoint_of_motion (h : y.pointInMotion q = true) : (y.axleAtPoint e q).pointStateOf q = some (.lost .enteredDuringThrow) := by
  rw [Yard.axleAtPoint, if_pos h]
  obtain ⟨st, hst, hm⟩ := (pointInMotion_iff y q).mp h
  obtain ⟨pt, hpt, rfl⟩ := Option.map_eq_some_iff.mp hst
  exact losePoint_lost _ hpt (not_lost_of_inMotion hm)

theorem sectionOf_raiseRaw (sid : SectionId) (hx : y.sectionOf sid = some x) :
    (y.raiseRaw sid).sectionOf sid = some { x with count := min (x.count + 1) 255 } := by
  rw [Yard.raiseRaw, Yard.sectionOf_modifySection, if_pos rfl, hx]
  rfl

theorem entryWithoutCut_of_disturbed (hx : y.sectionOf (.point q) = some x) (hd : x.state = .disturbed) (above : Bool) :
    (y.entryWithoutCut e (.point q) above).sectionOf (.point q) = some { x with count := min (x.count + 1) 255 } := by
  rw [Yard.entryWithoutCut, (sectionDisturbed_iff hx).mpr hd]
  exact (sectionOf_axleAtPoint _).trans (sectionOf_raiseRaw _ hx)

theorem entryWithoutCut_of_trusted (hx : y.sectionOf (.point q) = some x) (hd : x.state ≠ .disturbed) (above : Bool) :
    BecameDisturbed y (y.entryWithoutCut e (.point q) above) (.point q) x (if above = true then .enteredDisturbed else .unexpectedAxle)
      (min (x.count + 1) 255) := by
  have hfalse : y.sectionDisturbed (.point q) = false := by
    rw [← Bool.not_eq_true, sectionDisturbed_iff hx]
    exact hd
  have hraised := becameDisturbed_recount (becameDisturbed_disturb (e := e) (sids := [.point q])
    (cause := if above then .enteredDisturbed else .unexpectedAxle) List.mem_cons_self hx hd) (fun n => min (n + 1) 255)
  rw [Yard.entryWithoutCut, hfalse]
  exact becameDisturbed_keep hraised fun _ h hz => h.axleAtPoint (d := ()) q hz

theorem furtherEntry : FurtherEntry := by
  intro e y q i above s hs
  refine ⟨fun pre post o hd hl hpre ho => ?_, fun h => ?_, fun hd => entryWithoutCut_of_disturbed hs hd above,
    fun hd => entryWithoutCut_of_trusted hs hd above⟩
  · have hlists : y.lists (.point q) i = true := (lists_iff hs).mpr ⟨o, by simp [hl], ho⟩
    have hfalse : y.sectionDisturbed (.point q) = false := by
      rw [← Bool.not_eq_true, sectionDisturbed_iff hs]
      exact hd
    have hentry : y.furtherEntry e q i above =
        if y.sectionFull (.point q) then y.overcount e (.point q) i else (y.credit (.point q) i).axleAtPoint e q := by
      rw [Yard.furtherEntry, hfalse, hlists]
      rfl
    have hmotion : (y.credit (.point q) i).pointInMotion q = y.pointInMotion q := pointInMotion_congr (pointStateOf_congr (by simp [Yard.credit]) q)
    refine ⟨fun hcount => ?_, fun hcount => ?_⟩
    · rw [if_neg (by rw [sectionFull_iff hs]; omega)] at hentry
      refine ⟨_, hentry, ?_, fun hm => axleAtPoint_of_motion (hmotion.trans hm), fun hr => ?_⟩
      · rw [sectionOf_axleAtPoint, Yard.credit, Yard.sectionOf_modifySection, if_pos rfl, hs, Option.map_some, hl, enterMore_append hpre ho]
        rfl
      · rw [axleAtPoint_of_rest (hmotion.trans hr)]
        simp [Yard.credit]
    · rw [hentry, if_pos ((sectionFull_iff hs).mpr hcount)]
      exact becameDisturbed_overcount hs hd fun o _ c hc _ => lives_self hc
  · rw [Yard.furtherEntry, if_pos]
    rw [Bool.or_eq_true, Bool.not_eq_true', sectionDisturbed_iff hs]
    refine h.imp_right fun h => Bool.eq_false_iff.mpr fun hlists => ?_
    obtain ⟨o, ho, hoi⟩ := (lists_iff hs).mp hlists
    exact h o ho hoi

end Section

end Sys2Proof.Proofs
end


section
/-! PROOFS. The entry of a cut's leading axle into the section of a point, step by step (R48). -/

namespace Sys2Proof.Proofs

open Sys2Proof Sys2Proof.Machine Sys2Proof.Spec

variable {e : Env} {y z : Yard} {i : SlotIx} {q r : PointIx} {s : Section} {c : Cut} {x : Started} {pass : Passage}

/-! ## The steps of the entry -/

/-- The cut out of the queue of the point (R48 step 1). -/
def outOfQueue (e : Env) (q : PointIx) (i : SlotIx) (y : Yard) : Yard := if y.inQueue q i then y.departQueue e q i else y

/-- The axle recorded in the section, before the planner is told (R48 step 3). -/
def recorded (e : Env) (q : PointIx) (i : SlotIx) (y : Yard) : Yard :=
  (outOfQueue e q i y).modifySection (.point q) (occupiedRecord e i)

/-- The axle recorded and the new head of the queue evaluated. -/
def entered (e : Env) (q : PointIx) (i : SlotIx) (y : Yard) : Yard :=
  ((recorded e q i y).sectionNotClear e q).evaluateNewHead e q (y.queueHead q == some i)

/-- The progress of a cut by one section. -/
def progressed (x : Started) : Started := { x with progress := x.progress + 1 }

theorem leadingEntry_of_disturbed (hs : y.sectionOf (.point q) = some s) (hd : s.state = .disturbed) :
    y.leadingEntry e q i pass = (y.loseCut e i).raiseRaw (.point q) := by
  rw [Yard.leadingEntry, (sectionDisturbed_iff hs).mpr hd, if_pos rfl]

theorem sections_outOfQueue (q : PointIx) (i : SlotIx) (y : Yard) :
    (∀ sid, (outOfQueue e q i y).sectionOf sid = y.sectionOf sid) ∧ (outOfQueue e q i y).control = y.control := by
  unfold outOfQueue
  split
  · exact sections_departQueue q i y
  · exact ⟨fun _ => rfl, rfl⟩

theorem leadingEntry_of_full (hs : y.sectionOf (.point q) = some s) (hd : s.state ≠ .disturbed) (hfull : 255 ≤ s.count) :
    y.leadingEntry e q i pass = ((outOfQueue e q i y).overcount e (.point q) i).evaluateNewHead e q (y.queueHead q == some i) := by
  have hout := ((sections_outOfQueue (e := e) q i y).1 (.point q)).trans hs
  rw [Yard.leadingEntry, if_neg (by rw [sectionDisturbed_iff hs]; exact hd)]
  exact if_pos ((sectionFull_iff hout).mpr hfull)

theorem leadingEntry_of_room (hs : y.sectionOf (.point q) = some s) (hd : s.state ≠ .disturbed) (hroom : s.count < 255) :
    y.leadingEntry e q i pass = (((((entered e q i y).modifyStarted i progressed).axleAtPoint e q).entryCheck e q i
      (y.listsOther (.point q) i)).joinNext e q i pass) := by
  have hout := ((sections_outOfQueue (e := e) q i y).1 (.point q)).trans hs
  rw [Yard.leadingEntry, if_neg (by rw [sectionDisturbed_iff hs]; exact hd)]
  refine (if_neg ?_).trans rfl
  rw [← outOfQueue, sectionFull_iff hout]
  omega

/-! ## Closure -/

theorem cascade_outOfQueue {P : Unit → Yard → Prop} (h : CascadeClosed e noDebts P) (hy : P () y) : P () (outOfQueue e q i y) := by
  unfold outOfQueue
  split
  · exact h.departQueue (d := ()) q i hy
  · exact hy

/-- What the planner keeps, and the changes of queues, sections and counts, and of the hazard of the entering cut. -/
structure EntryClosed (e : Env) (i : SlotIx) (P : Yard → Prop) : Prop extends PlanClosed e P where
  queue : ∀ y q l, P y → P (y.putQueue q l)
  aside : ∀ {y z : Yard}, aside z = Proofs.aside y → P y → P z
  hazard : ∀ y, P y → P (y.markHazard i)

namespace EntryClosed

variable {P : Yard → Prop}

theorem outOfQueue (h : EntryClosed e i P) (q : PointIx) (hy : P y) : P (outOfQueue e q i y) := by
  unfold Proofs.outOfQueue Yard.departQueue
  dsimp only
  repeat' split
  · exact h.plan _ _ _ (h.toPlanClosed.withdrawFor q i (h.queue _ _ _ hy))
  · exact h.queue _ _ _ hy
  · exact h.queue _ _ _ hy
  · exact hy

theorem evaluateNewHead (h : EntryClosed e i P) (q : PointIx) (was : Bool) (hy : P y) : P (y.evaluateNewHead e q was) := by
  unfold Yard.evaluateNewHead
  split
  · exact h.toPlanClosed.evaluate q hy
  · exact hy

theorem entered (h : EntryClosed e i P) (q : PointIx) (hy : P y) : P (entered e q i y) :=
  h.evaluateNewHead q _ (h.toPlanClosed.sectionNotClear q (h.aside (by simp [Proofs.aside, recorded]) (h.outOfQueue q hy)))

theorem entryCheck (h : EntryClosed e i P) (q : PointIx) (caught : Bool) (hy : P y) : P (y.entryCheck e q i caught) := by
  unfold Yard.entryCheck
  repeat' split
  · exact hy
  · exact h.divert _ _ _ _ _ (h.toPlanClosed.withdrawFor q i hy)
  · exact h.hazard _ hy
  · exact hy

theorem joinQueue (h : EntryClosed e i P) (r : PointIx) (j : SlotIx) (hy : P y) : P (y.joinQueue e r j pass) := by
  unfold Yard.joinQueue
  dsimp only
  have hjoined := h.queue _ r ((y.cancelManual e r).queueOf r ++ [pass.entryOf j]) (h.toPlanClosed.cancelManual r hy)
  split
  · exact h.toPlanClosed.evaluate r hjoined
  · exact hjoined

theorem joinNext (h : EntryClosed e i P) (q : PointIx) (hy : P y) : P (y.joinNext e q i pass) := by
  unfold Yard.joinNext
  repeat' split
  · exact h.joinQueue _ i hy
  all_goals exact hy

end EntryClosed

/-! ## Sections and queues -/

theorem sections_entered (hs : y.sectionOf (.point q) = some s) :
    (∀ sid, (entered e q i y).sectionOf sid = if .point q = sid then some (occupiedRecord e i s) else y.sectionOf sid) ∧
      (entered e q i y).control = y.control := by
  obtain ⟨hsections, hcontrol⟩ := sections_outOfQueue (e := e) q i y
  have hstand : (entered e q i y).standing = (recorded e q i y).standing := by
    unfold entered Yard.evaluateNewHead
    split <;> simp
  obtain ⟨-, -, -, -, -, -, -, hcontrol'⟩ := Yard.standing_ext hstand
  refine ⟨fun sid => ?_, hcontrol'.trans ((Yard.modifySection_control _ _ _).trans hcontrol)⟩
  rw [sectionOf_of_standing hstand, recorded, Yard.sectionOf_modifySection, hsections]
  split
  next heq =>
    rw [← heq, hs]
    rfl
  · rfl

theorem queues_entered : (∀ r, (entered e q i y).queueOf r = if q = r then (y.queueOf q).filter (fun a => !(a.slot == i)) else y.queueOf r) := by
  intro r
  have hstand : (entered e q i y).standing = (recorded e q i y).standing := by
    unfold entered Yard.evaluateNewHead
    split <;> simp
  have hqueues : (entered e q i y).queues = (outOfQueue e q i y).queues := (queues_of_standing hstand).trans (Yard.modifySection_queues _ _ _)
  rw [queueOf_congr hqueues, outOfQueue]
  split
  · exact queueOf_departQueue q i y r
  next hnot =>
    split
    next heq =>
      subst heq
      refine (List.filter_eq_self.mpr fun a ha => ?_).symm
      simpa using fun heq => hnot (inQueue_iff.mpr ⟨a, ha, heq⟩)
    · rfl

theorem sectionOf_joinNext (sid : SectionId) : (y.joinNext e q i pass).sectionOf sid = y.sectionOf sid := by
  have hjoin : ∀ r, (y.joinQueue e r i pass).sectionOf sid = y.sectionOf sid := fun r => by
    have hput : ((y.cancelManual e r).putQueue r ((y.cancelManual e r).queueOf r ++ [pass.entryOf i])).sectionOf sid = y.sectionOf sid :=
      (sectionOf_of_fields rfl rfl sid).trans (sectionOf_of_standing (Yard.standing_cancelManual e r y) sid)
    unfold Yard.joinQueue
    dsimp only
    split
    · exact (sectionOf_of_standing (Yard.standing_evaluate e r _) sid).trans hput
    · exact hput
  unfold Yard.joinNext
  repeat' split
  · exact hjoin _
  all_goals rfl

/-- The section with the leading axle recorded is what the rest of the entry leaves. -/
theorem sectionOf_leadingEntry (hs : y.sectionOf (.point q) = some s) (hd : s.state ≠ .disturbed) (hroom : s.count < 255) :
    (y.leadingEntry e q i pass).sectionOf (.point q) = some (occupiedRecord e i s) := by
  rw [leadingEntry_of_room hs hd hroom, sectionOf_joinNext, sectionOf_of_standing (Yard.standing_entryCheck e q i _ _), sectionOf_axleAtPoint,
    sectionOf_of_standing (Yard.standing_modifyStarted i progressed _), (sections_entered hs).1, if_pos rfl]

/-! ## The cut and the point -/

theorem queues_joinNext_of_ne {r : PointIx} (h : ∀ leg, (y.startedAt i).bind (fun x => x.legAt q) = some leg → e.ladder.target q leg ≠ .point r) :
    (y.joinNext e q i pass).queueOf r = y.queueOf r := by
  have hjoin : ∀ p, p ≠ r → (y.joinQueue e p i pass).queueOf r = y.queueOf r := fun p hp => by
    have hput : ((y.cancelManual e p).putQueue p ((y.cancelManual e p).queueOf p ++ [pass.entryOf i])).queueOf r = y.queueOf r := by
      rw [Yard.queueOf_putQueue, if_neg hp]
      exact queueOf_congr (queues_of_standing (Yard.standing_cancelManual e p y)) r
    unfold Yard.joinQueue
    dsimp only
    split
    · exact (queueOf_congr (queues_of_standing (Yard.standing_evaluate e p _)) r).trans hput
    · exact hput
  unfold Yard.joinNext
  split
  next leg hleg =>
    split
    next p hp => exact hjoin p fun heq => h leg hleg (heq ▸ hp)
    all_goals rfl
  · rfl

/-- The slot holds a cut in a state with a progress. -/
def AtProgress (st : CutState) (n : Nat) (o : Option Cut) : Prop := ∃ c x, o = some c ∧ c.state = st ∧ c.started = some x ∧ x.progress = n

theorem AtProgress.modifyStarted {st : CutState} {n : Nat} {f : Started → Started} (hf : ∀ x, (f x).progress = x.progress)
    (h : AtProgress st n (some c)) : AtProgress st n (some { c with started := c.started.map f }) := by
  obtain ⟨c', x, hc, hst, hx, hn⟩ := h
  cases hc
  exact ⟨_, f x, rfl, hst, by rw [hx]; rfl, (hf x).trans hn⟩

theorem trafficClosed_atProgress (i : SlotIx) (st : CutState) (n : Nat) : TrafficClosed (fun y => AtProgress st n (y.cutAt i)) :=
  trafficClosed_cut (Q := AtProgress st n) fun _ _ hf h => h.modifyStarted fun x => (bare_fields (hf x)).2.1

theorem entryClosed_atProgress (e : Env) (i : SlotIx) (st : CutState) (n : Nat) : EntryClosed e i (fun y => AtProgress st n (y.cutAt i)) where
  toPlanClosed := (trafficClosed_atProgress i st n).plan e
  queue _ _ _ hy := hy
  aside ha hy := by rwa [Yard.cutAt_congr (congrArg Aside.slots ha) i]
  hazard y hy := by
    obtain ⟨c, x, hc, hst, hx, hn⟩ := hy
    exact ⟨_, _, (markHazard_spec hc hx).1, hst, rfl, hn⟩

theorem markHazard_points (y : Yard) : (y.markHazard i).points = y.points := by
  unfold Yard.markHazard
  repeat' split
  all_goals simp

theorem entryClosed_lostPoint (e : Env) (i : SlotIx) (p : PointIx) (f : FaultCause) :
    EntryClosed e i (fun y => y.pointStateOf p = some (.lost f)) where
  toPlanClosed := planClosed_lostPoint e p f
  queue _ _ _ hy := hy
  aside ha hy := (pointStateOf_congr (congrArg Aside.points ha) p).trans hy
  hazard y hy := (pointStateOf_congr (markHazard_points y) p).trans hy

/-- A point in motion is in motion when the axle is told of (R137). -/
theorem motion_entered (h : y.pointInMotion q = true) : (entered e q i y).pointInMotion q = true := by
  obtain ⟨st, hst, hm⟩ := (pointInMotion_iff y q).mp h
  obtain ⟨pt, hpt, rfl⟩ := Option.map_eq_some_iff.mp hst
  have hclosed : EntryClosed e i (fun z => z.pointOf q = some pt ∧ ∀ l, Table.look z.drive (driveLine q l) = Table.look y.drive (driveLine q l)) :=
    { planClosed_moving_kept e q pt (fun l => Table.look y.drive (driveLine q l)) hm with
      queue := fun _ _ _ hy => hy
      aside := fun ha hy => ⟨(Yard.pointOf_congr (congrArg Aside.points ha) q).trans hy.1, fun l =>
        (congrArg (fun d => Table.look d (driveLine q l)) (congrArg Aside.drive ha)).trans (hy.2 l)⟩
      hazard := fun y hy => by
        unfold Yard.markHazard
        repeat' split
        · exact hy
        · exact ⟨(Yard.pointOf_congr (by simp) q).trans hy.1, fun l => by rw [Yard.raiseCut_drive, Yard.modifyStarted_drive]; exact hy.2 l⟩
        · exact hy }
  obtain ⟨hkept, -⟩ := hclosed.entered q ⟨hpt, fun _ => rfl⟩
  rw [Yard.pointInMotion, hkept]
  exact congrArg (fun b => some b == some true) hm

/-! ## The entering cut heads no queue (R48, R147) -/

theorem headless_putQueue {o : Option Cut} (h : ∀ r, r ≠ q → y.queueHead r ≠ some i) (hc : y.cutAt i = o) {l : List QueueEntry}
    (hl : ∀ a, l.head? = some a → a.slot ≠ i) : Headless (fun _ => True) i o (y.putQueue q l) := by
  refine headless_everywhere (fun r hr => ?_) hc
  rw [Yard.queueHead, Yard.queueOf_putQueue] at hr
  split at hr
  · obtain ⟨a, ha, hai⟩ := Option.map_eq_some_iff.mp hr
    exact hl a ha hai
  next hne => exact h r (Ne.symm hne) hr

theorem headless_outOfQueue {o : Option Cut} (h : ∀ r, r ≠ q → y.queueHead r ≠ some i) (hc : y.cutAt i = o) :
    Headless (fun _ => True) i o (outOfQueue e q i y) := by
  have hput : Headless (fun _ => True) i o (y.putQueue q ((y.queueOf q).filter (fun a => !(a.slot == i)))) :=
    headless_putQueue h hc fun a ha => by simpa using (List.mem_filter.mp (List.mem_of_mem_head? ha)).2
  unfold outOfQueue
  split
  · unfold Yard.departQueue
    dsimp only
    repeat' split
    · exact ((headClosed_headless e _ i o).withdrawFor q i hput).traffic (.modifyPlan q _ _)
    · exact hput
    · exact hput
  next hnot =>
    refine headless_everywhere (fun r hr => ?_) hc
    by_cases hrq : r = q
    · subst hrq
      obtain ⟨a, ha, hai⟩ := Option.map_eq_some_iff.mp hr
      exact hnot (inQueue_iff.mpr ⟨a, List.mem_of_mem_head? ha, hai⟩)
    · exact h r hrq hr

theorem headless_raise {o : Option Cut} (k : NoticeKey) (n : Nat) (h : Headless (fun _ => True) i o y) :
    Headless (fun _ => True) i o (y.raise k n) := h.congr rfl (fun _ hw => .inl hw) rfl

theorem headless_entered {o : Option Cut} (h : ∀ r, r ≠ q → y.queueHead r ≠ some i) (hc : y.cutAt i = o) :
    Headless (fun _ => True) i o (entered e q i y) := by
  have hrecorded : Headless (fun _ => True) i o (recorded e q i y) :=
    (headless_outOfQueue (e := e) h hc).congr (by simp [recorded]) (fun _ _ => .inr trivial) (Yard.cutAt_congr (by simp [recorded]) i)
  have htold := (headClosed_headless e _ i o).sectionNotClear (fun _ _ => headless_raise _ _) (q := q) trivial hrecorded
  unfold entered Yard.evaluateNewHead
  split
  · exact (headClosed_headless e _ i o).evaluate trivial htold
  · exact htold

theorem startedAt_progressed {o : Option Cut} (h : Headless (fun _ => True) i o y) (hc : o = some c) (hx : c.started = some x) :
    Headless (fun _ => True) i (some { c with started := some (progressed x) }) (y.modifyStarted i progressed) := by
  subst hc
  exact headless_everywhere (fun r hr => h.queues r trivial (by rwa [queueHead_of_queues (y := y) (by simp)] at hr))
    (cutAt_modifyStarted_self progressed h.cut hx)

/-- An axle that enters during a throw marks its cut (R137, R153). -/
theorem hazard_leadingEntry (hs : y.sectionOf (.point q) = some s) (hd : s.state ≠ .disturbed) (hroom : s.count < 255)
    (hc : y.cutAt i = some c) (hx : c.started = some x) {leg : Leg} (hleg : x.legAt q = some leg)
    (hheads : ∀ r, r ≠ q → y.queueHead r ≠ some i) (hm : y.pointInMotion q = true) :
    ((y.leadingEntry e q i pass).startedAt i).map (fun w => w.hazard) = some true := by
  have hprogressed := startedAt_progressed (headless_entered (e := e) hheads hc) rfl hx
  have hmoving : ((entered e q i y).modifyStarted i progressed).pointInMotion q = true :=
    (pointInMotion_congr (pointStateOf_congr (by simp) q)).trans (motion_entered (e := e) (i := i) hm)
  have hlost := axleAtPoint_of_motion (e := e) hmoving
  have hkept : Headless (fun _ => True) i (some { c with started := some (progressed x) })
      (((entered e q i y).modifyStarted i progressed).axleAtPoint e q) := by
    rw [Yard.axleAtPoint, if_pos hmoving]
    exact (headClosed_headless e _ i _).losePoint (fun h hy => hy.traffic h) trivial _ hprogressed
  rw [leadingEntry_of_room hs hd hroom]
  generalize ((entered e q i y).modifyStarted i progressed).axleAtPoint e q = v at hlost hkept
  obtain ⟨pt, hpt, hst⟩ := Option.map_eq_some_iff.mp hlost
  have hneeds : (v.startedAt i).bind (fun w => w.legAt q) = some leg := by rw [startedAt_of_cutAt hkept.cut]; exact hleg
  have hcheck : v.entryCheck e q i (y.listsOther (.point q) i) = v.markHazard i := by
    rw [entryCheck_eq _ hpt hneeds, hst]
    rfl
  have hmarked : HeldAs { c with started := some { progressed x with hazard := true } } c.state ((v.markHazard i).cutAt i) :=
    ⟨_, (markHazard_spec hkept.cut rfl).1, .refl _, rfl⟩
  rw [hcheck]
  have hjoined : HeldAs { c with started := some { progressed x with hazard := true } } c.state
      (((v.markHazard i).joinNext e q i pass).cutAt i) := by
    have hplan : PlanClosed e (fun z => HeldAs { c with started := some { progressed x with hazard := true } } c.state (z.cutAt i)) :=
      (trafficClosed_cut fun _ _ hf h => h.modifyStarted hf).plan e
    unfold Yard.joinNext Yard.joinQueue
    dsimp only
    repeat' split
    · exact hplan.evaluate _ (hplan.cancelManual _ hmarked)
    · exact hplan.cancelManual _ hmarked
    all_goals exact hmarked
  obtain ⟨c', hc', hsame, -⟩ := hjoined
  obtain ⟨x', hx', hbare⟩ := hsame.started rfl
  rw [startedAt_of_cutAt hc', hx', Option.map_some, hazard_of_bare hbare]

/-! ## A point that lies in the leg (R152) -/

/-- The entry into the section of a point without a waiting entry: no point moves, and no other plan changes. -/
structure CalmEntry (q : PointIx) (y z : Yard) : Prop where
  drives : SameDrives y z
  plans : ∀ p, p ≠ q → z.planOf p = y.planOf p

theorem calm_recorded (hw : y.waitingOf q = none) : CalmEntry q y (recorded e q i y) ∧ (recorded e q i y).slots = y.slots ∧
    ((y.planOf q).isSome = true → ((recorded e q i y).planOf q).isSome = true) := by
  have hnone : (y.putQueue q ((y.queueOf q).filter (fun a => !(a.slot == i)))).waitingOf q = none := hw
  have hout : SameDrives y (outOfQueue e q i y) ∧ (∀ p, p ≠ q → (outOfQueue e q i y).planOf p = y.planOf p) ∧
      (outOfQueue e q i y).slots = y.slots ∧ ((y.planOf q).isSome = true → ((outOfQueue e q i y).planOf q).isSome = true) := by
    unfold outOfQueue
    split
    · refine ⟨?_, fun p hp => ?_, ?_, hasPlan_departQueue⟩
      all_goals
        unfold Yard.departQueue
        dsimp only
        rw [withdrawFor_of_absent hnone]
      · repeat' split
        · exact (show SameDrives y (y.putQueue q _) from ⟨rfl, rfl, rfl, rfl⟩).trans (sameDrives_modifyPlan q _ _)
        all_goals exact ⟨rfl, rfl, rfl, rfl⟩
      · repeat' split
        · rw [Yard.planOf_modifyPlan, if_neg (Ne.symm hp)]
          rfl
        all_goals rfl
      · repeat' split
        · simp
        all_goals rfl
    · exact ⟨⟨rfl, rfl, rfl, rfl⟩, fun _ _ => rfl, rfl, id⟩
  obtain ⟨hdrives, hplans, hslots, hplan⟩ := hout
  have hplan' : ∀ p, (recorded e q i y).planOf p = (outOfQueue e q i y).planOf p := planOf_congr (by simp [recorded])
  exact ⟨⟨hdrives.trans ⟨by simp [recorded], by simp [recorded], by simp [recorded], by simp [recorded]⟩, fun p hp => (hplan' p).trans (hplans p hp)⟩,
    (by simp [recorded] : (recorded e q i y).slots = (outOfQueue e q i y).slots).trans hslots, fun h => by rw [hplan']; exact hplan h⟩

theorem not_clear_recorded (hs : y.sectionOf (.point q) = some s) : (recorded e q i y).sectionState (.point q) = some .occupied := by
  rw [Yard.sectionState, recorded, Yard.sectionOf_modifySection, if_pos rfl, (sections_outOfQueue q i y).1, hs]
  rfl

theorem entered_eq_of_absent (hw : y.waitingOf q = none) :
    entered e q i y = (recorded e q i y).evaluateNewHead e q (y.queueHead q == some i) := by
  obtain ⟨⟨hdrives, -⟩, -⟩ := calm_recorded (e := e) (i := i) hw
  have hnone : (recorded e q i y).waitingOf q = none := by rw [Yard.waitingOf, hdrives.waiting]; exact hw
  rw [entered, Yard.sectionNotClear, claimOf_of_absent hnone]

theorem calm_entered (hs : y.sectionOf (.point q) = some s) (hw : y.waitingOf q = none) : CalmEntry q y (entered e q i y) := by
  obtain ⟨⟨hdrives, hplans⟩, -⟩ := calm_recorded (e := e) (i := i) hw
  have habsent : Absent q (recorded e q i y) := (absent_of_waitingOf hw).of_waiting hdrives.waiting
  have hshut : (recorded e q i y).sectionClear (.point q) = false := by
    rw [Yard.sectionClear, not_clear_recorded hs]
    rfl
  rw [entered_eq_of_absent hw]
  unfold Yard.evaluateNewHead
  split
  · have hquiet := quiet_evaluate e habsent hshut
    exact ⟨hdrives.trans hquiet.drives, fun p hp => (hquiet.plans p hp).trans (hplans p hp)⟩
  · exact ⟨hdrives, hplans⟩

section Lies

variable {leg : Leg}

/-- An entry through a point that lies in the cut's leg goes on to the queue below. -/
theorem leadingEntry_of_lie (hs : y.sectionOf (.point q) = some s) (hd : s.state ≠ .disturbed) (hroom : s.count < 255)
    (hc : y.cutAt i = some c) (hx : c.started = some x) (hleg : x.legAt q = some leg) (hheads : ∀ r, r ≠ q → y.queueHead r ≠ some i)
    (hlie : y.pointLie q = some leg) (hw : y.waitingOf q = none) :
    y.leadingEntry e q i pass = ((entered e q i y).modifyStarted i progressed).joinNext e q i pass := by
  have hprogressed := startedAt_progressed (headless_entered (e := e) hheads hc) rfl hx
  have hpoint : ((entered e q i y).modifyStarted i progressed).pointOf q = y.pointOf q :=
    Yard.pointOf_congr ((Yard.modifyStarted_points _ _ _).trans (calm_entered hs hw).drives.points) q
  rw [leadingEntry_of_room hs hd hroom]
  generalize (entered e q i y).modifyStarted i progressed = d at hpoint hprogressed
  cases hpt : y.pointOf q with
  | none =>
    rw [Yard.pointLie, hpt] at hlie
    cases hlie
  | some pt =>
    have hm := (pointLie_of_pointOf hpt).symm.trans hlie
    have hrest : d.pointInMotion q = false := by
      rw [Yard.pointInMotion, hpoint, hpt, Option.map_some, (not_motion_of_lie hm).1]
      rfl
    have hneeds : (d.startedAt i).bind (fun w => w.legAt q) = some leg := by rw [startedAt_of_cutAt hprogressed.cut]; exact hleg
    rw [axleAtPoint_of_rest hrest, entryCheck_eq _ (hpoint.trans hpt) hneeds, hm]
    dsimp only
    rw [if_pos rfl]

theorem joinNext_point (hneeds : (y.startedAt i).bind (fun w => w.legAt q) = some leg) (ht : e.ladder.target q leg = .point r) :
    y.joinNext e q i pass = y.joinQueue e r i pass := by
  rw [Yard.joinNext, hneeds]
  dsimp only
  rw [ht]

theorem joinNext_end (hneeds : (y.startedAt i).bind (fun w => w.legAt q) = some leg) (ht : ∀ r, e.ladder.target q leg ≠ .point r) :
    y.joinNext e q i pass = y := by
  rw [Yard.joinNext, hneeds]
  dsimp only
  split
  next r hr => exact absurd hr (ht r)
  all_goals rfl

theorem queueOf_joinQueue (r : PointIx) : (y.joinQueue e r i pass).queueOf r = y.queueOf r ++ [pass.entryOf i] := by
  have hput : ((y.cancelManual e r).putQueue r ((y.cancelManual e r).queueOf r ++ [pass.entryOf i])).queueOf r = y.queueOf r ++ [pass.entryOf i] := by
    rw [Yard.queueOf_putQueue, if_pos rfl, queueOf_congr (queues_of_standing (Yard.standing_cancelManual e r y))]
  unfold Yard.joinQueue
  dsimp only
  split
  · exact (queueOf_congr (queues_of_standing (Yard.standing_evaluate e r _)) r).trans hput
  · exact hput

/-- A cut that joins the empty queue of a point without an entry has the point evaluated. -/
theorem joinQueue_of_empty (hq : y.queueOf r = []) (hw : y.waitingOf r = none) :
    y.joinQueue e r i pass = (y.putQueue r [pass.entryOf i]).evaluate e r := by
  have hcancel : y.cancelManual e r = y := by rw [Yard.cancelManual, claimOf_of_absent hw]
  rw [Yard.joinQueue, hcancel, hq]
  rfl

/-- The point entered stands apart from what the cut does at the next one. -/
theorem apart_joinQueue {pt : Option Point} {pl : Option Plan} (hr : r ≠ q) (h : Apart q pt pl y) : Apart q pt pl (y.joinQueue e r i pass) := by
  have hclosed := headClosed_apart e q pt pl
  have hcancelled : Apart q pt pl (y.cancelManual e r) :=
    hclosed.cancelManual (fun _ _ hy => hy.congr (fun _ hw => .inl hw) rfl rfl) r h
  have hjoined : Apart q pt pl ((y.cancelManual e r).putQueue r ((y.cancelManual e r).queueOf r ++ [pass.entryOf i])) :=
    hcancelled.congr (fun _ hw => .inl hw) rfl rfl
  unfold Yard.joinQueue
  dsimp only
  split
  · exact hclosed.evaluate hr hjoined
  · exact hjoined

/-- A cut that comes back to the queue of a point that is not tested moves no point. -/
theorem points_joinQueue_of_absent (h : Absent q y) (hshut : y.sectionClear (.point q) = false) :
    (y.joinQueue e q i pass).points = y.points := by
  have hcancel : y.cancelManual e q = y := by rw [Yard.cancelManual, claimOf_of_absent (waitingOf_of_absent h)]
  have hquiet := quiet_evaluate (y := y.putQueue q (y.queueOf q ++ [pass.entryOf i])) e h
    hshut
  rw [Yard.joinQueue, hcancel]
  split
  · exact hquiet.drives.points
  · rfl

end Lies

/-! ## The cut behind (R146, R148) -/

/-- The new head of the queue finds the section OCCUPIED. -/
theorem planned_entered {h : QueueEntry} {rest : List QueueEntry} {pt : Point} {pl : Plan} {leg leg' : Leg} (hs : y.sectionOf (.point q) = some s)
    (hw : y.waitingOf q = none) (hhead : y.queueHead q = some i) (hq : (y.queueOf q).filter (fun a => a.slot ≠ i) = h :: rest)
    (hpt : y.pointOf q = some pt) (hbar : pt.barred = false) (hst : pt.state = .proved leg) (hpl : y.planOf q = some pl)
    (hcfg : e.ladder.config q ≠ none) (hneeds : (y.startedAt h.slot).bind (fun w => w.legAt q) = some leg') (hne : leg' ≠ leg) :
    planned (entered e q i y) q = some (.waitingClear, some h.slot, some leg') := by
  obtain ⟨⟨hdrives, -⟩, hslots, hplan⟩ := calm_recorded (e := e) (i := i) hw
  obtain ⟨cfg, hcfg⟩ := Option.ne_none_iff_exists'.mp hcfg
  obtain ⟨r, hr⟩ := Option.isSome_iff_exists.mp (hplan (by rw [hpl]; rfl))
  have hnone : (recorded e q i y).waitingOf q = none := by rw [Yard.waitingOf, hdrives.waiting]; exact hw
  have hqueue : (recorded e q i y).queueOf q = h :: rest := by
    have hkept := queues_entered (e := e) (q := q) (i := i) (y := y) q
    rw [if_pos rfl] at hkept
    have hstand : (entered e q i y).standing = (recorded e q i y).standing := by
      unfold entered Yard.evaluateNewHead
      split <;> simp
    rw [← queueOf_congr (queues_of_standing hstand), hkept, ← hq]
    exact congrArg (fun p => List.filter p (y.queueOf q)) (funext fun a => by by_cases ha : a.slot = i <;> simp [ha])
  have hjudges : Judges e (recorded e q i y) q h pt cfg leg' := judges_of_cons hqueue ((Yard.pointOf_congr hdrives.points q).trans hpt) hcfg
    (by rw [Yard.startedAt, Yard.cutAt_congr hslots]; exact hneeds)
  have heval := evaluate_not_clear hjudges hr (.inr hnone) (show pt.state.lie = some leg by rw [hst]; rfl) (Ne.symm hne)
    (available_of_proved hst hbar) (by rw [not_clear_recorded hs]; exact fun h => by cases h)
  have hnew : entered e q i y = (recorded e q i y).evaluate e q := by
    rw [entered_eq_of_absent hw, Yard.evaluateNewHead, hqueue, hhead, beq_self_eq_true]
    rfl
  rw [hnew, heval]
  exact planned_of_planOf (planOf_putPlan q _ _)

/-! ## The entry of a leading axle (R48) -/

theorem leadingEntry_disturbed (hs : y.sectionOf (.point q) = some s) (hd : s.state = .disturbed) (hc : y.cutAt i = some c)
    (hl : c.onLadder = true) : (∃ c', (y.leadingEntry e q i pass).cutAt i = some c' ∧ c'.state = .lost) ∧
      ∃ s', (y.leadingEntry e q i pass).sectionOf (.point q) = some s' ∧ s'.state = .disturbed ∧ s'.cause = s.cause ∧
        s'.count = min (s.count + 1) 255 := by
  obtain ⟨c', hc', -, hst⟩ := lost_loseCut (e := e) (lives_self hc) hl
  obtain ⟨l, hsec⟩ := (lossClosed_disturbed e (.point q) hd).loseCut (d := ()) i ⟨s.occupants, hs⟩
  rw [leadingEntry_of_disturbed hs hd]
  exact ⟨⟨c', (Yard.cutAt_congr (by simp [Yard.raiseRaw]) i).trans hc', hst⟩, _, sectionOf_raiseRaw _ hsec, hd, rfl, rfl⟩

theorem leadingEntry_full (hs : y.sectionOf (.point q) = some s) (hd : s.state ≠ .disturbed) (hfull : 255 ≤ s.count)
    (hc : y.cutAt i = some c) (hl : c.onLadder = true) : BecameDisturbed y (y.leadingEntry e q i pass) (.point q) s .overcount s.count ∧
      ∃ c', (y.leadingEntry e q i pass).cutAt i = some c' ∧ c'.state = .lost := by
  have hlives : ∀ j b, y.cutAt j = some b → Lives b ((outOfQueue e q i y).cutAt j) := fun j b hb =>
    cascade_outOfQueue (lossClosed_lives e j b).toCascadeClosed (lives_self hb)
  have hout := ((sections_outOfQueue (e := e) q i y).1 (.point q)).trans hs
  have hlost := lost_loseCut (e := e) ((lossClosed_lives e i c).disturb (d := ()) .overcount [.point q] (hlives i c hc)) hl
  obtain ⟨c', hc', -, hst⟩ := (lossClosed_lostAs e i c).evaluateNewHead (d := ()) q (y.queueHead q == some i) hlost
  rw [leadingEntry_of_full hs hd hfull]
  exact ⟨becameDisturbed_keep (becameDisturbed_overcount hout hd fun o _ b hb _ => hlives o.slot b hb) fun _ h hz => h.evaluateNewHead (d := ()) q _ hz,
    c', hc', hst⟩

theorem leadingEntry_cut (hs : y.sectionOf (.point q) = some s) (hd : s.state ≠ .disturbed) (hroom : s.count < 255)
    (hc : y.cutAt i = some c) (hx : c.started = some x) : AtProgress c.state (x.progress + 1) ((y.leadingEntry e q i pass).cutAt i) := by
  obtain ⟨b, w, hb, hst, hw, hn⟩ := (entryClosed_atProgress e i c.state x.progress).entered q ⟨c, x, hc, rfl, hx, rfl⟩
  have hprogressed : AtProgress c.state (x.progress + 1) (((entered e q i y).modifyStarted i progressed).cutAt i) :=
    ⟨_, _, cutAt_modifyStarted_self progressed hb hw, hst, rfl, congrArg (· + 1) hn⟩
  have haxle : AtProgress c.state (x.progress + 1) ((((entered e q i y).modifyStarted i progressed).axleAtPoint e q).cutAt i) := by
    unfold Yard.axleAtPoint
    split
    · exact (trafficClosed_atProgress i _ _).losePoint q _ hprogressed
    · exact hprogressed
  rw [leadingEntry_of_room hs hd hroom]
  exact (entryClosed_atProgress e i c.state _).joinNext q ((entryClosed_atProgress e i c.state _).entryCheck q _ haxle)

theorem leadingEntry_lost (hs : y.sectionOf (.point q) = some s) (hd : s.state ≠ .disturbed) (hroom : s.count < 255)
    (hm : y.pointInMotion q = true) : (y.leadingEntry e q i pass).pointStateOf q = some (.lost .enteredDuringThrow) := by
  have hclosed := entryClosed_lostPoint e i q .enteredDuringThrow
  rw [leadingEntry_of_room hs hd hroom]
  exact hclosed.joinNext q (hclosed.entryCheck q _ (axleAtPoint_of_motion
    ((pointInMotion_congr (pointStateOf_congr (by simp) q)).trans (motion_entered (e := e) (i := i) hm))))

/-- The queues, once the axle is recorded and the point is told of it. -/
theorem queueOf_checked (r : PointIx) : ((((entered e q i y).modifyStarted i progressed).axleAtPoint e q).entryCheck e q i
    (y.listsOther (.point q) i)).queueOf r = if q = r then (y.queueOf q).filter (fun a => !(a.slot == i)) else y.queueOf r := by
  have haxle : (((entered e q i y).modifyStarted i progressed).axleAtPoint e q).queues = (entered e q i y).queues := by
    have hprogressed : ((entered e q i y).modifyStarted i progressed).queues = (entered e q i y).queues := by simp
    unfold Yard.axleAtPoint
    split
    · exact (trafficClosed_queues _).losePoint q _ hprogressed
    · exact hprogressed
  rw [queueOf_congr ((queues_of_standing (Yard.standing_entryCheck e q i _ _)).trans haxle), queues_entered]

theorem leadingEntry_queue (hs : y.sectionOf (.point q) = some s) (hd : s.state ≠ .disturbed) (hroom : s.count < 255)
    (hnext : ∀ leg, e.ladder.target q leg ≠ .point q) : ∀ w ∈ (y.leadingEntry e q i pass).queueOf q, w.slot ≠ i := by
  intro w hw
  rw [leadingEntry_of_room hs hd hroom, queues_joinNext_of_ne fun leg _ => hnext leg, queueOf_checked, if_pos rfl] at hw
  simpa using (List.mem_filter.mp hw).2

/-- What the entry through a point without an entry leaves, before the cut joins the next queue. -/
structure Through (e : Env) (q : PointIx) (i : SlotIx) (c : Cut) (x : Started) (leg : Leg) (y d : Yard) : Prop where
  cut : d.cutAt i = some { c with started := some (progressed x) }
  needs : (d.startedAt i).bind (fun w => w.legAt q) = some leg
  drives : SameDrives y d
  plans : ∀ p, p ≠ q → d.planOf p = y.planOf p
  planned : planned d q = planned (entered e q i y) q
  sections : ∀ p, p ≠ q → d.sectionOf (.point p) = y.sectionOf (.point p)
  shut : d.sectionClear (.point q) = false
  control : d.control = y.control
  queues : ∀ r, d.queueOf r = if q = r then (y.queueOf q).filter (fun a => a.slot ≠ i) else y.queueOf r
  absent : Absent q d

theorem through_entered {leg : Leg} (hs : y.sectionOf (.point q) = some s) (hc : y.cutAt i = some c) (hx : c.started = some x)
    (hleg : x.legAt q = some leg) (hheads : ∀ r, r ≠ q → y.queueHead r ≠ some i) (hw : y.waitingOf q = none) :
    Through e q i c x leg y ((entered e q i y).modifyStarted i progressed) := by
  have hcut := (startedAt_progressed (headless_entered (e := e) hheads hc) rfl hx).cut
  have hcalm := calm_entered (e := e) (i := i) hs hw
  obtain ⟨hsections, hcontrol⟩ := sections_entered (e := e) (i := i) hs
  have hstand : ((entered e q i y).modifyStarted i progressed).standing = (entered e q i y).standing := by simp
  have hplans : ((entered e q i y).modifyStarted i progressed).plans = (entered e q i y).plans := by simp
  have hdrives := hcalm.drives.trans (sameDrives_modifyStarted i progressed (entered e q i y))
  have hfilter : ∀ a : QueueEntry, (!(a.slot == i)) = decide (a.slot ≠ i) := fun a => by by_cases ha : a.slot = i <;> simp [ha]
  obtain ⟨-, -, -, -, -, -, -, hcontrol'⟩ := Yard.standing_ext hstand
  refine ⟨hcut, by rw [startedAt_of_cutAt hcut]; exact hleg, hdrives, fun p hp => (planOf_congr hplans p).trans (hcalm.plans p hp),
    by rw [planned, planOf_congr hplans]; rfl, fun p hp => ?_, ?_, hcontrol'.trans hcontrol, fun r => ?_, (absent_of_waitingOf hw).of_waiting hdrives.waiting⟩
  · rw [sectionOf_of_standing hstand, hsections, if_neg fun heq => hp (by cases heq; rfl)]
  · rw [Yard.sectionClear, Yard.sectionState, sectionOf_of_standing hstand, hsections, if_pos rfl]
    rfl
  · rw [queueOf_congr (queues_of_standing hstand), queues_entered, funext hfilter]

namespace Through

variable {d : Yard} {leg : Leg}

/-- The cut comes back to the queue that it leads itself: no point moves. -/
theorem joined_again (h : Through e q i c x leg y d) : (d.joinQueue e q i pass).pointOf q = y.pointOf q ∧
    ((y.queueOf q).filter (fun a => a.slot ≠ i) ≠ [] → Spec.planned (d.joinQueue e q i pass) q = Spec.planned (entered e q i y) q) := by
  have hcancel : d.cancelManual e q = d := by rw [Yard.cancelManual, claimOf_of_absent (waitingOf_of_absent h.absent)]
  refine ⟨(Yard.pointOf_congr (points_joinQueue_of_absent h.absent h.shut) q).trans (Yard.pointOf_congr h.drives.points q), fun hsome => ?_⟩
  have hbusy : (d.queueOf q).isEmpty = false := by
    rw [h.queues, if_pos rfl]
    exact List.isEmpty_eq_false_iff.mpr hsome
  rw [Yard.joinQueue, hcancel, hbusy]
  exact h.planned

/-- The cut joins the queue of another point: the point behind it stands apart, and the point ahead is evaluated for it where it is
alone. -/
theorem joined_next (h : Through e q i c x leg y d) (hr : r ≠ q) :
    (d.joinQueue e r i pass).pointOf q = y.pointOf q ∧ Spec.planned (d.joinQueue e r i pass) q = Spec.planned (entered e q i y) q ∧
      (d.joinQueue e r i pass).queueOf r = y.queueOf r ++ [pass.entryOf i] ∧
      (y.queueOf r = [] → y.waitingOf r = none → ∃ w : Yard, d.joinQueue e r i pass = w.evaluate e r ∧
        w.queueOf r = (d.joinQueue e r i pass).queueOf r ∧ w.startedAt i = some (progressed x) ∧ w.pointOf r = y.pointOf r ∧
        w.sectionOf (.point r) = y.sectionOf (.point r) ∧ w.planOf r = y.planOf r ∧ w.waiting = y.waiting ∧
        w.slotsInUse = y.slotsInUse ∧ w.control = y.control) := by
  have hapart := apart_joinQueue (e := e) (i := i) (pass := pass) hr (⟨h.absent, rfl, rfl⟩ : Apart q (d.pointOf q) (d.planOf q) d)
  have hqueue : (d.joinQueue e r i pass).queueOf r = y.queueOf r ++ [pass.entryOf i] := by
    rw [queueOf_joinQueue, h.queues, if_neg (Ne.symm hr)]
  refine ⟨hapart.point.trans (Yard.pointOf_congr h.drives.points q), by rw [Spec.planned, hapart.plan, ← Spec.planned, h.planned], hqueue,
    fun hempty hnone => ?_⟩
  have hdempty : d.queueOf r = [] := by rw [h.queues, if_neg (Ne.symm hr), hempty]
  have hdnone : d.waitingOf r = none := by rw [Yard.waitingOf, h.drives.waiting]; exact hnone
  have hsection : (d.putQueue r [pass.entryOf i]).sectionOf (.point r) = d.sectionOf (.point r) := sectionOf_of_fields rfl rfl _
  refine ⟨_, joinQueue_of_empty hdempty hdnone, ?_, startedAt_of_cutAt h.cut, Yard.pointOf_congr h.drives.points r,
    hsection.trans (h.sections r hr), h.plans r hr, h.drives.waiting, h.drives.slotsInUse, h.control⟩
  rw [hqueue, Yard.queueOf_putQueue, if_pos rfl, hempty, List.nil_append]

end Through

/-- The entry through a point that lies in the cut's leg, and has no waiting entry: the point stands, the cut joins the queue below,
and the cut behind it waits for the section to clear. -/
theorem leadingEntry_through {leg : Leg} (hs : y.sectionOf (.point q) = some s) (hd : s.state ≠ .disturbed) (hroom : s.count < 255)
    (hc : y.cutAt i = some c) (hx : c.started = some x) (hleg : x.legAt q = some leg) (hheads : ∀ r, r ≠ q → y.queueHead r ≠ some i)
    (hlie : y.pointLie q = some leg) (hw : y.waitingOf q = none) (hz : y.leadingEntry e q i pass = z) :
    z.pointOf q = y.pointOf q ∧
      (∀ r, e.ladder.target q leg = .point r → r ≠ q →
        z.queueOf r = y.queueOf r ++ [pass.entryOf i] ∧
        (y.queueOf r = [] → y.waitingOf r = none →
          ∃ w : Yard, z = w.evaluate e r ∧ w.queueOf r = z.queueOf r ∧
            w.startedAt i = some (progressed x) ∧ w.pointOf r = y.pointOf r ∧
            w.sectionOf (.point r) = y.sectionOf (.point r) ∧ w.planOf r = y.planOf r ∧ w.waiting = y.waiting ∧
            w.slotsInUse = y.slotsInUse ∧ w.control = y.control)) ∧
      ((y.queueOf q).filter (fun a => a.slot ≠ i) ≠ [] → planned z q = planned (entered e q i y) q) ∧
      ∀ r, r ≠ q → e.ladder.target q leg ≠ .point r → z.queueOf r = y.queueOf r := by
  rw [leadingEntry_of_lie hs hd hroom hc hx hleg hheads hlie hw] at hz
  have hd := through_entered (e := e) hs hc hx hleg hheads hw
  generalize (entered e q i y).modifyStarted i progressed = d at hd hz
  have hothers : ∀ r, r ≠ q → e.ladder.target q leg ≠ .point r → z.queueOf r = y.queueOf r := fun r hr ht => by
    rw [← hz, queues_joinNext_of_ne fun l hl => by rw [hd.needs, Option.some.injEq] at hl; rwa [← hl], hd.queues, if_neg (Ne.symm hr)]
  by_cases hnext : ∃ r, e.ladder.target q leg = .point r
  · obtain ⟨r, ht⟩ := hnext
    rw [joinNext_point hd.needs ht] at hz
    subst hz
    have hone : ∀ r', e.ladder.target q leg = .point r' → r' = r := fun r' h => by rw [ht, Target.point.injEq] at h; exact h.symm
    by_cases hr : r = q
    · subst hr
      obtain ⟨hpoint, hplanned⟩ := hd.joined_again (pass := pass)
      exact ⟨hpoint, fun r' h hne => absurd (hone r' h) hne, hplanned, hothers⟩
    · obtain ⟨hpoint, hplanned, hqueue, halone⟩ := hd.joined_next (pass := pass) hr
      exact ⟨hpoint, fun r' h _ => by rw [hone r' h]; exact ⟨hqueue, halone⟩, fun _ => hplanned, hothers⟩
  · have hend : ∀ r, e.ladder.target q leg ≠ .point r := fun r h => hnext ⟨r, h⟩
    rw [joinNext_end hd.needs hend] at hz
    subst hz
    exact ⟨Yard.pointOf_congr hd.drives.points q, fun r h => absurd h (hend r), fun _ => hd.planned, hothers⟩

theorem leadingEntry : LeadingEntry := by
  intro e y z q i pass s c x hs hc hl hx hz
  subst hz
  refine ⟨fun hd => leadingEntry_disturbed hs hd hc hl, fun hd hfull => leadingEntry_full hs hd hfull hc hl, fun hd hroom =>
    ⟨?_, leadingEntry_cut hs hd hroom hc hx, leadingEntry_queue hs hd hroom, leadingEntry_lost hs hd hroom, fun leg hleg hheads =>
      ⟨hazard_leadingEntry hs hd hroom hc hx hleg hheads, fun hlie hw => ?_⟩⟩⟩
  · rw [sectionOf_leadingEntry hs hd hroom, occupiedRecord, Section.relist, axleCount_append]
    rfl
  · obtain ⟨hpoint, hjoined, hplanned, hothers⟩ := leadingEntry_through (e := e) (pass := pass) hs hd hroom hc hx hleg hheads hlie hw rfl
    refine ⟨hpoint, hjoined, fun h rest pt pl leg' hhead hq hpt hb hst hpl hcfg hn hne => (hplanned ?_).trans
      (planned_entered hs hw hhead hq hpt hb hst hpl hcfg hn hne), hothers⟩
    rw [hq]
    exact List.cons_ne_nil _ _

/-- Settles O44: the steps of a passage one by one, and the account of an arrival. -/
theorem arrivalAccountsFillAndOverfill : Obligations.ArrivalAccountsFillAndOverfill :=
  ⟨exitStep, legCheck, leadingEntry, furtherEntry, trackEntry, downhillPassage, fun y l t n =>
    ⟨(trackOf_account l t n y t).trans (if_pos rfl), fun u hu => (trackOf_account l t n y u).trans (if_neg (Ne.symm hu)), notices_account l t n y⟩⟩

end Sys2Proof.Proofs
end


section
/-! SUPPORT. The crest unit beside the entering cut through losses and disturbances (R98), the markers, and what an axle handed to the
lead makes of it (R52). -/

namespace Sys2Proof.Proofs

open Sys2Proof Sys2Proof.Machine Sys2Proof.Spec

variable {e : Env} {y z : Yard} {i j : SlotIx} {c : Cut} {k : Crest} {x : Entry} {l : List SlotIx}

/-! ## The crest unit and the entering cut -/

/-- The crest unit enters the cut while the cut is ENTERING, and absorbs it once the cut is LOST. -/
def Synced (i : SlotIx) (c : Cut) (k : Crest) (x : Entry) (y : Yard) : Prop :=
  (HeldAs c .entering (y.cutAt i) ∧ y.crest = { k with state := .entering i x }) ∨
    (HeldAs c .lost (y.cutAt i) ∧ y.crest = { k with state := .absorbing (some i) x })

theorem Synced.congr (h : Synced i c k x y) (hslots : z.slots = y.slots) (hcrest : z.crest = y.crest) : Synced i c k x z := by
  rwa [Synced, Yard.cutAt_congr hslots, hcrest]

theorem Synced.lives (h : Synced i c k x y) (hst : c.state = .entering) : Lives c (y.cutAt i) := by
  have hl : c.onLadder = true := by rw [Cut.onLadder, hst]; rfl
  refine h.imp (fun h => ?_) fun h => ⟨hl, h.1⟩
  rw [hst]
  exact h.1

theorem cascadeClosed_synced (e : Env) (i : SlotIx) (c : Cut) (k : Crest) (x : Entry) :
    CascadeClosed e noDebts (fun (_ : Unit) y => Synced i c k x y) :=
  cascadeClosed_or
    (cascadeClosed_and (cascadeClosed_of_cut e i fun _ _ hf h => h.modifyStarted hf)
      (cascadeClosed_of_crest e fun a _ => a = { k with state := .entering i x }))
    (cascadeClosed_and (lossClosed_lostAs e i c).toCascadeClosed
      (cascadeClosed_of_crest e fun a _ => a = { k with state := .absorbing (some i) x }))

theorem absorbIfEntering_of_other (h : ∀ x, y.crest.state ≠ .entering j x) : y.absorbIfEntering j = y := by
  unfold Yard.absorbIfEntering
  split
  next a x hx =>
    refine if_neg fun haj => h x ?_
    rw [hx, haj]
  all_goals rfl

theorem synced_absorbIfEntering (hji : j ≠ i) (h : Synced i c k x y) : Synced i c k x (y.absorbIfEntering j) := by
  rwa [absorbIfEntering_of_other]
  intro x' hx'
  obtain ⟨-, h⟩ | ⟨-, h⟩ := h <;> rw [h] at hx' <;> cases hx'
  exact hji rfl

theorem synced_loseAt (hst : c.state = .entering) (n : Nat) (j : SlotIx) (h : Synced i c k x y) : Synced i c k x (y.loseAt e n j) := by
  induction n generalizing j y with
  | zero => exact h
  | succ n ih =>
    by_cases hon : ∃ b, y.cutAt j = some b ∧ b.onLadder = true
    · obtain ⟨b, hb, hbl⟩ := hon
      by_cases hji : j = i
      · subst hji
        have hl : c.onLadder = true := by rw [Cut.onLadder, hst]; rfl
        exact .inr ⟨lost_loseAt n (h.lives hst) hl, absorbing_loseAt n hb hbl (h.imp And.right And.right)⟩
      · refine (cascadeClosed_synced e i c k x).loseAt_of_marked (d := ()) (fun d a z hz => ih a hz)
          (fun z hz => synced_absorbIfEntering hji hz) hb hbl ?_
        have hcut : (y.modifyCut j (fun z => { z with state := .lost })).cutAt i = y.cutAt i := by rw [Yard.cutAt_modifyCut, if_neg hji]
        rwa [Synced, hcut, Yard.modifyCut_crest]
    · rwa [CascadeClosed.loseAt_of_off (n + 1) fun b hb => Bool.eq_false_iff.mpr fun hbl => hon ⟨b, hb, hbl⟩]

theorem synced_disturb (hst : c.state = .entering) (cause : DisturbCause) (sids : List SectionId) (h : Synced i c k x y) :
    Synced i c k x (y.disturb e cause sids) :=
  (cascadeClosed_synced e i c k x).disturbWith (d := ()) (fun _ j _ hz => synced_loseAt hst 42 j hz) cause sids h

/-- A crest unit that enters no cut is left alone. -/
theorem lossClosed_crest (e : Env) (h : ∀ i x, k.state ≠ .entering i x) : LossClosed e noDebts (fun (_ : Unit) y => y.crest = k) :=
  lossClosed_of_crest e (Q := fun a _ => a = k) fun _ _ j x ha hk => absurd ha (hk ▸ h j x)

/-! ## Markers -/

theorem look_modifyCut_hold {n : Word16} {b : Bool} (f : Cut → Cut) (h : Table.look y.slots j = some (.hold n b)) :
    Table.look (y.modifyCut i f).slots j = some (.hold n b) := by
  unfold Yard.modifyCut
  split
  next c hc =>
    rw [Yard.look_putSlot, if_neg, h]
    rintro rfl
    rw [Yard.cutAt, h] at hc
    cases hc
  · exact h

/-- Losses and disturbances leave every marker alone. -/
theorem lossClosed_hold (e : Env) (j : SlotIx) (n : Word16) (b : Bool) :
    LossClosed e noDebts (fun (_ : Unit) y => Table.look y.slots j = some (.hold n b)) := by
  have hkept : ∀ {y z : Yard}, z.slots = y.slots → Table.look y.slots j = some (.hold n b) → Table.look z.slots j = some (.hold n b) :=
    fun h hy => by rwa [h]
  refine { toCascadeClosed := ?_, lost := fun _ y i c _ _ => look_modifyCut_hold _, absorbed := fun _ _ _ _ _ => hkept rfl }
  exact TrafficClosed.cascade ⟨fun h => hkept h.slots, fun i f _ => look_modifyCut_hold _, fun t n => hkept (by simp),
    fun t n => hkept (by simp)⟩ e (fun q l _ => hkept rfl) (fun c sid _ => hkept (by simp [Yard.markDisturbed]))
      (fun sid i _ => hkept (by simp))

/-- The head of the list is judged with the crest IDLE (R102). -/
theorem markerJudged_of_idle (hlist : z.pendingList = y.pendingList) (hidle : z.crest.state = .idle)
    (hhold : ∀ j n, Table.look y.slots j = some (.hold n false) → Table.look z.slots j = some (.hold n false)) :
    MarkerJudged y z.judgeMarker := by
  intro j rest n hl hj
  rw [judgeMarker_of_idle (hlist.trans hl) (hhold j n hj) hidle]
  exact ⟨(Yard.look_putSlot j j _ _).trans (if_pos rfl), raised_raise (by omega) (by omega) .device _⟩

/-! ## Axles handed to the lead (R52) -/

/-- The lead and the lost cuts of one yard are those of another. -/
def LeadKept (z g : Yard) : Prop :=
  g.lead = z.lead ∧ ∀ j c, z.cutAt j = some c → c.state = .lost → ∃ c', g.cutAt j = some c' ∧ c'.state = .lost

/-- The lead is that of the first yard, and its cuts on the ladder are on the ladder in the second. -/
def LeadFrom (y a : Yard) : Prop :=
  a.lead = y.lead ∧ ∀ j c, y.cutAt j = some c → c.onLadder = true → ∃ c', a.cutAt j = some c' ∧ c'.onLadder = true

theorem becameDisturbed_between {a g : Yard} {s : Section} {cause : DisturbCause} {n : Nat} (hfrom : LeadFrom y a) (hkept : LeadKept z g)
    (h : BecameDisturbed a z .lead s cause n) : BecameDisturbed y g .lead s cause n := by
  refine ⟨hkept.1.trans h.1, fun o ho c hc hl => ?_⟩
  obtain ⟨c1, hc1, hl1⟩ := hfrom.2 o.slot c hc hl
  obtain ⟨c2, hc2, hst⟩ := h.2 o ho c1 hc1 hl1
  exact hkept.2 o.slot c2 hc2 hst

theorem unlistedInLead_between {a g : Yard} (hfrom : LeadFrom y a) (hkept : LeadKept z g) (h : UnlistedInLead a z) : UnlistedInLead y g := by
  intro s hs
  obtain ⟨h1, h2⟩ := h s (hfrom.1.trans hs)
  exact ⟨fun hd => hkept.1.trans (h1 hd), fun hd => becameDisturbed_between hfrom hkept (h2 hd)⟩

theorem furtherInLead_between {a g : Yard} (hfrom : LeadFrom y a) (hkept : LeadKept z g) (h : FurtherInLead a z i) : FurtherInLead y g i := by
  intro s hs
  obtain ⟨h1, h2⟩ := h s (hfrom.1.trans hs)
  refine ⟨fun hd => unlistedInLead_between hfrom hkept (h1 hd), fun pre post o hd hl hpre ho => ?_⟩
  obtain ⟨h3, h4⟩ := h2 pre post o hd hl hpre ho
  exact ⟨fun hcount => hkept.1.trans (h3 hcount), fun hcount => becameDisturbed_between hfrom hkept (h4 hcount)⟩

theorem handUnlisted_unlistedInLead (e : Env) (y : Yard) : UnlistedInLead y (y.handUnlisted e) := by
  intro s hs
  have hx : y.sectionOf .lead = some s := hs
  refine ⟨fun hd => ?_, fun hd => ?_⟩
  · rw [Yard.handUnlisted, if_pos ((sectionDisturbed_iff hx).mpr hd)]
    exact sectionOf_raiseRaw .lead hx
  · rw [Yard.handUnlisted, if_neg (mt (sectionDisturbed_iff hx).mp hd)]
    exact becameDisturbed_recount (becameDisturbed_disturb List.mem_cons_self hx hd) (fun n => min (n + 1) 255)

theorem handFurther_of_disturbed {s : Section} (hs : y.lead = some s) (hd : s.state = .disturbed) :
    y.handFurther e i = y.raiseRaw .lead := by
  have hx : y.sectionOf .lead = some s := hs
  rw [Yard.handFurther, if_pos ((sectionDisturbed_iff hx).mpr hd)]

theorem handFurther_of_unlisted {s : Section} (hs : y.lead = some s) (h : s.state = .disturbed ∨ ∀ o ∈ s.occupants, o.slot ≠ i) :
    y.handFurther e i = y.handUnlisted e := by
  have hx : y.sectionOf .lead = some s := hs
  by_cases hd : y.sectionDisturbed .lead = true
  · rw [Yard.handFurther, if_pos hd, Yard.handUnlisted, if_pos hd]
  · rw [Yard.handFurther, if_neg hd, if_neg]
    rw [lists_iff hx]
    rintro ⟨o, ho, hoi⟩
    exact h.elim (mt (sectionDisturbed_iff hx).mpr hd) fun h => h o ho hoi

theorem handFurther_of_listed {s : Section} (hs : y.lead = some s) (hd : s.state ≠ .disturbed) (h : ∃ o ∈ s.occupants, o.slot = i) :
    y.handFurther e i = if 255 ≤ s.count then y.overcount e .lead i else y.credit .lead i := by
  have hx : y.sectionOf .lead = some s := hs
  rw [Yard.handFurther, if_neg (mt (sectionDisturbed_iff hx).mp hd), if_pos ((lists_iff hx).mpr h)]
  exact if_congr (sectionFull_iff hx) rfl rfl

theorem handFurther_furtherInLead (e : Env) (y : Yard) (i : SlotIx) : FurtherInLead y (y.handFurther e i) i := by
  intro s hs
  refine ⟨fun h => ?_, fun pre post o hd hl hpre ho => ?_⟩
  · rw [handFurther_of_unlisted hs h]
    exact handUnlisted_unlistedInLead e y
  · have hx : y.sectionOf .lead = some s := hs
    rw [handFurther_of_listed hs hd ⟨o, by simp [hl], ho⟩]
    refine ⟨fun hcount => ?_, fun hcount => ?_⟩
    · rw [if_neg (Nat.not_le.mpr hcount)]
      have hcredit : (y.credit .lead i).sectionOf .lead = _ := Yard.sectionOf_modifySection .lead .lead _ y
      rw [if_pos rfl, hx, Option.map_some, hl, enterMore_append hpre ho] at hcredit
      exact hcredit
    · rw [if_pos hcount]
      exact becameDisturbed_overcount hx hd fun o _ c hc _ => lives_self hc

/-! ## What an axle handed to the lead keeps -/

theorem handUnlisted_keeps {P : Unit → Yard → Prop} (h : LossClosed e noDebts P) (hsection : ∀ y f, P () y → P () (y.modifySection .lead f))
    (hy : P () y) : P () (y.handUnlisted e) := by
  unfold Yard.handUnlisted
  split
  · exact hsection _ _ hy
  · exact hsection _ _ (h.disturb (d := ()) _ _ hy)

theorem handFurther_keeps {P : Unit → Yard → Prop} (h : LossClosed e noDebts P) (hsection : ∀ y f, P () y → P () (y.modifySection .lead f))
    (hy : P () y) : P () (y.handFurther e i) := by
  unfold Yard.handFurther
  repeat' split
  · exact hsection _ _ hy
  · exact h.overcount (d := ()) _ _ hy
  · exact hsection _ _ hy
  · exact handUnlisted_keeps h hsection hy

theorem synced_handUnlisted (hst : c.state = .entering) (h : Synced i c k x y) : Synced i c k x (y.handUnlisted e) := by
  unfold Yard.handUnlisted
  split
  · exact h.congr (by simp [Yard.raiseRaw]) (by simp [Yard.raiseRaw])
  · exact (synced_disturb (e := e) hst .unlisted [.lead] h).congr (by simp [Yard.raiseRaw]) (by simp [Yard.raiseRaw])

theorem synced_handFurther (hst : c.state = .entering) (h : Synced i c k x y) : Synced i c k x (y.handFurther e j) := by
  unfold Yard.handFurther
  repeat' split
  · exact h.congr (by simp [Yard.raiseRaw]) (by simp [Yard.raiseRaw])
  · exact synced_loseAt hst 42 j (synced_disturb (e := e) hst .overcount [.lead] h)
  · exact h.congr (by simp [Yard.credit]) (by simp [Yard.credit])
  · exact synced_handUnlisted hst h

end Sys2Proof.Proofs
end


section
/-! PROOFS. Crest axles that start no cut, and uphill passages at C (R90, R91, R93, R98 to R103). -/

namespace Sys2Proof.Proofs

open Sys2Proof Sys2Proof.Machine Sys2Proof.Spec

variable {e : Env} {y z : Yard} {i j : SlotIx} {c : Cut} {k : Crest} {x : Entry} {pass : Passage}

theorem deliver_crestDownhill (hdown : pass.direction = .downhill) : y.deliver e crestHead pass = y.crestDownhill e pass := by
  unfold Yard.deliver
  rw [hdown]
  rfl

theorem deliver_crestUphill (hup : pass.direction = .uphill) : y.deliver e crestHead pass = y.crestUphill e := by
  unfold Yard.deliver
  rw [hup]
  rfl

/-! ## Changes that the lead does not see -/

theorem LeadKept.refl (y : Yard) : LeadKept y y := ⟨rfl, fun _ c hc hst => ⟨c, hc, hst⟩⟩

theorem LeadFrom.refl (y : Yard) : LeadFrom y y := ⟨rfl, fun _ c hc hl => ⟨c, hc, hl⟩⟩

theorem leadKept_of_cuts (hlead : z.lead = y.lead) (hcut : ∀ j, z.cutAt j = y.cutAt j) : LeadKept y z :=
  ⟨hlead, fun j c hc hst => ⟨c, (hcut j).trans hc, hst⟩⟩

theorem leadFrom_of_slots (hlead : z.lead = y.lead) (hslots : z.slots = y.slots) : LeadFrom y z :=
  ⟨hlead, fun j c hc hl => ⟨c, (Yard.cutAt_congr hslots j).trans hc, hl⟩⟩

theorem leadKept_judged (h : LeadKept y z) : LeadKept y z.judgeMarker := by
  have hjudged := onlyMarker_judgeMarker z
  exact ⟨hjudged.lead.trans h.1, fun j c hc hst => by rw [hjudged.cutAt]; exact h.2 j c hc hst⟩

/-! ## An axle that belongs to no cut (R101) -/

theorem idleAxle_of_unlisted (h : y.control.mode = .standby ∨ y.headCut = none) : y.idleAxle e pass = y.unlistedAxle e := by
  unfold Yard.idleAxle
  obtain h | h := h <;> rw [h]
  cases y.control.mode <;> rfl

theorem headCut_of_none (h : ∀ i rest c, y.pendingList = i :: rest → y.cutAt i = some c → c.state ≠ .pending) : y.headCut = none := by
  unfold Yard.headCut
  split
  next i hi =>
    obtain ⟨rest, hrest⟩ : ∃ rest, y.pendingList = i :: rest := List.head?_eq_some_iff.mp hi
    rw [Option.map_eq_none_iff, Option.filter_eq_none_iff]
    exact fun c hc hp => h i rest c hrest hc (by simpa using hp)
  · rfl

theorem unlistedCrestAxle : UnlistedCrestAxle := by
  intro e y pass hdown hidle hhead
  have hz : y.deliver e crestHead pass = y.unlistedAxle e := by
    rw [deliver_crestDownhill hdown, Yard.crestDownhill, hidle]
    exact idleAxle_of_unlisted (hhead.imp_right headCut_of_none)
  have hcrest : (y.handUnlisted e).crest = y.crest :=
    handUnlisted_keeps (lossClosed_crest e fun i x hx => by rw [hidle] at hx; cases hx) (fun _ _ h => by simpa using h) rfl
  refine ⟨_, hz, ?_, ?_, (Yard.Runs.handUnlisted e (.refl y)).pendingList, fun j n b hj => ?_⟩
  · exact unlistedInLead_between (.refl y) (leadKept_of_cuts rfl fun _ => rfl) (handUnlisted_unlistedInLead e y)
  · exact congrArg (fun a : Crest => { a with previous := none }) hcrest
  · exact handUnlisted_keeps (lossClosed_hold e j n b) (fun _ _ h => by simpa using h) hj

/-! ## An axle of a lost cut (R99, R100) -/

/-- An axle of the cut that a crest unit in ABSORBING absorbs, in the lead. -/
def handAbsorbed (e : Env) (slot : Option SlotIx) (y : Yard) : Yard :=
  match slot with
  | some i => y.handFurther e i
  | none => y.handUnlisted e

theorem handAbsorbed_keeps {P : Unit → Yard → Prop} (h : LossClosed e noDebts P)
    (hsection : ∀ y f, P () y → P () (y.modifySection .lead f)) (slot : Option SlotIx) (hy : P () y) : P () (handAbsorbed e slot y) := by
  cases slot with
  | some i => exact handFurther_keeps h hsection hy
  | none => exact handUnlisted_keeps h hsection hy

theorem pendingList_handAbsorbed (slot : Option SlotIx) : (handAbsorbed e slot y).pendingList = y.pendingList := by
  cases slot with
  | some i => exact (Yard.Runs.handFurther e i (.refl y)).pendingList
  | none => exact (Yard.Runs.handUnlisted e (.refl y)).pendingList

theorem absorbedAxle : AbsorbedAxle := by
  intro e y pass slot x hdown hstate
  obtain ⟨a, ha⟩ : ∃ a, a = y.modifyCrest (fun c => { c with state := .absorbing slot { x with tally := x.tally + 1 } }) := ⟨_, rfl⟩
  obtain ⟨h, hh⟩ : ∃ h, h = handAbsorbed e slot a := ⟨_, rfl⟩
  have hz : y.deliver e crestHead pass = if x.tally + 1 = x.target then h.endAbsorption else h.startGap e pass := by
    rw [deliver_crestDownhill hdown, Yard.crestDownhill, hstate, hh, ha]
    rfl
  have hfrom : LeadFrom y a := leadFrom_of_slots (by rw [ha]; rfl) (by rw [ha]; rfl)
  have hcrest : h.crest = { y.crest with state := .absorbing slot { x with tally := x.tally + 1 } } := by
    rw [hh]
    exact handAbsorbed_keeps (lossClosed_crest e fun i x' hx => by cases hx) (fun _ _ h => by simpa using h) slot (by rw [ha]; rfl)
  have hlist : h.pendingList = y.pendingList := by
    rw [hh, pendingList_handAbsorbed, ha]
    rfl
  have hhold : ∀ j n, Table.look y.slots j = some (.hold n false) → Table.look h.slots j = some (.hold n false) := fun j n hj => by
    rw [hh]
    exact handAbsorbed_keeps (lossClosed_hold e j n false) (fun _ _ h => by simpa using h) slot (by rw [ha]; exact hj)
  have hfurther : ∀ g, LeadKept h g → (∀ i, slot = some i → FurtherInLead y g i) ∧ (slot = none → UnlistedInLead y g) := fun g hg => by
    subst hh
    exact ⟨fun i hi => by subst hi; exact furtherInLead_between hfrom hg (handFurther_furtherInLead e a i),
      fun hi => by subst hi; exact unlistedInLead_between hfrom hg (handUnlisted_unlistedInLead e a)⟩
  by_cases htally : x.tally + 1 = x.target
  · have hjudged := onlyMarker_judgeMarker (h.modifyCrest fun c => { c with state := .idle, timer := none, previous := none })
    obtain ⟨hfur, hunl⟩ := hfurther h.endAbsorption (leadKept_judged (leadKept_of_cuts rfl fun _ => rfl))
    refine ⟨_, hz.trans (if_pos htally), hfur, hunl, hjudged.pendingList.trans hlist,
      (congrArg Crest.nextOrder hjudged.crest).trans (congrArg Crest.nextOrder hcrest :), fun hne => absurd htally hne, fun _ =>
      ⟨congrArg Crest.state hjudged.crest, congrArg Crest.timer hjudged.crest, congrArg Crest.previous hjudged.crest, ?_⟩⟩
    exact markerJudged_of_idle hlist rfl hhold
  · obtain ⟨hfur, hunl⟩ := hfurther (h.startGap e pass) (leadKept_of_cuts rfl fun _ => rfl)
    exact ⟨_, hz.trans (if_neg htally), hfur, hunl, hlist, (congrArg Crest.nextOrder hcrest :),
      fun _ => ⟨(congrArg Crest.state hcrest :), rfl, (congrArg Crest.previous hcrest :)⟩, fun heq => absurd heq htally⟩

/-! ## A further axle of the entering cut (R91, R93) -/

/-- One more axle of the entering cut is counted (R91). -/
def counted (i : SlotIx) (x : Entry) (y : Yard) : Yard :=
  (y.modifyCrest (fun c => { c with state := .entering i { x with tally := x.tally + 1 } })).modifyStarted i
    (fun z => { z with crestAxles := x.tally + 1 })

/-- The record of the entering cut with one more axle counted. -/
def countedCut (x : Entry) (c : Cut) (z : Started) : Cut := { c with started := some { z with crestAxles := x.tally + 1 } }

section Further

variable {z0 : Started}

theorem cutAt_counted (hc : y.cutAt i = some c) (hz : c.started = some z0) :
    (counted i x y).cutAt i = some (countedCut x c z0) :=
  cutAt_modifyStarted_self (y := y.modifyCrest _) _ hc hz

theorem crest_counted : (counted i x y).crest = { y.crest with state := .entering i { x with tally := x.tally + 1 } } :=
  Yard.modifyStarted_crest i _ _

theorem leadFrom_counted (hc : y.cutAt i = some c) (hz : c.started = some z0) : LeadFrom y (counted i x y) := by
  refine ⟨Yard.modifyStarted_lead i _ _, fun j b hb hl => ?_⟩
  by_cases hij : i = j
  · subst hij
    cases hc.symm.trans hb
    exact ⟨_, cutAt_counted hc hz, hl⟩
  · refine ⟨b, ?_, hl⟩
    rw [counted, Yard.cutAt_modifyStarted, if_neg hij]
    exact hb

/-- The yard after the axle is handed to the lead: the cut goes on in ENTERING, or is LOST and absorbed (R52, R98). -/
structure HandedFurther (y : Yard) (i : SlotIx) (x : Entry) (c : Cut) (z0 : Started) (h : Yard) (c2 : Cut) (z2 : Started) : Prop where
  cut : h.cutAt i = some c2
  started : c2.started = some z2
  crestAxles : z2.crestAxles = x.tally + 1
  axles : c2.axles = c.axles
  number : c2.number = c.number
  further : ∀ g, LeadKept h g → FurtherInLead y g i
  pendingList : h.pendingList = y.pendingList
  holds : ∀ j n, Table.look y.slots j = some (.hold n false) → Table.look h.slots j = some (.hold n false)
  stays : ∀ s, y.lead = some s → s.state = .disturbed ∨ ((∃ o ∈ s.occupants, o.slot = i) ∧ s.count < 255) → c2 = countedCut x c z0
  overfull : ∀ s, y.lead = some s → s.state ≠ .disturbed → (∃ o ∈ s.occupants, o.slot = i) → 255 ≤ s.count → c2.state = .lost
  synced : (c2.state = .entering ∧ h.crest = { y.crest with state := .entering i { x with tally := x.tally + 1 } }) ∨
    (c2.state = .lost ∧ h.crest = { y.crest with state := .absorbing (some i) { x with tally := x.tally + 1 } })

theorem handedFurther (e : Env) (hc : y.cutAt i = some c) (hst : c.state = .entering) (hz : c.started = some z0) :
    ∃ c2 z2, HandedFurther y i x c z0 ((counted i x y).handFurther e i) c2 z2 := by
  have hcut := cutAt_counted (x := x) hc hz
  have hfrom := leadFrom_counted (x := x) hc hz
  have hstart : Synced i (countedCut x c z0) y.crest { x with tally := x.tally + 1 } (counted i x y) :=
    .inl ⟨⟨_, hcut, .refl _, hst⟩, crest_counted⟩
  have hsynced := synced_handFurther (e := e) (j := i) (c := countedCut x c z0) hst hstart
  obtain ⟨c2, hc2, hsame, hstate⟩ : ∃ c2, ((counted i x y).handFurther e i).cutAt i = some c2 ∧ SameCut (countedCut x c z0) c2 ∧
      ((c2.state = .entering ∧ ((counted i x y).handFurther e i).crest = _) ∨ (c2.state = .lost ∧ ((counted i x y).handFurther e i).crest = _)) := by
    obtain ⟨⟨c2, hc2, hsame, hst2⟩, hcrest⟩ | ⟨⟨c2, hc2, hsame, hst2⟩, hcrest⟩ := hsynced
    · exact ⟨c2, hc2, hsame, .inl ⟨hst2, hcrest⟩⟩
    · exact ⟨c2, hc2, hsame, .inr ⟨hst2, hcrest⟩⟩
  obtain ⟨z2, hz2, hbare⟩ := hsame.started rfl
  refine ⟨c2, z2, hc2, hz2, (bare_fields hbare).2.2.1, hsame.axles, hsame.number, fun g hg => ?_, ?_, fun j n hj => ?_, fun s hs h => ?_,
    fun s hs hd hin hfull => ?_, hstate⟩
  · exact furtherInLead_between hfrom hg (handFurther_furtherInLead e _ i)
  · rw [(Yard.Runs.handFurther e i (.refl (counted i x y))).pendingList]
    exact Yard.modifyStarted_pendingList i _ _
  · exact handFurther_keeps (lossClosed_hold e j n false) (fun _ _ h => by simpa using h)
      (look_modifyCut_hold (y := y.modifyCrest _) _ hj)
  · have hlead := hfrom.1.trans hs
    have hslots : ((counted i x y).handFurther e i).slots = (counted i x y).slots := by
      by_cases hd : s.state = .disturbed
      · rw [handFurther_of_disturbed hlead hd]
        simp [Yard.raiseRaw]
      · obtain ⟨hin, hcount⟩ := h.resolve_left hd
        rw [handFurther_of_listed hlead hd hin, if_neg (Nat.not_le.mpr hcount)]
        simp [Yard.credit]
    rw [Yard.cutAt_congr hslots, hcut] at hc2
    exact (Option.some.inj hc2).symm
  · have hlead := hfrom.1.trans hs
    rw [handFurther_of_listed hlead hd hin, if_pos hfull] at hc2
    have hdisturbed := synced_disturb (e := e) (c := countedCut x c z0) hst .overcount [.lead] hstart
    obtain ⟨c3, hc3, -, hst3⟩ := lost_loseCut (e := e) (hdisturbed.lives hst) (c := countedCut x c z0) (by rw [Cut.onLadder]; simp [countedCut, hst])
    cases hc2.symm.trans hc3
    exact hst3

theorem HandedFurther.whole {c2 : Cut} {z2 : Started} {s : Section} (h : HandedFurther y i x c z0 z c2 z2) (hst : c.state = .entering)
    (hs : y.lead = some s) (hin : s.state = .disturbed ∨ ((∃ o ∈ s.occupants, o.slot = i) ∧ s.count < 255)) :
    c2.state ≠ .lost ∧ z2 = { z0 with crestAxles := x.tally + 1 } := by
  have hwhole := h.stays s hs hin
  have hz2 := h.started
  rw [hwhole] at hz2
  exact ⟨by rw [hwhole]; exact fun hl => CutState.noConfusion (hst.symm.trans hl), (Option.some.inj hz2).symm⟩

theorem furtherCrestAxle : FurtherCrestAxle := by
  intro e y pass i x c z0 hdown hstate hc hst hz
  obtain ⟨c2, z2, h⟩ := handedFurther (x := x) e hc hst hz
  have hdeliver : y.deliver e crestHead pass = y.furtherCrestAxle e i x pass := by
    rw [deliver_crestDownhill hdown, Yard.crestDownhill, hstate]
  obtain ⟨a, ha⟩ : ∃ a, a = (counted i x y).handFurther e i := ⟨_, rfl⟩
  have hfurther : y.furtherCrestAxle e i x pass =
      if x.tally + 1 = x.target then
        match a.crest.state with
        | .entering _ _ => a.leaveEntering i x.number pass.instant pass.longAgo
        | .absorbing _ _ => a.endAbsorption
        | .idle => a
      else a.startGap e pass := by
    rw [ha]
    rfl
  rw [← ha] at h
  by_cases htally : x.tally + 1 = x.target
  · obtain ⟨hst2, hcrest⟩ | ⟨hst2, hcrest⟩ := h.synced
    · obtain ⟨b, hb⟩ : ∃ b, b = leftCrest i x.number pass.instant pass.longAgo
        (a.modifyCut i (fun c => if c.state = .entering then { c with state := .rolling } else c)) := ⟨_, rfl⟩
      have hz : y.deliver e crestHead pass = b.judgeMarker := by
        rw [hdeliver, hfurther, if_pos htally, hcrest, hb]
        rfl
      have hj := onlyMarker_judgeMarker b
      have hcut : b.cutAt i = some { c2 with state := .rolling } := by
        have hmodified := Yard.cutAt_modifyCut i i (fun c => if c.state = .entering then { c with state := .rolling } else c) a
        rw [if_pos rfl, h.cut, Option.map_some, if_pos hst2] at hmodified
        rw [hb]
        exact hmodified
      have hlist : b.pendingList = y.pendingList := by
        rw [hb]
        exact (Yard.modifyCut_pendingList i _ a).trans h.pendingList
      refine ⟨_, _, z2, hz, h.further _ (leadKept_judged ⟨?_, fun j d hd hlost => ⟨d, ?_, hlost⟩⟩), hj.pendingList.trans hlist,
        (congrArg Crest.nextOrder hj.crest).trans ?_, (hj.cutAt i).trans hcut, h.started, h.crestAxles, h.axles, h.number,
        fun s hs hin => ⟨CutState.noConfusion, (h.whole hst hs hin).2⟩, fun s hs hd hin hfull => ?_, fun hne => absurd htally hne, fun _ =>
        ⟨(congrArg Crest.state hj.crest).trans (by rw [hb]; rfl), (congrArg Crest.timer hj.crest).trans (by rw [hb]; rfl), ?_,
          fun _ => ⟨rfl, (congrArg Crest.previous hj.crest).trans (by rw [hb]; rfl)⟩, fun hl => CutState.noConfusion hl⟩⟩
      · rw [hb]
        exact Yard.modifyCut_lead i _ a
      · have hne : i ≠ j := by
          rintro rfl
          cases h.cut.symm.trans hd
          exact CutState.noConfusion (hst2.symm.trans hlost)
        rw [hb]
        exact (Yard.cutAt_modifyCut i j _ a).trans ((if_neg hne).trans hd)
      · rw [hb]
        exact (congrArg Crest.nextOrder (Yard.modifyCut_crest i _ a)).trans ((congrArg Crest.nextOrder hcrest :))
      · exact CutState.noConfusion (hst2.symm.trans (h.overfull s hs hd hin hfull))
      · refine markerJudged_of_idle hlist (by rw [hb]; rfl) fun j n hj => ?_
        rw [hb]
        exact look_modifyCut_hold _ (h.holds j n hj)
    · obtain ⟨b, hb⟩ : ∃ b, b = a.modifyCrest (fun x => { x with state := .idle, timer := none, previous := none }) := ⟨_, rfl⟩
      have hz : y.deliver e crestHead pass = b.judgeMarker := by
        rw [hdeliver, hfurther, if_pos htally, hcrest, hb]
        rfl
      have hj := onlyMarker_judgeMarker b
      subst hb
      exact ⟨_, c2, z2, hz, h.further _ (leadKept_judged (leadKept_of_cuts rfl fun _ => rfl)), hj.pendingList.trans h.pendingList,
        (congrArg Crest.nextOrder hj.crest).trans ((congrArg Crest.nextOrder hcrest :)), (hj.cutAt i).trans h.cut, h.started,
        h.crestAxles, h.axles, h.number, fun s hs hin => h.whole hst hs hin, h.overfull, fun hne => absurd htally hne, fun _ =>
        ⟨congrArg Crest.state hj.crest, congrArg Crest.timer hj.crest, markerJudged_of_idle h.pendingList rfl h.holds,
          fun hl => absurd hst2 hl, fun _ => congrArg Crest.previous hj.crest⟩⟩
  · have hz : y.deliver e crestHead pass = a.startGap e pass := by rw [hdeliver, hfurther, if_neg htally]
    have hcrest : a.crest.nextOrder = y.crest.nextOrder ∧ a.crest.previous = y.crest.previous := by
      obtain ⟨-, hcrest⟩ | ⟨-, hcrest⟩ := h.synced <;> rw [hcrest] <;> exact ⟨rfl, rfl⟩
    refine ⟨_, c2, z2, hz, h.further _ (leadKept_of_cuts rfl fun _ => rfl), h.pendingList, hcrest.1, h.cut, h.started, h.crestAxles,
      h.axles, h.number, fun s hs hin => h.whole hst hs hin, h.overfull, fun _ => ⟨rfl, hcrest.2, fun hl => ?_, fun hl => ?_⟩,
      fun heq => absurd heq htally⟩
    · obtain ⟨hst2, hcrest⟩ | ⟨hst2, -⟩ := h.synced
      · exact ⟨hst2, congrArg Crest.state hcrest⟩
      · exact absurd hst2 hl
    · obtain ⟨hst2, -⟩ | ⟨-, hcrest⟩ := h.synced
      · exact CutState.noConfusion (hst2.symm.trans hl)
      · exact congrArg Crest.state hcrest

end Further

/-! ## Uphill passages (R103) -/

theorem rollback_crest (e : Env) (y : Yard) : y.rollback e crestHead = (y.disturb e .rollback [.lead]).lowerRaw .lead := rfl

theorem disturb_of_disturbed {s : Section} {cause : DisturbCause} (hs : y.lead = some s) (hd : s.state = .disturbed) :
    y.disturb e cause [.lead] = y := by
  have htrusted : y.trusted .lead = false := untrusted_iff.mp fun x hx => by
    cases hs.symm.trans hx
    exact hd
  have hfresh : CascadeClosed.fresh y [.lead] = [] := by simp [CascadeClosed.fresh, htrusted]
  rw [disturb_eq, CascadeClosed.disturbWith_eq, hfresh]
  rfl

/-- The crest unit's own change in an uphill passage. -/
def backed (y : Yard) : Yard :=
  y.modifyCrest (fun c =>
    match c.state with
    | .entering i x => { c with state := .entering i { x with tally := x.tally - 1 } }
    | .absorbing slot x => { c with state := .absorbing slot { x with tally := x.tally - 1 } }
    | .idle => { c with previous := none })

theorem crest_rollback (h : ∀ i x, y.crest.state ≠ .entering i x) : (y.rollback e crestHead).crest = y.crest := by
  rw [rollback_crest, Yard.lowerRaw, Yard.modifySection_crest]
  exact (lossClosed_crest e h).disturb (d := ()) .rollback [.lead] rfl

theorem uphillAtCrest : UphillAtCrest := by
  intro e y pass hup
  have hz : y.deliver e crestHead pass = (backed y).rollback e crestHead := deliver_crestUphill hup
  refine ⟨_, hz, (Yard.Runs.rollback e crestHead (.refl (backed y))).pendingList, fun hidle => ?_, fun slot x hstate => ?_,
    fun i x c hstate hc hst => ?_⟩
  · have hcrest : (backed y).crest = { y.crest with previous := none } := by
      rw [backed, Yard.modifyCrest]
      dsimp only
      rw [hidle]
    rw [crest_rollback fun i x hx => CrestState.noConfusion (hidle.symm.trans ((congrArg Crest.state hcrest).symm.trans hx))]
    exact hcrest
  · have hcrest : (backed y).crest = { y.crest with state := .absorbing slot { x with tally := x.tally - 1 } } := by
      rw [backed, Yard.modifyCrest]
      dsimp only
      rw [hstate]
    rw [crest_rollback fun i x hx => CrestState.noConfusion ((congrArg Crest.state hcrest).symm.trans hx)]
    exact hcrest
  · have hcrest : (backed y).crest = { y.crest with state := .entering i { x with tally := x.tally - 1 } } := by
      rw [backed, Yard.modifyCrest]
      dsimp only
      rw [hstate]
    have hstart : Synced i c y.crest { x with tally := x.tally - 1 } (backed y) := .inl ⟨⟨c, hc, .refl c, hst⟩, hcrest⟩
    have hsynced := synced_disturb (e := e) hst .rollback [.lead] hstart
    have hcut : ((backed y).rollback e crestHead).cutAt i = ((backed y).disturb e .rollback [.lead]).cutAt i :=
      Yard.cutAt_congr (by rw [rollback_crest]; simp [Yard.lowerRaw]) i
    have hsame : ((backed y).rollback e crestHead).crest = ((backed y).disturb e .rollback [.lead]).crest := by
      rw [rollback_crest]
      simp [Yard.lowerRaw]
    have hdisturbed : ∀ s, y.lead = some s → s.state = .disturbed → ((backed y).rollback e crestHead).cutAt i = some c := fun s hs hd => by
      rw [hcut, disturb_of_disturbed (y := backed y) hs hd]
      exact hc
    have hlisted : ∀ s, y.lead = some s → s.state ≠ .disturbed → (∃ o ∈ s.occupants, o.slot = i) →
        ∃ c', ((backed y).rollback e crestHead).cutAt i = some c' ∧ c'.state = .lost := fun s hs hd hin => by
      obtain ⟨o, ho, hoi⟩ := hin
      have hbecame := becameDisturbed_disturb (e := e) (cause := .rollback) (y := backed y) (sid := .lead) (sids := [.lead]) List.mem_cons_self hs hd
      subst hoi
      obtain ⟨c', hc', hst'⟩ := hbecame.2 o ho c hc (by rw [Cut.onLadder, hst]; rfl)
      exact ⟨c', hcut.trans hc', hst'⟩
    obtain ⟨c', hc', hbare, hstate'⟩ : ∃ c', ((backed y).rollback e crestHead).cutAt i = some c' ∧ SameCut c c' ∧
        ((c'.state = .entering ∧ ((backed y).rollback e crestHead).crest = _) ∨
          (c'.state = .lost ∧ ((backed y).rollback e crestHead).crest = _)) := by
      obtain ⟨⟨c', hc', hbare, hst'⟩, hk⟩ | ⟨⟨c', hc', hbare, hst'⟩, hk⟩ := hsynced
      · exact ⟨c', hcut.trans hc', hbare, .inl ⟨hst', hsame.trans hk⟩⟩
      · exact ⟨c', hcut.trans hc', hbare, .inr ⟨hst', hsame.trans hk⟩⟩
    refine ⟨c', hc', ?_, fun s hs hd => ?_, fun s hs hd hin => ?_, ?_⟩
    · cases hz0 : c.started with
      | none =>
        have hnone := hbare.bare
        rw [hz0, Option.map_none, Option.map_eq_none_iff] at hnone
        rw [hnone]
      | some z0 =>
        obtain ⟨z', hz', hb⟩ := hbare.started hz0
        rw [hz', Option.map_some, Option.map_some, (bare_fields hb).2.2.1]
    · exact Option.some.inj (hc'.symm.trans (hdisturbed s hs hd))
    · obtain ⟨c3, hc3, hst3⟩ := hlisted s hs hd hin
      cases hc'.symm.trans hc3
      exact hst3
    · obtain ⟨hst', hk⟩ | ⟨hst', hk⟩ := hstate'
      · rw [hk, if_neg fun hl => CutState.noConfusion (hst'.symm.trans hl)]
      · rw [hk, if_pos hst']

end Sys2Proof.Proofs
end


section
/-! PROOFS. The start of the head cut (R52, R89, R92, R94 to R96, R98). -/

namespace Sys2Proof.Proofs

open Sys2Proof Sys2Proof.Machine Sys2Proof.Spec

variable {s : State} {e : Env} {y z w : Yard} {i j : SlotIx} {c : Cut} {g : Started} {pass : Passage} {r : PointIx} {x : Section}

/-! ## What a started cut is given (R92 steps 2 and 3) -/

/-- The hump order that the next cut is given. -/
def nextFree (y : Yard) : Word32 := y.freeOrder 65 y.crest.nextOrder

/-- The started fields of the cut, and whether it is coupled. -/
def given (e : Env) (c : Cut) (pass : Passage) (y : Yard) : Started × Bool := y.assign e pass.instant (nextFree y) c

theorem given_coupled {n : Word16} {p : Started} (h : y.coupledTo e pass.instant = some (n, p)) :
    given e c pass y = (newStarted (nextFree y) p.resolved none p.route (some n), true) := by
  rw [given, Yard.assign, h]

theorem given_resolved (h : y.coupledTo e pass.instant = none) : given e c pass y =
    (newStarted (nextFree y) (y.resolution e.ladder c.dest c.axles).1 (y.resolution e.ladder c.dest c.axles).2
      (e.ladder.routeOf (y.resolution e.ladder c.dest c.axles).1) none, false) := by
  rw [given, Yard.assign, h]

theorem given_new : ∃ t cause route coupled, (given e c pass y).1 = newStarted (nextFree y) t cause route coupled := by
  cases h : y.coupledTo e pass.instant with
  | none => rw [given_resolved h]; exact ⟨_, _, _, _, rfl⟩
  | some a => rw [given_coupled h]; exact ⟨_, _, _, _, rfl⟩

theorem coupledTo_iff {n : Word16} {p : Started} : CoupledTo s pass n p ↔ s.yard.coupledTo s.env pass.instant = some (n, p) := by
  constructor
  · rintro ⟨q, c, hq, hc, hnum, rfl, hst, hx, hlong, hnear⟩
    have hst' : (c.state == .rolling || c.state == .arrived) = true := by simpa using hst
    have hclose : closeBehind s.env q pass.instant = true := by
      rw [closeBehind, hlong]
      exact decide_eq_true hnear
    rw [Yard.coupledTo, hq]
    dsimp only
    rw [hc]
    dsimp only
    rw [hst', hclose, hnum, beq_self_eq_true, hx, ← hnum]
    rfl
  · intro h
    unfold Yard.coupledTo at h
    split at h
    next q hq =>
      split at h
      next c hc =>
        split at h
        next hall =>
          simp only [Bool.and_eq_true, Bool.or_eq_true, beq_iff_eq, closeBehind, Bool.not_eq_true', decide_eq_true_eq] at hall
          obtain ⟨⟨hnum, hst⟩, hlong, hnear⟩ := hall
          obtain ⟨x, hx, hp⟩ := Option.map_eq_some_iff.mp h
          cases hp
          exact ⟨q, c, hq, hc, hnum, rfl, hst, hx, hlong, hnear⟩
        · cases h
      · cases h
    · cases h

/-! ## The yard with the cut started, its axle not yet handed to the lead -/

/-- The record of a cut as it is started. -/
def startedCut (c : Cut) (g : Started) : Cut := { c with state := .entering, started := some g }

/-- The cut has its record, its reservation and the crest unit (R92). -/
def begun (i : SlotIx) (c : Cut) (g : Started × Bool) (y : Yard) : Yard :=
  let made := (({ y with pendingList := y.pendingList.tail }.putSlot i (some (.cut (startedCut c g.1)))).reserve g.1.resolved c.axles)
  (if g.2 then made.raiseCut i .coupled else made).modifyCrest (fun x =>
    { x with state := .entering i { number := c.number, tally := 1, target := c.axles }, nextOrder := nextFree y + 1 })

theorem startCut_eq : y.startCut e i c pass = ((begun i c (given e c pass y) y).handLeading e i pass).startGap e pass := rfl

/-- What the start of a cut makes of the yard, beside the lead and the notices. -/
structure Begun (y : Yard) (i : SlotIx) (c : Cut) (g : Started) (w : Yard) : Prop where
  sections : w.sections = y.sections
  queues : w.queues = y.queues
  points : w.points = y.points
  plans : w.plans = y.plans
  waiting : w.waiting = y.waiting
  slotsInUse : w.slotsInUse = y.slotsInUse
  drive : w.drive = y.drive
  control : w.control = y.control
  pendingList : w.pendingList = y.pendingList.tail
  slots : w.slots = Table.put y.slots i (some (.cut (startedCut c g)))
  tracks : w.tracks = (y.reserve g.resolved c.axles).tracks
  crest : w.crest =
    { y.crest with state := .entering i { number := c.number, tally := 1, target := c.axles }, nextOrder := nextFree y + 1 }

theorem begun_begun (i : SlotIx) (c : Cut) (g : Started × Bool) (y : Yard) : Begun y i c g.1 (begun i c g y) := by
  obtain ⟨g, coupled⟩ := g
  cases coupled <;> exact ⟨rfl, rfl, rfl, rfl, rfl, rfl, rfl, rfl, rfl, rfl, rfl, rfl⟩

theorem lead_begun (i : SlotIx) (c : Cut) (g : Started × Bool) (y : Yard) : (begun i c g y).lead = y.lead := by
  obtain ⟨g, coupled⟩ := g
  cases coupled <;> rfl

theorem raised_begun (i : SlotIx) (c : Cut) (g : Started) (y : Yard) : Raised (begun i c (g, true) y) (.cut i) 5 :=
  raised_raiseCut i .coupled _

namespace Begun

theorem cutAt (h : Begun y i c g w) (j : SlotIx) : w.cutAt j = if i = j then some (startedCut c g) else y.cutAt j := by
  rw [← Yard.cutAt_putSlot_cut]
  exact Yard.cutAt_congr h.slots j

theorem cut (h : Begun y i c g w) : w.cutAt i = some (startedCut c g) := (h.cutAt i).trans (if_pos rfl)

theorem look (h : Begun y i c g w) (hj : j ≠ i) : Table.look w.slots j = Table.look y.slots j := by
  rw [h.slots, Table.look_put_of_ne _ _ (Ne.symm hj)]

theorem trackOf (h : Begun y i c g w) (k : TrackIx) : w.trackOf k =
    { y.trackOf k with reserved := (y.trackOf k).reserved + (if k = g.resolved then c.axles else 0) } := by
  rw [trackOf_congr h.tracks, Yard.trackOf_reserve]
  by_cases hk : k = g.resolved
  · rw [if_pos hk.symm, if_pos hk]
  · rw [if_neg (Ne.symm hk), if_neg hk]
    rfl

theorem synced (h : Begun y i c g w) :
    Synced i (startedCut c g) { y.crest with nextOrder := nextFree y + 1 } { number := c.number, tally := 1, target := c.axles } w :=
  .inl ⟨⟨_, h.cut, .refl _, rfl⟩, h.crest⟩

/-- The cuts listed in the lead live on: the cut that starts was not on the ladder. -/
theorem lives (h : Begun y i c g w) (hc : y.cutAt i = some c) (hp : c.state = .pending) {b : Cut} (hb : y.cutAt j = some b)
    (hl : b.onLadder = true) : Lives b (w.cutAt j) := by
  have hne : i ≠ j := by
    rintro rfl
    cases hc.symm.trans hb
    rw [Cut.onLadder, hp] at hl
    cases hl
  rw [h.cutAt, if_neg hne, hb]
  exact .inl ⟨b, rfl, .refl b, rfl⟩

end Begun

/-! ## The first axle in the lead (R52) -/

theorem handLeading_of_disturbed (hx : w.lead = some x) (hd : x.state = .disturbed) :
    w.handLeading e i pass = (w.loseCut e i).raiseRaw .lead := by
  have hlead : w.sectionOf .lead = some x := hx
  rw [Yard.handLeading, if_pos ((sectionDisturbed_iff hlead).mpr hd)]

theorem handLeading_of_full (hx : w.lead = some x) (hd : x.state ≠ .disturbed) (hfull : 255 ≤ x.count) :
    w.handLeading e i pass = w.overcount e .lead i := by
  have hlead : w.sectionOf .lead = some x := hx
  rw [Yard.handLeading, if_neg (mt (sectionDisturbed_iff hlead).mp hd), if_pos ((sectionFull_iff hlead).mpr hfull)]

/-- The first axle finds room in the lead, and the cut joins the root's queue. -/
theorem handLeading_of_room (h : ∀ x, w.lead = some x → x.state ≠ .disturbed ∧ x.count < 255) : w.handLeading e i pass =
    match e.ladder.root with
    | some r => (w.occupy e .lead i).joinQueue e r i pass
    | none => w.occupy e .lead i := by
  have hfree : w.sectionDisturbed .lead = false ∧ w.sectionFull .lead = false := by
    cases hx : w.lead with
    | none => simp [Yard.sectionDisturbed, Yard.sectionState, Yard.sectionFull, Yard.sectionOf, hx]
    | some x =>
      have hlead : w.sectionOf .lead = some x := hx
      obtain ⟨hd, hcount⟩ := h x hx
      rw [← Bool.not_eq_true, ← Bool.not_eq_true, sectionDisturbed_iff hlead, sectionFull_iff hlead]
      exact ⟨hd, Nat.not_le.mpr hcount⟩
  rw [Yard.handLeading, hfree.1, hfree.2]
  rfl

/-! ## A start into a lead that takes no axle (R49, R98) -/

/-- The cut is LOST and absorbed, with the reason raised. -/
structure LostAtStart (i : SlotIx) (c : Cut) (k : Crest) (a : Entry) (z : Yard) : Prop where
  held : HeldAs c .lost (z.cutAt i)
  raised : Raised z (.cut i) 2
  crest : z.crest = { k with state := .absorbing (some i) a }

theorem lostAtStart_loseCut {k : Crest} {a : Entry} (hst : c.state = .entering) (h : Synced i c k a y) (haloud : LostAloud i c y) :
    LostAtStart i c k a (y.loseCut e i) := by
  have hl : c.onLadder = true := by rw [Cut.onLadder, hst]; rfl
  have hheld := lost_loseCut (e := e) (h.lives hst) hl
  refine ⟨hheld, lostAloud_of_lost (lostAloud_loseAt 42 i haloud hl) hl hheld, ?_⟩
  obtain ⟨⟨b, hb, -, hbst⟩, -⟩ | ⟨-, hcrest⟩ := synced_loseAt (e := e) hst 42 i h
  · obtain ⟨b', hb', -, hbst'⟩ := hheld
    cases hb.symm.trans hb'
    exact CutState.noConfusion (hbst.symm.trans hbst')
  · exact hcrest

theorem lostAtStart_handLeading (h : Begun y i c g w) (hl : w.lead = y.lead) (hx : y.lead = some x) (hlost : x.state = .disturbed ∨ 255 ≤ x.count) :
    LostAtStart i (startedCut c g) { y.crest with nextOrder := nextFree y + 1 } { number := c.number, tally := 1, target := c.axles }
      (w.handLeading e i pass) := by
  have hlead := hl.trans hx
  have haloud : LostAloud i (startedCut c g) w := .inl (heldAs_self h.cut)
  by_cases hd : x.state = .disturbed
  · obtain ⟨hheld, hraised, hcrest⟩ := lostAtStart_loseCut (e := e) (c := startedCut c g) rfl h.synced haloud
    rw [handLeading_of_disturbed hlead hd]
    exact ⟨by rwa [Yard.cutAt_congr (y := w.loseCut e i) (by simp [Yard.raiseRaw])], Raised.of_notices hraised (by simp [Yard.raiseRaw]),
      (by simp [Yard.raiseRaw] : ((w.loseCut e i).raiseRaw .lead).crest = (w.loseCut e i).crest).trans hcrest⟩
  · rw [handLeading_of_full hlead hd (hlost.resolve_left hd)]
    exact lostAtStart_loseCut (c := startedCut c g) rfl (synced_disturb (c := startedCut c g) rfl .overcount [.lead] h.synced)
      ((cascadeClosed_lostAloud e i _).disturbWith (d := ()) (fun _ j _ hz => lostAloud_loseAt 42 j hz rfl) .overcount [.lead] haloud)

/-- A start into a DISTURBED lead, of a cut that nothing lists or queues, moves no axle between the tracks. -/
theorem trackOf_startLost (h : Begun y i c g w) (hl : w.lead = y.lead) (hunlisted : ∀ sid x, y.sectionOf sid = some x → ∀ o ∈ x.occupants, o.slot ≠ i)
    (hunqueued : ∀ q, ∀ a ∈ y.queueOf q, a.slot ≠ i) (t : TrackIx) : (w.loseCut e i).trackOf t = y.trackOf t := by
  have hlists : ∀ sid, w.lists sid i = false := fun sid => (lists_congr (sectionOf_of_fields hl h.sections sid) i).trans
    (lists_eq_false.mpr fun x hx => hunlisted sid x hx)
  have hnone : (List.finRange 40).find? (fun q => (w.modifyCut i (fun z => { z with state := .lost })).inQueue q i) = none := by
    refine List.find?_eq_none.mpr fun q _ hq => ?_
    obtain ⟨a, ha, hai⟩ := inQueue_iff.mp hq
    rw [queueOf_congr (y := y) (by simp [h.queues])] at ha
    exact hunqueued q a ha hai
  have hdequeued : CascadeClosed.dequeued e i w = w.modifyCut i (fun z => { z with state := .lost }) := by
    rw [CascadeClosed.dequeued, Yard.leaveQueues, hnone]
  have htracks : (w.loseCut e i).tracks = (w.release g.resolved c.axles).tracks := by
    rw [Yard.loseCut, cascadeDepth, loseAt_unlisted 41 hlists h.cut rfl, hdequeued]
    unfold Yard.absorbIfEntering
    have hrelease : ((w.modifyCut i (fun z => { z with state := .lost })).releaseLost (startedCut c g)).tracks =
        (w.release g.resolved c.axles).tracks := by
      have htrack : ((w.modifyCut i (fun z => { z with state := .lost })).trackOf g.resolved) = w.trackOf g.resolved :=
        trackOf_congr (by simp) _
      simp [Yard.releaseLost, startedCut, Yard.release, Yard.modifyTrack, htrack]
    repeat' split
    all_goals exact hrelease
  rw [trackOf_congr htracks, Yard.trackOf_release, h.trackOf]
  by_cases ht : g.resolved = t
  · subst ht
    rw [if_pos rfl, if_pos rfl]
    dsimp only
    rw [Nat.add_sub_cancel]
  · rw [if_neg ht, if_neg (Ne.symm ht)]
    rfl

/-- A crest axle starts the PENDING cut at the head of the list (R90). -/
theorem deliver_start {rest : List SlotIx} (hdown : pass.direction = .downhill) (hidle : y.crest.state = .idle)
    (hmode : y.control.mode = .humping ∨ y.control.mode = .halted) (hlist : y.pendingList = i :: rest) (hc : y.cutAt i = some c)
    (hp : c.state = .pending) :
    y.deliver e crestHead pass = ((begun i c (given e c pass y) y).handLeading e i pass).startGap e pass := by
  have hhead : y.headCut = some (i, c) := by simp [Yard.headCut, hlist, hc, hp]
  have hidleAxle : y.idleAxle e pass = y.startCut e i c pass := by
    unfold Yard.idleAxle
    obtain hmode | hmode := hmode <;> rw [hmode, hhead]
  rw [deliver_crestDownhill hdown, Yard.crestDownhill, hidle, ← startCut_eq]
  exact hidleAxle

theorem startIntoLostLead : StartIntoLostLead := by
  intro e y pass i rest c x hdown hidle hmode hlist hc hp hx hlost
  obtain ⟨t, cause, route, coupled, hg⟩ := given_new (e := e) (c := c) (pass := pass) (y := y)
  have hb := begun_begun i c (given e c pass y) y
  have hl := lead_begun i c (given e c pass y) y
  have hz := deliver_start (e := e) hdown hidle hmode hlist hc hp
  generalize begun i c (given e c pass y) y = w at hb hz hl
  generalize (given e c pass y).1 = g at hb hg
  obtain ⟨⟨c', hc', hsame, hst⟩, hraised, hcrest⟩ := lostAtStart_handLeading (e := e) (pass := pass) hb hl hx hlost
  obtain ⟨z', hz', hbare⟩ := hsame.started rfl
  rw [hg] at hbare
  obtain ⟨horder, -, haxles, htrack, -⟩ := bare_fields hbare
  have hlead := hl.trans hx
  have hsection : w.sectionOf .lead = some x := hlead
  refine ⟨_, c', z', hz, (Yard.Runs.handLeading e i pass (.refl w)).pendingList.trans (hb.pendingList.trans (congrArg List.tail hlist)), hc', hst,
    hsame.number, hsame.dest, hsame.axles, Raised.of_notices hraised rfl, hz', haxles, htrack, horder, ?_, fun hd hempty => ?_, fun hd => ?_,
    fun hd hunlisted hunqueued k => ?_⟩
  · have horder' : nextFree y = z'.order := horder.symm
    rw [← horder']
    exact congrArg (fun a : Crest => { a with timer := some (gapFrom e.ladder pass) }) hcrest
  · rw [handLeading_of_disturbed hlead hd]
    exact sectionOf_raiseRaw .lead ((lossClosed_still (sid := .lead) e hd hempty).loseCut (d := ()) i hsection)
  · rw [handLeading_of_full hlead hd (hlost.resolve_left hd)]
    exact becameDisturbed_congr (becameDisturbed_overcount hsection hd fun o _ b hbo hbl => hb.lives hc hp hbo hbl) rfl rfl
  · rw [handLeading_of_disturbed hlead hd]
    refine Eq.trans ?_ (trackOf_startLost (e := e) hb hl hunlisted hunqueued k)
    exact trackOf_congr (by simp [Yard.raiseRaw, Yard.startGap, Yard.modifyCrest]) k

/-! ## A start into a lead with room -/

/-- What joining a queue keeps. -/
theorem joinQueue_keeps {P : Yard → Prop} (h : PlanClosed e P) (hqueue : ∀ y q l, P y → P (y.putQueue q l)) (hy : P y) :
    P (y.joinQueue e r i pass) := by
  have hcancelled : P (y.cancelManual e r) := by
    unfold Yard.cancelManual
    split
    · exact h.arbitrate (h.cancelled _ _ (h.remove _ _ hy))
    · exact hy
  unfold Yard.joinQueue
  dsimp only
  split
  · exact h.evaluate _ (hqueue _ _ _ hcancelled)
  · exact hqueue _ _ _ hcancelled

theorem joinQueue_fields (y : Yard) : (y.joinQueue e r i pass).lead = y.lead ∧ (y.joinQueue e r i pass).crest = y.crest ∧
    (y.joinQueue e r i pass).pendingList = y.pendingList := by
  obtain ⟨hlead, -, -, hlist, hcrest, -⟩ := Yard.standing_ext (Yard.standing_cancelManual e r y)
  obtain ⟨z, hz⟩ : ∃ z, z = (y.cancelManual e r).putQueue r ((y.cancelManual e r).queueOf r ++ [pass.entryOf i]) := ⟨_, rfl⟩
  have hput : z.lead = y.lead ∧ z.crest = y.crest ∧ z.pendingList = y.pendingList := by
    rw [hz]
    exact ⟨hlead, hcrest, hlist⟩
  obtain ⟨hlead', -, -, hlist', hcrest', -⟩ := Yard.standing_ext (Yard.standing_evaluate e r z)
  unfold Yard.joinQueue
  dsimp only
  rw [← hz]
  split
  · exact ⟨hlead'.trans hput.1, hcrest'.trans hput.2.1, hlist'.trans hput.2.2⟩
  · exact hput

theorem cancelManual_of_unmanned (h : ∀ a, y.waitingOf r = some a → a.claim ≠ .manual) : y.cancelManual e r = y := by
  unfold Yard.cancelManual
  split
  next hclaim =>
    obtain ⟨a, ha, hm⟩ := Option.map_eq_some_iff.mp hclaim
    exact absurd hm (h a ha)
  · rfl

/-! ## A cut that keeps its route at the root (R148) -/

/-- The cut heads the queue of a point that lies for it, and no other queue. -/
structure Served (r : PointIx) (leg : Leg) (h : QueueEntry) (c : Cut) (pt : Point) (y : Yard) : Prop where
  queue : y.queueOf r = [h]
  heads : ∀ q, q ≠ r → y.queueHead q ≠ some h.slot
  cut : y.cutAt h.slot = some c
  point : y.pointOf r = some pt

namespace Served

variable {leg : Leg} {h : QueueEntry} {pt : Point}

theorem congr (hy : Served r leg h c pt y) (hqueues : z.queues = y.queues) (hcut : z.cutAt h.slot = y.cutAt h.slot)
    (hpoint : z.pointOf r = y.pointOf r) : Served r leg h c pt z :=
  ⟨(queueOf_congr hqueues r).trans hy.queue, fun q hq => by rw [queueHead_of_queues hqueues]; exact hy.heads q hq, hcut.trans hy.cut,
    hpoint.trans hy.point⟩

theorem modifyPlan (hy : Served r leg h c pt y) (q : PointIx) (f : Plan → Plan) : Served r leg h c pt (y.modifyPlan q f) :=
  hy.congr (by simp) (Yard.cutAt_congr (by simp) _) (Yard.pointOf_congr (by simp) r)

/-- The entry of the point goes, and the arbiter serves the other points. -/
theorem dropWaiting (hy : Served r leg h c pt y) : Served r leg h c pt (y.dropWaiting e r) := by
  unfold Yard.dropWaiting
  split
  · have habsent : ∀ v ∈ (y.removeWaiting r).waiting, v.point ≠ r := fun v hv => by simpa using (List.mem_filter.mp hv).2
    have hheadless : Headless (· ≠ r) h.slot (some c) (y.removeWaiting r) := ⟨hy.heads, habsent, hy.cut⟩
    have hapart : Apart r (some pt) (y.planOf r) (y.removeWaiting r) := ⟨habsent, hy.point, rfl⟩
    exact hy.congr (queues_of_standing (Yard.standing_arbitrate e _))
      (((headClosed_headless e (· ≠ r) h.slot (some c)).arbitrate hheadless).cut.trans hy.cut.symm)
      (((headClosed_apart e r (some pt) (y.planOf r)).arbitrate hapart).point.trans hy.point.symm)
  · exact hy

end Served

/-- The evaluation of a point for a cut that it serves changes its plan and takes its entry out, and nothing else. -/
theorem evaluate_keeps_served {P : Yard → Prop} {leg : Leg} {h : QueueEntry} {pt : Point} (hserved : ∀ y, P y → Served r leg h c pt y)
    (hleg : c.started.bind (fun x => x.legAt r) = some leg) (hs : Spec.Serves pt.state leg) (hplan : ∀ y f, P y → P (y.modifyPlan r f))
    (hdrop : ∀ y, P y → P (y.dropWaiting e r)) (hy : P y) : P (y.evaluate e r) := by
  have hwithdraw : ∀ y j, P y → P (y.withdrawFor e r j) := fun y j hy => by
    unfold Yard.withdrawFor
    repeat' split
    · exact hdrop _ hy
    all_goals exact hy
  have hdeadline : ∀ y, P y → P (y.withdrawDeadline e r) := fun y hy => by
    unfold Yard.withdrawDeadline
    split
    · exact hdrop _ hy
    · exact hy
  have hrenewed : P (y.renewHead e r) := by
    unfold Yard.renewHead
    split
    · split
      · exact hy
      · dsimp only
        split
        · exact hplan _ _ (hwithdraw _ _ hy)
        · exact hplan _ _ hy
    · exact hy
  obtain ⟨hqueue, -, hcut, hpoint⟩ := hserved _ hrenewed
  unfold Yard.evaluate
  dsimp only
  rw [hqueue, List.head?_cons]
  dsimp only
  rw [hpoint, startedAt_of_cutAt hcut, hleg]
  split
  next hpt _ hl =>
    cases hpt
    cases hl
    rw [judgeHead_serves hs]
    exact hplan _ _ (hdeadline _ (hplan _ _ hrenewed))
  · exact hrenewed

theorem dropWaiting_of_empty (h : y.waiting = []) : y.dropWaiting e r = y := by
  have hnone : y.waitingOf r = none := by rw [Yard.waitingOf, h]; rfl
  rw [Yard.dropWaiting, hnone]
  rfl

/-- A MANUAL entry cancelled leaves the point and a cut that heads no queue alone. -/
theorem cancelManual_leaves (hheads : ∀ q, y.queueHead q ≠ some i) :
    (y.cancelManual e r).cutAt i = y.cutAt i ∧ (y.cancelManual e r).pointOf r = y.pointOf r := by
  refine ⟨((headClosed_headless e (fun _ => True) i (y.cutAt i)).cancelManual (fun _ _ hy => hy.congr rfl (fun _ => .inl) rfl) r
    (headless_everywhere hheads rfl)).cut, ?_⟩
  unfold Yard.cancelManual
  split
  · have habsent : ∀ v ∈ ((y.removeWaiting r).raisePoint r .manualCancelled).waiting, v.point ≠ r := fun v hv => by
      simpa using (List.mem_filter.mp hv).2
    exact ((headClosed_apart e r (y.pointOf r) (y.planOf r)).arbitrate ⟨habsent, rfl, rfl⟩).point
  · rfl

/-- A cut that joins the root's queue with a route that the root keeps to is not diverted there. -/
theorem joinQueue_of_kept (hc : y.cutAt i = some c) (hheads : ∀ q, y.queueHead q ≠ some i)
    (hkept : y.queueOf r ≠ [] ∨ ∃ pt leg, y.pointOf r = some pt ∧ Spec.Serves pt.state leg ∧ c.started.bind (fun x => x.legAt r) = some leg) :
    (y.joinQueue e r i pass).cutAt i = some c ∧ (y.waiting = [] → (y.joinQueue e r i pass).tracks = y.tracks) := by
  obtain ⟨hcut, hpoint⟩ := cancelManual_leaves (e := e) (r := r) hheads
  have hunmanned : y.waiting = [] → y.cancelManual e r = y := fun hw => cancelManual_of_unmanned fun a ha => by
    rw [Yard.waitingOf, hw] at ha
    cases ha
  have hqueues : (y.cancelManual e r).queues = y.queues := queues_of_standing (Yard.standing_cancelManual e r y)
  by_cases hempty : y.queueOf r = []
  · obtain ⟨pt, leg, hpt, hs, hleg⟩ := hkept.resolve_left fun h => h hempty
    obtain ⟨a, ha⟩ : ∃ a, a = (y.cancelManual e r).putQueue r [pass.entryOf i] := ⟨_, rfl⟩
    have hjoin : y.joinQueue e r i pass = a.evaluate e r := by
      rw [ha, Yard.joinQueue, queueOf_congr hqueues, hempty]
      rfl
    have hqueue : a.queueOf r = [pass.entryOf i] := by rw [ha, Yard.queueOf_putQueue, if_pos rfl]
    have hserved : Served r leg (pass.entryOf i) c pt a := by
      refine ⟨hqueue, fun q hq => ?_, by rw [ha]; exact hcut.trans hc, by rw [ha]; exact hpoint.trans hpt⟩
      rw [ha, Yard.queueHead, Yard.queueOf_putQueue, if_neg (Ne.symm hq), queueOf_congr hqueues]
      exact hheads q
    rw [hjoin]
    refine ⟨(evaluate_keeps_served (P := Served r leg (pass.entryOf i) c pt) (fun _ h => h) hleg hs (fun _ f h => h.modifyPlan r f)
      (fun _ h => h.dropWaiting) hserved).cut, fun hw => ?_⟩
    have hbare : a.waiting = [] ∧ a.tracks = y.tracks := by rw [ha, hunmanned hw]; exact ⟨hw, rfl⟩
    refine (evaluate_keeps_served (P := fun z => Served r leg (pass.entryOf i) c pt z ∧ z.waiting = [] ∧ z.tracks = y.tracks)
      (fun _ h => h.1) hleg hs (fun z f h => ⟨h.1.modifyPlan r f, by simp [h.2.1], by simp [h.2.2]⟩)
      (fun z h => by rw [dropWaiting_of_empty h.2.1]; exact h) ⟨hserved, hbare⟩).2.2
  · have hjoin : y.joinQueue e r i pass =
        (y.cancelManual e r).putQueue r ((y.cancelManual e r).queueOf r ++ [pass.entryOf i]) := by
      rw [Yard.joinQueue, List.isEmpty_eq_false_iff.mpr hempty]
      rfl
    rw [hjoin]
    exact ⟨hcut.trans hc, fun hw => by rw [hunmanned hw]; rfl⟩

/-! ## The start of the head cut -/

theorem coupled_of_bare {a b : Started} (h : bare a = bare b) : a.coupled = b.coupled := by
  simp only [bare, Started.mk.injEq] at h
  obtain ⟨-, -, -, -, -, -, -, -, -, hcoupled, -⟩ := h
  exact hcoupled

theorem sections_modifyLead (f : Section → Section) (y : Yard) : (y.modifySection .lead f).sections = y.sections := by
  unfold Yard.modifySection
  split <;> rfl

/-- The first axle is listed in the lead, and the lead alone is changed. -/
theorem Begun.occupied (h : Begun y i c g w) : Begun y i c g (w.occupy e .lead i) := by
  unfold Yard.occupy
  exact ⟨(sections_modifyLead _ w).trans h.sections, by simp [h.queues], by simp [h.points], by simp [h.plans], by simp [h.waiting],
    by simp [h.slotsInUse], by simp [h.drive], by simp [h.control], by simp [h.pendingList], by simp [h.slots], by simp [h.tracks],
    by simp [h.crest]⟩

theorem lead_occupied (hx : w.lead = some x) : (w.occupy e .lead i).lead = some { x with
    state := .occupied, count := axlesIn x.occupants + 1, occupants := x.occupants ++ [{ slot := i, entered := 1, exited := 0 }],
    stallTimer := if x.state = .clear then some (stallExpiry e x) else x.stallTimer } := by
  have hlead : (w.occupy e .lead i).sectionOf .lead = some (occupiedRecord e i x) := by
    have hmodified := Yard.sectionOf_modifySection .lead .lead (occupiedRecord e i) w
    rw [if_pos rfl, show w.sectionOf .lead = some x from hx] at hmodified
    exact hmodified
  have hcount : axleCount (x.occupants ++ [{ slot := i, entered := 1, exited := 0 }]) = axlesIn x.occupants + 1 := by
    rw [axleCount_append]
    rfl
  rw [← hcount]
  exact hlead

/-- The cut joins the queue of the root, where there is one (R42, R92). -/
def joinRoot (e : Env) (i : SlotIx) (pass : Passage) (y : Yard) : Yard :=
  match e.ladder.root with
  | some r => y.joinQueue e r i pass
  | none => y

theorem joinRoot_some (h : e.ladder.root = some r) : joinRoot e i pass y = y.joinQueue e r i pass := by rw [joinRoot, h]

theorem joinRoot_fields (y : Yard) : (joinRoot e i pass y).lead = y.lead ∧ (joinRoot e i pass y).crest = y.crest ∧
    (joinRoot e i pass y).pendingList = y.pendingList := by
  unfold joinRoot
  split
  · exact joinQueue_fields y
  · exact ⟨rfl, rfl, rfl⟩

theorem joinRoot_keeps {P : Yard → Prop} (h : PlanClosed e P) (hqueue : ∀ y q l, P y → P (y.putQueue q l)) (hy : P y) :
    P (joinRoot e i pass y) := by
  unfold joinRoot
  split
  · exact joinQueue_keeps h hqueue hy
  · exact hy

/-- The gap timer's start changes the crest unit alone. -/
theorem startGap_recrest {k : Crest} (h : y.crest = k) : { y.startGap e pass with crest := k } = y := by
  subst h
  rfl

/-- A cut whose route the root keeps to has its record and its reservation as they were given. -/
theorem joinRoot_of_kept (h : Begun y i c g z) (hheads : ∀ q, y.queueHead q ≠ some i)
    (hkept : ∀ r, e.ladder.root = some r →
      y.queueOf r ≠ [] ∨ ∃ pt leg, y.pointOf r = some pt ∧ Spec.Serves pt.state leg ∧ g.legAt r = some leg) :
    (joinRoot e i pass z).cutAt i = some (startedCut c g) ∧ (y.waiting = [] → (joinRoot e i pass z).tracks = z.tracks) := by
  cases hr : e.ladder.root with
  | none =>
    rw [joinRoot, hr]
    exact ⟨h.cut, fun _ => rfl⟩
  | some r =>
    have hkept' : z.queueOf r ≠ [] ∨
        ∃ pt leg, z.pointOf r = some pt ∧ Spec.Serves pt.state leg ∧ (startedCut c g).started.bind (fun x => x.legAt r) = some leg := by
      rw [queueOf_congr h.queues, Yard.pointOf_congr h.points]
      exact hkept r hr
    rw [joinRoot_some hr]
    obtain ⟨hcut, htracks⟩ := joinQueue_of_kept (e := e) (pass := pass) h.cut
      (fun q => by rw [queueHead_of_queues h.queues]; exact hheads q) hkept'
    exact ⟨hcut, fun hw => htracks (h.waiting.trans hw)⟩

/-- Settles O35: the axles that start no cut, the start into a lead that takes no axle, and the start into one with room. -/
theorem headCutStartsAtCrestAxle : Obligations.HeadCutStartsAtCrestAxle := by
  refine ⟨startIntoLostLead, furtherCrestAxle, absorbedAxle, unlistedCrestAxle, uphillAtCrest, ?_⟩
  intro s pass i rest c hdown hidle hmode hlist hc hp hroom
  obtain ⟨t, cause, route, coupled, hnew⟩ := given_new (e := s.env) (c := c) (pass := pass) (y := s.yard)
  have hcoupled : ∀ n p, CoupledTo s pass n p → (given s.env c pass s.yard) = (newStarted (nextFree s.yard) p.resolved none p.route (some n), true) :=
    fun n p h => given_coupled (coupledTo_iff.mp h)
  have hfree : (∀ n p, ¬ CoupledTo s pass n p) → (given s.env c pass s.yard).1 = newStarted (nextFree s.yard)
      (s.yard.resolution s.ladder c.dest c.axles).1 (s.yard.resolution s.ladder c.dest c.axles).2
      (s.ladder.routeOf (s.yard.resolution s.ladder c.dest c.axles).1) none := fun h =>
    congrArg Prod.fst (given_resolved (Option.eq_none_iff_forall_ne_some.mpr fun a ha => h a.1 a.2 (coupledTo_iff.mpr ha)))
  have hz := deliver_start (e := s.env) hdown hidle hmode hlist hc hp
  have hb := begun_begun i c (given s.env c pass s.yard) s.yard
  have hl := lead_begun i c (given s.env c pass s.yard) s.yard
  have hraised : ∀ n p, CoupledTo s pass n p → Raised (begun i c (given s.env c pass s.yard) s.yard) (.cut i) 5 := fun n p h => by
    rw [hcoupled n p h]
    exact raised_begun i c _ s.yard
  generalize begun i c (given s.env c pass s.yard) s.yard = w at hz hb hl hraised
  have hcoupled' : ∀ n p, CoupledTo s pass n p → (given s.env c pass s.yard).1 = newStarted (nextFree s.yard) p.resolved none p.route (some n) :=
    fun n p h => congrArg Prod.fst (hcoupled n p h)
  clear hcoupled
  generalize (given s.env c pass s.yard).1 = g at *
  obtain ⟨o, ho⟩ : ∃ o, o = w.occupy s.env .lead i := ⟨_, rfl⟩
  have hob : Begun s.yard i c g o := by rw [ho]; exact hb.occupied
  have hhand : w.handLeading s.env i pass = joinRoot s.env i pass o := by
    rw [handLeading_of_room (fun x hx => hroom x (hl.symm.trans hx)), joinRoot, ho]
  rw [hhand] at hz
  obtain ⟨hlead, hcrest, hpending⟩ := joinRoot_fields (e := s.env) (i := i) (pass := pass) o
  have hheld : HeldAs (startedCut c g) .entering ((joinRoot s.env i pass o).cutAt i) :=
    joinRoot_keeps ((trafficClosed_cut fun _ _ hf h => h.modifyStarted hf).plan s.env) (fun _ _ _ h => h) (heldAs_self hob.cut)
  obtain ⟨c', hc', hsame, hst⟩ := hheld
  obtain ⟨z, hzs, hbare⟩ := hsame.started rfl
  obtain ⟨horder, hprogress, haxles, htrack, hshort⟩ := bare_fields hbare
  have hhazard := hazard_of_bare hbare
  have hlink := coupled_of_bare hbare
  have hcrest' := hcrest.trans hob.crest
  have hqueue : ∀ r, s.ladder.root = some r → (joinRoot s.env i pass o).queueOf r = o.queueOf r ++ [pass.entryOf i] := fun r hr => by
    rw [joinRoot_some (e := s.env) hr, queueOf_joinQueue]
  have hnext : nextFree s.yard = z.order := by rw [horder, hnew]; rfl
  refine ⟨_, c', z, hz, hpending.trans (hob.pendingList.trans (congrArg List.tail hlist)), hc', hst, hzs, hsame.number, hsame.dest,
    hsame.axles, by rw [haxles, hnew]; rfl, by rw [hprogress, hnew]; rfl, by rw [htrack, hnew]; rfl, by rw [hhazard, hnew]; rfl,
    by rw [hshort, hnew]; rfl, hnext.symm, congrArg Crest.state hcrest', rfl, ?_, (congrArg Crest.previous hcrest' :), fun x hx => ?_,
    fun r hr => ?_, fun r hr hq hw => ?_, fun n p h => ⟨?_, ?_⟩, fun h => ?_, fun hheads t' cause' route' hcp hfr hkeep => ?_⟩
  · rw [← hnext]
    exact (congrArg Crest.nextOrder hcrest' :)
  · refine hlead.trans ?_
    rw [ho]
    exact lead_occupied (e := s.env) (i := i) (hl.trans hx)
  · exact (hqueue r hr).trans (congrArg (· ++ _) (queueOf_congr hob.queues r))
  · have hwait : ∀ a, o.waitingOf r = some a → a.claim ≠ .manual := by rwa [Yard.waitingOf, hob.waiting]
    have hempty : o.queueOf r = [] := (queueOf_congr hob.queues r).trans hq
    have hjoin : joinRoot s.env i pass o = (o.putQueue r [pass.entryOf i]).evaluate s.env r := by
      rw [joinRoot_some (e := s.env) hr, Yard.joinQueue, cancelManual_of_unmanned hwait, hempty]
      rfl
    obtain ⟨-, -, hqueues, -, hkept, -⟩ := Yard.standing_ext (Yard.standing_evaluate s.env r (o.putQueue r [pass.entryOf i]))
    refine ⟨o.putQueue r [pass.entryOf i], g, (startGap_recrest (by rw [hjoin]; exact hkept)).trans hjoin, ?_, hob.cut,
      by rw [hnew]; rfl, by rw [hnew]; rfl, by rw [hnew]; rfl, fun n p h => by rw [hcoupled' n p h]; exact ⟨rfl, rfl, rfl⟩,
      fun h => by rw [hfree h]; exact ⟨rfl, rfl⟩, hob.trackOf, hob.points, hob.sections, hob.plans, hob.waiting, hob.slotsInUse, hob.drive,
      hob.control, fun j hj => hob.look hj⟩
    refine Eq.trans ?_ (congrArg (fun a : Yard => a.queueOf r) hjoin).symm
    exact (queueOf_congr hqueues r).symm
  · rw [hlink, hcoupled' n p h]
    rfl
  · have hstarted : Raised o (.cut i) 5 := by
      rw [ho]
      exact Raised.of_notices (hraised n p h) (by simp [Yard.occupy])
    exact Raised.of_notices (joinRoot_keeps (i := i) (pass := pass) (planClosed_raised s.env _ _) (fun _ _ _ h => Raised.of_notices h rfl) hstarted) rfl
  · rw [hlink, hfree h]
    rfl
  · have hg : g.resolved = t' ∧ g.cause = cause' ∧ g.route = route' ∧ g.diversions = [] := by
      by_cases hany : ∃ n p, CoupledTo s pass n p
      · obtain ⟨n, p, h⟩ := hany
        obtain ⟨rfl, rfl, rfl⟩ := hcp n p h
        rw [hcoupled' n p h]
        exact ⟨rfl, rfl, rfl, rfl⟩
      · have hnone : ∀ n p, ¬ CoupledTo s pass n p := fun n p h => hany ⟨n, p, h⟩
        obtain ⟨hres, rfl⟩ := hfr hnone
        rw [hfree hnone, ← hres]
        exact ⟨rfl, rfl, rfl, rfl⟩
    obtain ⟨hcut, htracks⟩ := joinRoot_of_kept (e := s.env) (pass := pass) hob hheads fun r hr => by
      have hr' := hkeep r hr
      rw [← hg.2.2.1] at hr'
      exact hr'
    have hzg : z = g := by
      cases hcut.symm.trans hc'
      exact (Option.some.inj hzs).symm
    obtain ⟨hresolved, hcause, hroute, hdiversions⟩ := hg
    refine ⟨hzg ▸ hresolved, hzg ▸ hcause, hzg ▸ hroute, hzg ▸ hdiversions, fun hw k => ?_⟩
    rw [← hresolved]
    exact (trackOf_congr (htracks hw) k).trans (hob.trackOf k)

end Sys2Proof.Proofs
end
